-- ==== Sys2Proof/Word.lean ====
section
/-! DEFINITION. The words of the Cadris 3140: the byte the sheet link carries, the 2-byte field of a record,
the margin tag, the 12 bits of a line character and the point on the millisecond time base. -/

namespace Sys2Proof

/-- A payload character's 8 data bits (R164, R192). -/
abbrev Byte := BitVec 8

/-- A field of 2 bytes (R192). -/
abbrev Half := BitVec 16

/-- A margin tag, 0 to 4095 (R29). -/
abbrev TagNum := BitVec 12

/-- A character of the lines, 12 bit times: bit `i` is the level of bit time `i`, low 0 and high 1 (R164). -/
abbrev Frame := BitVec 12

/-- A point on the time base, a 32-bit count of milliseconds that wraps (R1). -/
abbrev Time := BitVec 32

end Sys2Proof
end

