-- ==== Sys2Proof/Syntax.lean ====
section
/-! DEFINITION. The commands of the Cadris 3140: one constructor of `Instr` for each row of the table of
operations and events, with the operands that come with it from outside, and the names (feeds, pockets, bins, ...)
those operands use. A name that the manual numbers from 1 is held as a `Fin` whose value is the number less 1. -/

namespace Sys2Proof

/-- Feeds 1 to 4. -/
abbrev FeedId := Fin 4
/-- Pockets 1 to 8. -/
abbrev PocketId := Fin 8
/-- Bins 1 to 24. -/
abbrev BinId := Fin 24
/-- Classes 1 to 48. -/
abbrev ClassId := Fin 48
/-- Jobs 1 to 32. -/
abbrev JobId := Fin 32
/-- Pack handles 1 to 255. -/
abbrev Handle := Fin 255
/-- Media classes 0 to 7. -/
abbrev MediaId := Fin 8
/-- Students 0 to 1023. -/
abbrev StudentId := Fin 1024

/-- The line rate given by the RATE straps (R164). -/
inductive LineRate where
  | r38400 | r76800 | r153600 | r307200
  deriving DecidableEq, Repr

/-- The run state the START strap names (R184). -/
inductive StartState where
  | standby | bypass
  deriving DecidableEq, Repr

/-- The values of the ADDR, RATE and START straps (R184); station 1 to 4. -/
structure Straps where
  station : Fin 4
  rate : LineRate
  start : StartState
  deriving DecidableEq, Repr

/-- A line character: its mark bit (control character when set) and its 8 data bits (R164). -/
structure LineChar where
  mark : Bool
  data : Byte
  deriving DecidableEq, Repr

/-- The parity bit and the stop bit a character came with (R164). -/
structure CheckBits where
  parity : Bool
  stop : Bool
  deriving DecidableEq, Repr

/-- A whole inbound record as the receiver offers it to the inbound queue: its kind, its payload and whether it
came broadcast (R166). -/
structure Record where
  bcast : Bool
  kind : Byte
  payload : List Byte
  deriving DecidableEq, Repr

/-- The payload of a Group or Control record whose action code the kind does not define (R171, R193). -/
inductive ActionRecord where
  | group (action : Byte)
  | control (action argument : Byte)
  deriving DecidableEq, Repr

/-- The commands: one constructor per row of spec/opcode_table.json. The commands of the sheet link carry
`bcast` (the record came broadcast) and the fields of the record's payload, in the order of R193; a Control
action carries its argument byte. The events of the machine side carry the feed, pocket or bin they name. -/
inductive Instr where
  /-- SHEET_NOTICE (R31). -/
  | sheetNotice (bcast : Bool) (feed handle page generation : Byte) (tag : Half)
  /-- PACK_ANNOUNCE (R17). -/
  | packAnnounce (bcast : Bool) (handle job : Byte) (student : Half) (pages : Byte)
  /-- PACK_WITHDRAW (R19). -/
  | packWithdraw (bcast : Bool) (handle : Byte)
  /-- TABLE_READ (R156). -/
  | tableRead (bcast : Bool) (bank : Byte) (index : Half) (count : Byte)
  /-- TABLE_WRITE (R154): the entries as they came, in bytes. -/
  | tableWrite (bcast : Bool) (bank : Byte) (index : Half) (entries : List Byte)
  /-- TABLE_MARK (R157). -/
  | tableMark (bcast : Bool) (bank : Byte) (index : Half)
  /-- MARKED_WRITE (R159). -/
  | markedWrite (bcast : Bool) (bank : Byte) (index : Half) (entry : List Byte)
  /-- GROUP_OPEN (R160). -/
  | groupOpen (bcast : Bool)
  /-- GROUP_CLOSE (R161). -/
  | groupClose (bcast : Bool)
  /-- GROUP_DISCARD (R162). -/
  | groupDiscard (bcast : Bool)
  /-- DRAIN_MARKER (R24). -/
  | drainMarker (bcast : Bool) (id : Byte)
  /-- STATUS_READ (R182). -/
  | statusRead (bcast : Bool)
  /-- UNDEFINED_RECORD_KIND (R171): an undefined kind, or a length that does not suit the kind. -/
  | undefinedRecordKind (bcast : Bool) (kind : Byte) (payload : List Byte)
  /-- RUN (R185). -/
  | run (bcast : Bool) (argument : Byte)
  /-- PAUSE (R185). -/
  | pause (bcast : Bool) (argument : Byte)
  /-- STANDBY (R186). -/
  | standby (bcast : Bool) (argument : Byte)
  /-- BYPASS (R189). -/
  | bypass (bcast : Bool) (argument : Byte)
  /-- RESUME (R188). -/
  | resume (bcast : Bool) (argument : Byte)
  /-- CLEAR_STAPLER (R101). -/
  | clearStapler (bcast : Bool) (argument : Byte)
  /-- CLEAR_RETURN (R119): the argument is the outcome. -/
  | clearReturn (bcast : Bool) (outcome : Byte)
  /-- FEED_FLUSH (R36): the argument is the feed. -/
  | feedFlush (bcast : Bool) (feed : Byte)
  /-- LOOPBACK_ON (R175). -/
  | loopbackOn (bcast : Bool) (argument : Byte)
  /-- LOOPBACK_OFF (R175). -/
  | loopbackOff (bcast : Bool) (argument : Byte)
  /-- RESET_WORK (R191). -/
  | resetWork (bcast : Bool) (argument : Byte)
  /-- RESET_ALL (R191). -/
  | resetAll (bcast : Bool) (argument : Byte)
  /-- POWER_ON (R190): the straps as read at power-on. -/
  | powerOn (straps : Straps)
  /-- RESET_PIN (R191): the straps as read at the RESET pin. -/
  | resetPin (straps : Straps)
  /-- RECORD_COMPLETE (R169): the record that the character just received completes. -/
  | recordComplete (bcast : Bool) (kind : Byte) (payload : List Byte)
  /-- STOP_CHARACTER (R165). -/
  | stopCharacter
  /-- LINE_ERROR (R164, R168): the bits of the character as received, behind its start bit. They show a parity or
  framing error; a sound character is one that truncates a record or gives a length above 60. -/
  | lineError (checks : CheckBits) (mark : Bool) (data : Byte)
  /-- BREAK (R164, R168): the line was held low for more than 24 bit times. -/
  | lineBreak
  /-- RECORD_SENT (R174). -/
  | recordSent
  /-- SHEET_PRESENT_ACTIVE (R37). -/
  | sheetPresentActive (feed : FeedId)
  /-- SHEET_PRESENT_INACTIVE (R37). -/
  | sheetPresentInactive (feed : FeedId)
  /-- ARRIVAL (R56): the tag the reader found, or none for "unreadable". -/
  | arrival (tag : Option TagNum)
  /-- DEADLINE_EXPIRY (R61). -/
  | deadlineExpiry
  /-- STOP_INPUT_FALL (R187). -/
  | stopInputFall
  /-- STOP_INPUT_RISE (R187). -/
  | stopInputRise
  /-- UNANNOUNCED_SHEET_WAIT_EXPIRY (R40). -/
  | unannouncedSheetWaitExpiry (feed : FeedId)
  /-- BLOCK_TIMER_EXPIRY (R64). -/
  | blockTimerExpiry
  /-- RELEASE_COMES_DUE (R53). -/
  | releaseComesDue
  /-- PURGE_DONE (R88). -/
  | purgeDone (pocket : PocketId)
  /-- PURGE_TIMEOUT (R89). -/
  | purgeTimeout (pocket : PocketId)
  /-- STAPLE_DONE (R99). -/
  | stapleDone
  /-- STAPLE_TIMEOUT (R100). -/
  | stapleTimeout
  /-- CARTRIDGE_FITTED (R105). -/
  | cartridgeFitted
  /-- EJECT_DONE (R117). -/
  | ejectDone
  /-- EJECT_TIMEOUT (R118). -/
  | ejectTimeout
  /-- BIN_CLEARED (R122). -/
  | binCleared (bin : BinId)
  /-- FLASH_END (R125). -/
  | flashEnd (bin : BinId)
  /-- INBOUND_CHARACTER_TAKEN (R166). -/
  | inboundCharacterTaken (mark : Bool) (data : Byte)
  /-- PACING_CHARACTER_SENT (R170). -/
  | pacingCharacterSent
  /-- LOOPBACK_ECHO_SENT (R175). -/
  | loopbackEchoSent
  /-- UNDEFINED_ACTION_CODE (R171). -/
  | undefinedActionCode (bcast : Bool) (record : ActionRecord)
  deriving DecidableEq, Repr

end Sys2Proof
end

