-- ==== Sys2Proof/Decode.lean ====
section
/-! DEFINITION. The wire layouts of the inbound records (R192, R193), both ways: `recordOf` gives the record a
command of the sheet link stands for, `instrOf` gives the command a record stands for, as the Record Handler
tells kinds, lengths and action codes apart (R171); and the 12 bits of a line character, both ways (R164).
`decodeTableWord` reads a command from a table word; no row
of spec/opcode_table.json gives bits, so there is none to read. -/

namespace Sys2Proof

/-! ### Bytes of a 2-byte field: the less significant byte is sent first (R192). -/

/-- The less significant byte of a 2-byte field. -/
def lowByte (h : Half) : Byte := h.extractLsb' 0 8

/-- The more significant byte of a 2-byte field. -/
def highByte (h : Half) : Byte := h.extractLsb' 8 8

/-- The 2-byte field sent as `lo` then `hi` (R192). -/
def halfOf (lo hi : Byte) : Half := hi ++ lo

/-! ### Characters on the line (R164): a start bit (low), 8 data bits with the least significant first, a mark bit, a
parity bit and a stop bit (high). -/

/-- How many of the 8 data bits are ones. -/
def onesOf (d : Byte) : Nat := ([0, 1, 2, 3, 4, 5, 6, 7].filter d.getLsbD).length

/-- The parity bit that makes the number of ones among the data bits, the mark bit and itself even (R164). -/
def parityOf (c : LineChar) : Bool := decide ((onesOf c.data + c.mark.toNat) % 2 = 1)

/-- The 12 bits of a character that comes with these check bits (R164). -/
def frameWith (k : CheckBits) (c : LineChar) : Frame :=
  BitVec.ofBool k.stop ++ BitVec.ofBool k.parity ++ BitVec.ofBool c.mark ++ c.data ++ 0#1

/-- The 12 bits a character is sent as (R164). -/
def frameOf (c : LineChar) : Frame := frameWith ⟨parityOf c, true⟩ c

/-- The character a frame carries. -/
def charOf (f : Frame) : LineChar := ⟨f.getLsbD 9, f.extractLsb' 1 8⟩

/-- The parity of the frame is wrong (R164). -/
def parityError (f : Frame) : Bool := f.getLsbD 10 != parityOf (charOf f)

/-- The stop bit of the frame is low (R164). -/
def framingError (f : Frame) : Bool := !f.getLsbD 11

/-- The frame has neither a parity nor a framing error (R164). -/
def frameSound (f : Frame) : Bool := !parityError f && !framingError f

/-- The line was low for more than 2 character times, 24 bit times: a break (R164). -/
def isBreak (low : Nat) : Bool := decide (24 < low)

/-- The event of a character received whole: a line error, STOP, or a character taken (R164, R165). -/
def instrOfFrame (f : Frame) : Instr :=
  let c := charOf f
  if !frameSound f then .lineError ⟨f.getLsbD 10, f.getLsbD 11⟩ c.mark c.data
  else if c.mark && decide (c.data = 0xE5) then .stopCharacter
  else .inboundCharacterTaken c.mark c.data

/-- For how many bit times the line has been low at the end of a character: its low bits from the stop bit back. -/
def lowTail (f : Frame) : Nat := ((List.range 12).takeWhile fun i => !f.getLsbD (11 - i)).length

/-- The event of a character after which the line stays low for `low` bit times (R164). A character that ends in a break
is the break: its stop bit is low, and the line is low for more than 24 bit times from the last of its ones on. Any
other is the character itself, however long of the rest of those bit times the line stays low after it (assumption
34). -/
def instrOfLine (f : Frame) (low : Nat) : Instr :=
  if framingError f && isBreak (lowTail f + low) then .lineBreak else instrOfFrame f

/-- The event of a line held low from a start bit on, for `low` bit times in all, 12 or more: a break, or one character
of zeros whose stop bit is low, up to 24 bit times of it (R164, assumption 34). -/
def instrOfLow (low : Nat) : Instr := instrOfLine 0 (low - 12)

/-! ### The banks (R145, R197). -/

/-- The first index of a bank: 0 for the Roster and Media banks, 1 for the others (R145). -/
def bankFirst (bank : Nat) : Nat :=
  match bank with
  | 3 => 0
  | 4 => 0
  | _ => 1

/-- The number of entries of a bank; 0 for a number that names no bank (R145). -/
def bankCount (bank : Nat) : Nat :=
  match bank with
  | 1 => 32
  | 2 => 48
  | 3 => 1024
  | 4 => 8
  | 5 => 4
  | 6 => 24
  | 7 => 1
  | 8 => 1
  | 9 => 255
  | 10 => 8
  | _ => 0

/-- The bytes of one entry of a bank (R197). -/
def bankEntrySize (bank : Nat) : Nat :=
  match bank with
  | 1 => 7
  | 2 => 3
  | 3 => 1
  | 4 => 2
  | 5 => 4
  | 6 => 6
  | 7 => 23
  | 8 => 15
  | 9 => 28
  | 10 => 9
  | _ => 0

/-- The entries one Table Write of the bank may carry (R197). -/
def bankWriteLimit (bank : Nat) : Nat :=
  match bank with
  | 1 => 8
  | 2 => 18
  | 3 => 56
  | 4 => 8
  | 5 => 4
  | 6 => 9
  | 7 => 1
  | 8 => 1
  | 10 => 6
  | _ => 0

/-- The entries a Table Read of the bank returns before its Result has no room for another (R197). -/
def bankReadLimit (bank : Nat) : Nat :=
  match bank with
  | 1 => 7
  | 2 => 17
  | 3 => 53
  | 4 => 8
  | 5 => 4
  | 6 => 8
  | 7 => 1
  | 8 => 1
  | 9 => 1
  | 10 => 5
  | _ => 0

/-- A bank number names a bank (R145). -/
def isBank (bank : Nat) : Bool := decide (1 ≤ bank ∧ bank ≤ 10)

/-- The index names an entry of the bank (R145). -/
def isIndex (bank index : Nat) : Bool :=
  decide (bankFirst bank ≤ index ∧ index < bankFirst bank + bankCount bank)

/-! ### Record kinds and action codes (R193). -/

/-- Kind codes of the inbound records (R193). -/
def kindSheetNotice : Byte := 0x01
def kindPackAnnounce : Byte := 0x02
def kindPackWithdraw : Byte := 0x03
def kindTableRead : Byte := 0x04
def kindTableWrite : Byte := 0x05
def kindTableMark : Byte := 0x06
def kindMarkedWrite : Byte := 0x07
def kindGroup : Byte := 0x08
def kindDrainMarker : Byte := 0x09
def kindStatusRead : Byte := 0x0A
def kindControl : Byte := 0x0B

/-- The length of a Marked Write's entry suits the bank it names (R193); a bank number that names no bank is left
for the Table Store to refuse (assumption 21). -/
def markedLengthSuits (bank : Byte) (entry : List Byte) : Bool :=
  !isBank bank.toNat || decide (entry.length = bankEntrySize bank.toNat)

/-- A Control record with action code `action` (R193). -/
def controlRecord (bcast : Bool) (action argument : Byte) : Record := ⟨bcast, kindControl, [action, argument]⟩

/-- A Group record with action code `action` (R193). -/
def groupRecord (bcast : Bool) (action : Byte) : Record := ⟨bcast, kindGroup, [action]⟩

/-- The record a command of the sheet link stands for, laid out as R193 gives; none for the other commands. -/
def recordOf : Instr → Option Record
  | .sheetNotice bc feed handle page generation tag =>
    some ⟨bc, kindSheetNotice, [feed, handle, page, generation, lowByte tag, highByte tag]⟩
  | .packAnnounce bc handle job student pages =>
    some ⟨bc, kindPackAnnounce, [handle, job, lowByte student, highByte student, pages]⟩
  | .packWithdraw bc handle => some ⟨bc, kindPackWithdraw, [handle]⟩
  | .tableRead bc bank index count => some ⟨bc, kindTableRead, [bank, lowByte index, highByte index, count]⟩
  | .tableWrite bc bank index entries =>
    some ⟨bc, kindTableWrite, bank :: lowByte index :: highByte index :: entries⟩
  | .tableMark bc bank index => some ⟨bc, kindTableMark, [bank, lowByte index, highByte index]⟩
  | .markedWrite bc bank index entry =>
    some ⟨bc, kindMarkedWrite, bank :: lowByte index :: highByte index :: entry⟩
  | .groupOpen bc => some (groupRecord bc 1)
  | .groupClose bc => some (groupRecord bc 2)
  | .groupDiscard bc => some (groupRecord bc 3)
  | .drainMarker bc id => some ⟨bc, kindDrainMarker, [id]⟩
  | .statusRead bc => some ⟨bc, kindStatusRead, []⟩
  | .undefinedRecordKind bc kind payload => some ⟨bc, kind, payload⟩
  | .run bc argument => some (controlRecord bc 1 argument)
  | .pause bc argument => some (controlRecord bc 2 argument)
  | .standby bc argument => some (controlRecord bc 3 argument)
  | .bypass bc argument => some (controlRecord bc 4 argument)
  | .resume bc argument => some (controlRecord bc 5 argument)
  | .clearStapler bc argument => some (controlRecord bc 6 argument)
  | .clearReturn bc outcome => some (controlRecord bc 7 outcome)
  | .feedFlush bc feed => some (controlRecord bc 8 feed)
  | .loopbackOn bc argument => some (controlRecord bc 9 argument)
  | .loopbackOff bc argument => some (controlRecord bc 10 argument)
  | .resetWork bc argument => some (controlRecord bc 11 argument)
  | .resetAll bc argument => some (controlRecord bc 12 argument)
  | .undefinedActionCode bc (.group action) => some (groupRecord bc action)
  | .undefinedActionCode bc (.control action argument) => some (controlRecord bc action argument)
  | .powerOn _ => none
  | .resetPin _ => none
  | .recordComplete _ _ _ => none
  | .stopCharacter => none
  | .lineError _ _ _ => none
  | .lineBreak => none
  | .recordSent => none
  | .sheetPresentActive _ => none
  | .sheetPresentInactive _ => none
  | .arrival _ => none
  | .deadlineExpiry => none
  | .stopInputFall => none
  | .stopInputRise => none
  | .unannouncedSheetWaitExpiry _ => none
  | .blockTimerExpiry => none
  | .releaseComesDue => none
  | .purgeDone _ => none
  | .purgeTimeout _ => none
  | .stapleDone => none
  | .stapleTimeout => none
  | .cartridgeFitted => none
  | .ejectDone => none
  | .ejectTimeout => none
  | .binCleared _ => none
  | .flashEnd _ => none
  | .inboundCharacterTaken _ _ => none
  | .pacingCharacterSent => none
  | .loopbackEchoSent => none

/-- The command a Control record with this action code stands for (R193). -/
def controlInstr (bc : Bool) (action argument : Byte) : Instr :=
  match action.toNat with
  | 1 => .run bc argument
  | 2 => .pause bc argument
  | 3 => .standby bc argument
  | 4 => .bypass bc argument
  | 5 => .resume bc argument
  | 6 => .clearStapler bc argument
  | 7 => .clearReturn bc argument
  | 8 => .feedFlush bc argument
  | 9 => .loopbackOn bc argument
  | 10 => .loopbackOff bc argument
  | 11 => .resetWork bc argument
  | 12 => .resetAll bc argument
  | _ => .undefinedActionCode bc (.control action argument)

/-- The command a Group record with this action code stands for (R193). -/
def groupInstr (bc : Bool) (action : Byte) : Instr :=
  match action.toNat with
  | 1 => .groupOpen bc
  | 2 => .groupClose bc
  | 3 => .groupDiscard bc
  | _ => .undefinedActionCode bc (.group action)

/-- The command a whole record stands for: its row by kind, length and action code (R171, R193). -/
def instrOf (r : Record) : Instr :=
  match r.kind.toNat, r.payload with
  | 1, [feed, handle, page, generation, t0, t1] =>
    .sheetNotice r.bcast feed handle page generation (halfOf t0 t1)
  | 2, [handle, job, s0, s1, pages] => .packAnnounce r.bcast handle job (halfOf s0 s1) pages
  | 3, [handle] => .packWithdraw r.bcast handle
  | 4, [bank, i0, i1, count] => .tableRead r.bcast bank (halfOf i0 i1) count
  | 5, bank :: i0 :: i1 :: entries => .tableWrite r.bcast bank (halfOf i0 i1) entries
  | 6, [bank, i0, i1] => .tableMark r.bcast bank (halfOf i0 i1)
  | 7, bank :: i0 :: i1 :: entry =>
    bif markedLengthSuits bank entry then .markedWrite r.bcast bank (halfOf i0 i1) entry
    else .undefinedRecordKind r.bcast r.kind r.payload
  | 8, [action] => groupInstr r.bcast action
  | 9, [id] => .drainMarker r.bcast id
  | 10, [] => .statusRead r.bcast
  | 11, [action, argument] => controlInstr r.bcast action argument
  | _, _ => .undefinedRecordKind r.bcast r.kind r.payload

/-- The command a table word spells: no row of spec/opcode_table.json gives bits, so no word spells one
(assumption 27). -/
def decodeTableWord (_nbits _w : Nat) : Option Instr := none

end Sys2Proof
end

