-- ==== Sys2Proof/Config.lean ====
section
/-! DEFINITION. What the part fixes once (the sizes of its queues and lists) and the two values the manual
leaves free. -/

namespace Sys2Proof.Config

/-- The inbound queue holds at most 32 records (R169). -/
def inboundSize : Nat := 32

/-- The outbound queue holds at most 24 records (R173). -/
def outboundSize : Nat := 24

/-- At most 20 event notices stand in the outbound queue at once (R173). -/
def noticeLimit : Nat := 20

/-- At most 32 loopback echoes wait at once (R175). -/
def echoLimit : Nat := 32

/-- A feed staging queue holds at most 6 entries (R29). -/
def stagingSize : Nat := 6

/-- The in-flight list holds at most 8 entries (R44). -/
def inFlightSize : Nat := 8

/-- At most 4 drain markers are outstanding (R24). -/
def markerLimit : Nat := 4

/-- An edit group holds at most 16 staged entry writes (R160). -/
def groupSize : Nat := 16

/-- A record's payload is at most 60 characters (R166). -/
def payloadLimit : Nat := 60

/-- R54: the bound on the age of A_last, in ms. -/
def aLastBound : Int := 65536

/-- R125: a delivery flash runs for 400 ms. -/
def flashTime : Int := 400

/-- FREE VALUE (assumption 3). Which of several timed events of the block that are due at one moment it takes
first: the manual says "either may be taken first". It is applied to the count of choices made so far; nothing
constrains it. -/
opaque raceChoice : Nat → Nat

/-- FREE VALUE (assumption 9). How many characters of the record begun on the reply line have gone out before a
pacing character or an echo that falls between two of them: the manual leaves it to the moment. It is applied to the
point in time and the count of such characters so far; nothing constrains it. -/
opaque charactersGone : Nat → Nat → Nat

end Sys2Proof.Config
end

