-- ==== Sys2Proof/Machine/State.lean ====
section
/-! DEFINITION. The state of the Cadris 3140 as plain data, block by block as 00_scope.md lists what each block
owns, and the state right after reset. Beside the manual's own state it holds three fields of the model:
the queue of commands that wait (`pending`), the count of free choices made (`choices`), and the count of
pulses given on each release output (`releasePulses`). -/

namespace Sys2Proof.Machine

/-! ### Packs (R2 to R6) -/

/-- Where a pack stands (R2). `opened` is the manual's OPEN. -/
inductive PackState where
  | free | announced | opened | complete | stapling | ready | delivering | restarting | disposing
  deriving DecidableEq, Repr

/-- A job's staple pattern (R147). -/
inductive StaplePattern where
  | none | corner | edgePair
  deriving DecidableEq, Repr

/-- A job's oversize policy (R147). -/
inductive OversizePolicy where
  | split | unstapled | refuse
  deriving DecidableEq, Repr

/-- A job's staples-out policy (R147). -/
inductive StaplesOutPolicy where
  | hold | deliverUnstapled
  deriving DecidableEq, Repr

/-- A volume plan: the rising end pages of its volumes and the stapled attribute (R5). -/
structure Plan where
  ends : List Nat
  stapled : Bool
  deriving DecidableEq, Repr

/-- What a pack took from the tables when it was announced (R5). -/
structure Snapshot where
  cover : Nat
  body : Nat
  pattern : StaplePattern
  staplesOut : StaplesOutPolicy
  plan : Plan
  deriving DecidableEq, Repr

/-- A pack's flags (R6). -/
structure PackFlags where
  outOfTurn : Bool
  unstapled : Bool
  partlyStapled : Bool
  deriving DecidableEq, Repr

/-- A pack record (R2). The handle is the record's place in the table. A FREE record holds the value
`PackRec.cleared`, whose job, student and class read as 0 (R3, assumption 25). -/
structure PackRec where
  state : PackState
  job : JobId
  student : StudentId
  cls : ClassId
  pages : Nat
  serial : Half
  gen : Nat
  released : Nat
  received : Nat
  pocket : Option PocketId
  snap : Snapshot
  total : Nat
  units : Nat
  flags : PackFlags
  deriving DecidableEq, Repr

/-- The cleared contents of a record that goes FREE (R3). -/
def PackRec.cleared : PackRec :=
  { state := .free, job := 0, student := 0, cls := 0, pages := 0, serial := 0, gen := 0, released := 0,
    received := 0, pocket := none, snap := ⟨0, 0, .none, .hold, ⟨[], false⟩⟩, total := 0, units := 0,
    flags := ⟨false, false, false⟩ }

/-- An outstanding drain marker and its watch list (R24). -/
structure Marker where
  id : Byte
  watch : List Handle
  deriving DecidableEq, Repr

/-- The Pack Register: the pack table and the 48 class delivery queues as sparse tables (an entry not listed is
FREE, a queue not listed is empty), the outstanding markers in the order taken, the announce counter
(R2, R4, R21, R24). -/
structure PackRegister where
  packs : List (Handle × PackRec)
  queues : List (ClassId × List Handle)
  markers : List Marker
  serial : Half
  deriving DecidableEq, Repr

/-! ### Feed Staging (R28, R29) -/

/-- A feed's state (R34). -/
inductive FeedState where
  | offline | online | faulted
  deriving DecidableEq, Repr

/-- A feed's shelf condition (R37). -/
inductive Shelf where
  | empty | present | clearing
  deriving DecidableEq, Repr

/-- One sheet expected on a shelf (R29). -/
structure StagingEntry where
  handle : Handle
  page : Nat
  gen : Nat
  tag : TagNum
  deriving DecidableEq, Repr

/-- A feed record: its state, its staging queue (head first), its shelf condition, the unannounced-sheet wait
(none while stopped, else its start point) and the pending discard (R28). -/
structure FeedRec where
  state : FeedState
  queue : List StagingEntry
  shelf : Shelf
  wait : Option Time
  discard : Bool
  deriving DecidableEq, Repr

/-! ### The Merge Arbiter (R44, R45) -/

/-- The treatment of a released sheet (R45). -/
inductive Disposition where
  | collate | discard | pass
  deriving DecidableEq, Repr

/-- The tag of an in-flight entry: numbered, "any" or "none" (R45). -/
inductive EntryTag where
  | num (tag : TagNum)
  | any
  | untagged
  deriving DecidableEq, Repr

/-- A released sheet the merge sensor has not yet reported (R45); no handle stands for handle 0. -/
structure InFlight where
  feed : FeedId
  handle : Option Handle
  page : Nat
  gen : Nat
  tag : EntryTag
  disp : Disposition
  arrival : Time
  deadline : Time
  deriving DecidableEq, Repr

/-- The position of the merge gate (R56). -/
inductive Gate where
  | reject
  | passThrough
  | pocket (p : PocketId)
  deriving DecidableEq, Repr

/-- The Merge Arbiter: the in-flight list (oldest first), A_last, the block timer (none while stopped, else its
start point), the break pick (R44) and the merge gate it sets (R55 to R59). -/
structure MergeArbiter where
  inFlight : List InFlight
  aLast : Time
  blockTimer : Option Time
  pick : Option (FeedId × Handle)
  gate : Gate
  deriving DecidableEq, Repr

/-! ### Pockets (R70) -/

/-- A pocket's state (R72). -/
inductive PocketState where
  | empty | collating | held | stapling | ejecting | purging | outOfService
  deriving DecidableEq, Repr

/-- A PURGING pocket's purge (R86). -/
inductive PurgeState where
  | none | pending | running
  deriving DecidableEq, Repr

/-- Why an OUT_OF_SERVICE pocket was taken out of service (R70). -/
inductive OutCause where
  | none | fault | written
  deriving DecidableEq, Repr

/-- A pocket record (R70) with its offset output, and the start point and time allowance of its running purge
(R87). In service is YES unless the state is OUT_OF_SERVICE; the purge output is asserted while the purge is
running. -/
structure PocketRec where
  state : PocketState
  pack : Option Handle
  sheets : Nat
  thickness : Nat
  volume : Nat
  purge : PurgeState
  cause : OutCause
  offset : Bool
  purgeStart : Time
  purgeAllowance : Nat
  deriving DecidableEq, Repr

/-! ### The Stapler (R95) -/

/-- The stapler state (R95). -/
inductive StaplerState where
  | idle | stapling | waitingCartridge | faulted
  deriving DecidableEq, Repr

/-- A volume operation or a delivery: none, in flight, or cut off by HALT (R95, R112). -/
inductive Operation where
  | none | inFlight | cutOff
  deriving DecidableEq, Repr

/-- The pack the staple head is working on (R95), with the start point and the allowance of an operation in
flight (R98). -/
structure WorkRec where
  handle : Handle
  gen : Nat
  volume : Nat
  stapled : Nat
  op : Operation
  start : Time
  allowance : Nat
  deriving DecidableEq, Repr

/-- The Stapler: its state, the staple queue (head first), staples remaining, the work record and the staple
command (pocket and staple count) while it is given (R95). -/
structure Stapler where
  state : StaplerState
  queue : List Handle
  remaining : Nat
  work : Option WorkRec
  command : Option (PocketId × Nat)
  deriving DecidableEq, Repr

/-! ### The Return Unit (R112, R113) -/

/-- The return state (R112). -/
inductive ReturnState where
  | idle | ejecting | faulted
  deriving DecidableEq, Repr

/-- The delivery under way (R112). -/
structure DeliveryRec where
  handle : Handle
  gen : Nat
  pocket : PocketId
  bin : BinId
  units : Nat
  op : Operation
  start : Time
  allowance : Nat
  deriving DecidableEq, Repr

/-- A bin's lamp mode (R113). -/
inductive LampMode where
  | auto | on | off | test
  deriving DecidableEq, Repr

/-- What a lamp shows apart from the delivery flash: dark, lit, or a blink of 1, 2 or 4 Hz (R124). -/
inductive LampShow where
  | dark | lit | blink1 | blink2 | blink4
  deriving DecidableEq, Repr

/-- A bin record (R113): capacity, in service, lamp mode, fill, the flash's start point while one runs (R125),
and what its lamp shows with the moment that began (R124: a blink starts lit when its condition begins). -/
structure BinRec where
  capacity : Nat
  inService : Bool
  lampMode : LampMode
  fill : Nat
  flash : Option Time
  lamp : LampShow
  lampSince : Time
  deriving DecidableEq, Repr

/-- The Return Unit (R112), with the eject command (pocket and bin) while it is given. -/
structure ReturnUnit where
  state : ReturnState
  queue : List Handle
  delivery : Option DeliveryRec
  bins : Vector BinRec 24
  command : Option (PocketId × BinId)
  deriving DecidableEq, Repr

/-! ### The Table Store (R145) -/

/-- A Job entry's writable fields (R147); packs outstanding is the count of records the Pack Register keeps. -/
structure JobEntry where
  isOpen : Bool
  cover : MediaId
  body : MediaId
  pattern : StaplePattern
  oversize : OversizePolicy
  staplesOut : StaplesOutPolicy
  deriving DecidableEq, Repr

/-- A class's order policy (R23). -/
inductive OrderPolicy where
  | ordered | unordered
  deriving DecidableEq, Repr

/-- A Class entry's writable fields (R148); no bin stands for bin 0. -/
structure ClassEntry where
  bin : Option BinId
  policy : OrderPolicy
  deriving DecidableEq, Repr

/-- The settings (R151). Staples remaining is the Stapler's. -/
structure Settings where
  stapleMax : Nat
  pocketMax : Nat
  pitch : Nat
  lateTol : Nat
  blockTime : Nat
  restartLimit : Nat
  holdHigh : Nat
  holdLow : Nat
  pocketsInService : Nat
  cartridgeSize : Nat
  staplesLow : Nat
  mechTimeout : Nat
  noticeWait : Nat
  deriving DecidableEq, Repr

/-- One entry of a bank, named by what it belongs to (R145). -/
inductive EntryRef where
  | job (j : JobId)
  | cls (c : ClassId)
  | roster (s : StudentId)
  | media (m : MediaId)
  | feed (f : FeedId)
  | bin (b : BinId)
  | settings
  | mask
  | pack (h : Handle)
  | pocket (p : PocketId)
  deriving DecidableEq, Repr

/-- The writable contents of one entry, codes read and numeric fields clamped (R160). -/
inductive Entry where
  | job (e : JobEntry)
  | cls (e : ClassEntry)
  | roster (c : Option ClassId)
  | media (thickness : Nat)
  | feed (state : FeedState) (travel : Nat)
  | bin (capacity : Nat) (inService : Bool) (lampMode : LampMode)
  | settings (v : Settings)
  | mask (masked : Vector Bool 15)
  | pocket (inService : Bool)
  deriving DecidableEq, Repr

/-- A staged entry write (R160), with the index it was written at. -/
structure Staged where
  ref : EntryRef
  index : Nat
  entry : Entry
  deriving DecidableEq, Repr

/-- The Table Store: the banks it holds that no other block's record holds (feed states, queues, bins and pockets
stand in their owners' records), the attention masks in attention order (set = MASKED), the roster as a sparse
table (a student not listed is not enrolled), the mark, and the edit group (none while closed)
(R147 to R160). -/
structure TableStore where
  jobs : Vector JobEntry 32
  classes : Vector ClassEntry 48
  roster : List (StudentId × Option ClassId)
  media : Vector Nat 8
  travel : Vector Nat 4
  settings : Settings
  masks : Vector Bool 15
  mark : Option EntryRef
  group : Option (List Staged)
  deriving DecidableEq, Repr

/-! ### Outbound records (R194, R195) -/

/-- The cause of a restart request (R128). -/
inductive RestartCause where
  | missingSheet | mismatch | orderFault | block | resumeFlush | lost
  deriving DecidableEq, Repr

/-- The kind of an order break (R68). -/
inductive BreakKind where
  | pocket | delivery
  deriving DecidableEq, Repr

/-- The 15 attention causes in attention order (R177). -/
inductive Cause where
  | stop | jam | mechFault | mismatch | stray | unannounced | linkError | overrun | staplesOut | binFull
  | staplesLow | restart | abandon | orderBreak | noticeOverflow
  deriving DecidableEq, Repr

/-- The status of a Result (R195). -/
inductive Status where
  | accepted | partialRun | wrongState | badValue | badIndex | readOnly | inUse | markLost | groupFull | noGroup
  | handleInUse | jobClosed | notEnrolled | noBin | tooThick | tooThickToStaple | noSuchPack | tooLate
  | drainFull | feedOffline | feedFull | badGeneration | lineError | overrun
  deriving DecidableEq, Repr

/-- The notes of a Result (R195). -/
structure Notes where
  clamped : Bool := false
  staged : Bool := false
  splitLimit : Bool := false
  deriving DecidableEq, Repr

/-- Which reset started the device up (R184). -/
inductive ResetKind where
  | powerOn | pin | all | work
  deriving DecidableEq, Repr

/-- The run state a record reports (R196). -/
inductive RunCode where
  | starting | standby | run | pause | stopping | halt | bypass
  deriving DecidableEq, Repr

/-- An outbound record (R194); a Result carries its data as the bytes of R195. -/
inductive OutRecord where
  | result (kind : Byte) (status : Status) (notes : Notes) (data : List Byte)
  | reprintRequest (handle : Handle) (gen : Nat) (cause : RestartCause)
  | packDelivered (handle : Handle) (bin : BinId) (flags : PackFlags) (volumes : Nat)
  | packAbandoned (handle : Handle) (cause : RestartCause)
  | orderBreak (handle : Handle) (cls : ClassId) (kind : BreakKind)
  | attention (top : Option Cause)
  | drainComplete (id : Byte)
  | startReport (straps : Straps) (kind : ResetKind) (state : RunCode)
  deriving DecidableEq, Repr

/-! ### The Link Port (R164 to R176) -/

/-- The receiver's assembly state (R166); ASSEMBLING keeps the characters taken since the address: kind, length,
payload. -/
inductive Receiver where
  | waiting
  | skipping
  | assembling (bcast : Bool) (got : List Byte)
  deriving DecidableEq, Repr

/-- A pacing character (R170). -/
inductive Pacing where
  | hold | resume
  deriving DecidableEq, Repr

/-- The Link Port: the receiver, the inbound and outbound queues and the held list (head first), the place on the
reply line within the outbound queue's head record once it has been begun, as the number of its characters sent
(R174), the HOLD state (the HOLD output follows it), the pacing character due, the loopback flag and the echoes waiting
(R166 to R175); the characters that the last command of the reply line put on it (R174). The MODEL's own (assumption
9): whether one has waited ever since the last character boundary that a pacing character or an echo took, so that no
record character can have gone since, and the count of such boundaries. -/
structure LinkPort where
  receiver : Receiver
  inbound : List Record
  outbound : List OutRecord
  sending : Option Nat
  held : List OutRecord
  hold : Bool
  pacing : Option Pacing
  loopback : Bool
  echoes : List LineChar
  line : List LineChar
  stalled : Bool
  boundaries : Nat
  deriving DecidableEq, Repr

/-! ### Attention (R177, R179) and Run Control (R184) -/

/-- The Attention Unit: the latches in attention order and the ATTENTION output. -/
structure AttentionUnit where
  latches : Vector Bool 15
  output : Bool
  deriving DecidableEq, Repr

/-- The halt cause (R184). -/
inductive HaltCause where
  | stop | jam
  deriving DecidableEq, Repr

/-- The state RESUME returns to (R184). -/
inductive ResumeTarget where
  | run | pause | standby | bypass
  deriving DecidableEq, Repr

/-- The state STOPPING was entered from (R184). -/
inductive StoppingOrigin where
  | run | pause | bypass
  deriving DecidableEq, Repr

/-- The run state with what R184 gives it while it lasts: STARTING its reset kind and halt pending, STOPPING its
stopping origin, HALT its cause and its resume target. -/
inductive RunState where
  | starting (kind : ResetKind) (haltPending : Bool)
  | standby
  | run
  | pause
  | stopping (origin : StoppingOrigin)
  | halt (cause : HaltCause) (target : ResumeTarget)
  | bypass
  deriving DecidableEq, Repr

/-- Run Control: the run state and the strap values it holds (R184). TRANSPORT STOP is asserted in HALT. -/
structure RunControl where
  state : RunState
  straps : Straps
  deriving DecidableEq, Repr

/-- The levels of the inputs whose level some rule reads: the STOP input (R188, R190) and the four sheet-present
inputs (R37, R43); assumption 24. -/
structure Pins where
  stopHigh : Bool
  sheetPresent : Vector Bool 4
  deriving DecidableEq, Repr

/-! ### The machine -/

/-- The state of the device. -/
structure State where
  /-- The time base (R1). -/
  now : Time
  /-- The input levels. -/
  pins : Pins
  /-- The Link Port. -/
  link : LinkPort
  /-- The Table Store. -/
  tables : TableStore
  /-- The Pack Register. -/
  reg : PackRegister
  /-- Feed Staging. -/
  feeds : Vector FeedRec 4
  /-- The Merge Arbiter. -/
  arb : MergeArbiter
  /-- The Pocket Controller. -/
  pockets : Vector PocketRec 8
  /-- The Stapler. -/
  stapler : Stapler
  /-- The Return Unit. -/
  ret : ReturnUnit
  /-- The Attention Unit. -/
  attn : AttentionUnit
  /-- Run Control. -/
  run : RunControl
  /-- The MODEL's own: pulses given so far on each release output (assumption 24). -/
  releasePulses : Vector Nat 4
  /-- The MODEL's own: how many free choices among timed events have been made (assumption 3). -/
  choices : Nat
  /-- The MODEL's own: the commands that wait, first in, first out. -/
  pending : List Instr
  deriving DecidableEq, Repr

/-- The reasons a step can stop with a fault. There are none: the manual gives every command its effect in every
state, so no meaning faults. -/
inductive Fault where
  deriving DecidableEq, Repr

/-- The reasons a step can be refused. -/
inductive Refusal where
  /-- Raised by exec's arm of a command that has no meaning yet; safe, the model answers nothing. -/
  | notModelled (mnemonic : String)
  deriving DecidableEq, Repr

/-! ### Reset -/

/-- The settings' defaults (R151). -/
def Settings.default : Settings :=
  { stapleMax := 5000, pocketMax := 12000, pitch := 450, lateTol := 250, blockTime := 10, restartLimit := 2,
    holdHigh := 24, holdLow := 8, pocketsInService := 8, cartridgeSize := 5000, staplesLow := 100,
    mechTimeout := 4000, noticeWait := 2000 }

/-- A Job entry's defaults (R147). -/
def JobEntry.default : JobEntry :=
  { isOpen := false, cover := 0, body := 0, pattern := .corner, oversize := .split, staplesOut := .hold }

/-- A Class entry's defaults (R148). -/
def ClassEntry.default : ClassEntry := { bin := none, policy := .ordered }

/-- The Table Store's defaults (R163). -/
def TableStore.default : TableStore :=
  { jobs := Vector.replicate 32 JobEntry.default
    classes := Vector.replicate 48 ClassEntry.default
    roster := []
    media := #v[104, 124, 152, 190, 250, 104, 104, 104]
    travel := Vector.replicate 4 1500
    settings := Settings.default
    masks := Vector.replicate 15 false
    mark := none
    group := none }

/-- A bin record after power-on (R127): capacity 800, in service, AUTO, fill 0, no flash, lamp dark since `now`. -/
def BinRec.default (now : Time) : BinRec :=
  { capacity := 800, inService := true, lampMode := .auto, fill := 0, flash := none, lamp := .dark,
    lampSince := now }

/-- A pocket right after STARTING is entered by power-on (R93): PURGING, its purge running since `now` (R87). -/
def PocketRec.startUp (now : Time) (allowance : Nat) : PocketRec :=
  { state := .purging, pack := none, sheets := 0, thickness := 0, volume := 0, purge := .running, cause := .none,
    offset := false, purgeStart := now, purgeAllowance := allowance }

/-- The machine right after power-on. The manual states every value but these, which assumption 2 names: the
strap values (station 1, 38 400 bit/s, STANDBY), the input levels (STOP high, no sheet present), the merge gate
(reject), the time base (0) and the model's own fields. -/
def State.reset : State :=
  { now := 0
    pins := { stopHigh := true, sheetPresent := Vector.replicate 4 false }
    link := { receiver := .waiting, inbound := [], outbound := [], sending := none, held := [], hold := false,
              pacing := none, loopback := false, echoes := [], line := [], stalled := false, boundaries := 0 }
    tables := TableStore.default
    reg := { packs := [], queues := [], markers := [], serial := 0 }
    feeds := Vector.replicate 4
      { state := .offline, queue := [], shelf := .empty, wait := none, discard := false }
    arb := { inFlight := [], aLast := 0, blockTimer := none, pick := none, gate := .reject }
    pockets := Vector.replicate 8 (PocketRec.startUp 0 4000)
    stapler := { state := .idle, queue := [], remaining := 5000, work := none, command := none }
    ret := { state := .idle, queue := [], delivery := none, bins := Vector.replicate 24 (BinRec.default 0),
             command := none }
    attn := { latches := Vector.replicate 15 false, output := false }
    run := { state := .starting .powerOn false, straps := ⟨0, .r38400, .standby⟩ }
    releasePulses := Vector.replicate 4 0
    choices := 0
    pending := [] }

end Sys2Proof.Machine
end

