-- ==== Sys2Proof/Machine/Sparse.lean ====
section
/-! DEFINITION. Sparse tables: a list of (number, value) pairs in one canonical form, the numbers strictly rising
and no value equal to what an unlisted number reads as. The pack table, the class delivery queues and the roster
are held so. -/

namespace Sys2Proof.Machine

variable {n : Nat} {α : Type}

/-- What entry `k` holds: the default `d` where it is not listed. -/
def Sparse.get (d : α) : List (Fin n × α) → Fin n → α
  | [], _ => d
  | (k', v) :: rest, k => if k' = k then v else Sparse.get d rest k

/-- The table without entry `k`. -/
def Sparse.erase : List (Fin n × α) → Fin n → List (Fin n × α)
  | [], _ => []
  | (k', v) :: rest, k => if k' = k then Sparse.erase rest k else (k', v) :: Sparse.erase rest k

/-- The table with `(k, v)` put before the first greater number. -/
def Sparse.insert (k : Fin n) (v : α) : List (Fin n × α) → List (Fin n × α)
  | [] => [(k, v)]
  | (k', v') :: rest => if k < k' then (k, v) :: (k', v') :: rest else (k', v') :: Sparse.insert k v rest

/-- The table with entry `k` holding `v`; writing the default removes the entry. -/
def Sparse.put [DecidableEq α] (d : α) (t : List (Fin n × α)) (k : Fin n) (v : α) : List (Fin n × α) :=
  if v = d then Sparse.erase t k else Sparse.insert k v (Sparse.erase t k)

/-- The canonical form. -/
def Sparse.wf [DecidableEq α] (d : α) : List (Fin n × α) → Bool
  | [] => true
  | [(_, v)] => decide (v ≠ d)
  | (k, v) :: (k', v') :: rest => decide (v ≠ d ∧ k < k') && Sparse.wf d ((k', v') :: rest)

end Sys2Proof.Machine
end

