-- ==== Sys2Proof/Machine/Ops.lean ====
section
/-! DEFINITION. The operations every block shares: points on the time base (R1), reading the tables, and a step in
progress (`Work`): the state with what the step has still to queue, and the setters that keep the station's mark
(R158) and note the occasions for a release decision (R47). -/

namespace Sys2Proof.Machine

/-! ### The time base (R1) -/

/-- The time elapsed since `start` at `now`: the difference modulo 2^32 read as a signed value (R1). -/
def elapsed (now start : Time) : Int := (now - start).toInt

/-- The point `a` lies before the point `b` (R1). -/
def isBefore (a b : Time) : Bool := decide ((a - b).toInt < 0)

/-- The point `ms` milliseconds after `t`. -/
def later (t : Time) (ms : Nat) : Time := t + BitVec.ofNat 32 ms

/-- A_last with its age bounded: more than 65 536 ms before the present time, it is the present time less 65 536 ms
(R54). -/
def boundedALast (now aLast : Time) : Time :=
  if Config.aLastBound < elapsed now aLast then now - BitVec.ofNat 32 65536 else aLast

/-! ### Reading the state -/

/-- The feeds, pockets and bins in number order. -/
def allFeeds : List FeedId := [0, 1, 2, 3]
def allPockets : List PocketId := [0, 1, 2, 3, 4, 5, 6, 7]
def allBins : List BinId :=
  [0, 1, 2, 3, 4, 5, 6, 7, 8, 9, 10, 11, 12, 13, 14, 15, 16, 17, 18, 19, 20, 21, 22, 23]

/-- The record of pack `h` (R2). -/
def State.pack (s : State) (h : Handle) : PackRec := Sparse.get PackRec.cleared s.reg.packs h

/-- The delivery queue of class `c`, head first (R21). -/
def State.classQueue (s : State) (c : ClassId) : List Handle := Sparse.get [] s.reg.queues c

/-- The handles of the records that are not FREE, in handle order. -/
def State.live (s : State) : List Handle :=
  (s.reg.packs.map Prod.fst).filter fun h => decide ((s.pack h).state ≠ .free)

/-- The class of a student, none where not enrolled (R148). -/
def State.rosterClass (s : State) (st : StudentId) : Option ClassId := Sparse.get none s.tables.roster st

/-- The packs outstanding of job `j` (R3). -/
def State.packsOutstanding (s : State) (j : JobId) : Nat :=
  (s.live.filter fun h => decide ((s.pack h).job = j)).length

/-- The class's bin, read from the Class entry as it stands (R148). -/
def State.binOf (s : State) (h : Handle) : Option BinId := s.tables.classes[(s.pack h).cls].bin

/-- Pack `h` is the head of its class delivery queue (R22). -/
def State.isClassHead (s : State) (h : Handle) : Bool :=
  decide ((s.classQueue (s.pack h).cls).head? = some h)

/-- The order policy of the pack's class (R23). -/
def State.policyOf (s : State) (h : Handle) : OrderPolicy := s.tables.classes[(s.pack h).cls].policy

/-- The run state is HALT (TRANSPORT STOP is asserted, R184). -/
def State.halted (s : State) : Bool :=
  match s.run.state with
  | .halt _ _ => true
  | _ => false

/-- The run state is STARTING. -/
def State.starting (s : State) : Bool :=
  match s.run.state with
  | .starting _ _ => true
  | _ => false

/-- TRANSPORT STOP (R184, R187). -/
def State.transportStop (s : State) : Bool := s.halted

/-- The run state lets the Stapler and the Return Unit start work: neither HALT nor STARTING (R97, R116). -/
def State.mayStart (s : State) : Bool := !s.halted && !s.starting

/-- The run state refuses Sheet Notices and Pack Announces because BYPASS is not left yet: BYPASS, a STOPPING
entered from it, a HALT that returns to it (R16, R30). -/
def State.bypassing (s : State) : Bool :=
  match s.run.state with
  | .bypass => true
  | .stopping .bypass => true
  | .halt _ .bypass => true
  | _ => false

/-- `a` is older than `b`: their announce serials' difference modulo 65536 read as a signed value, the lower handle
where it is exactly 32768 (R4); the lower handle too for equal serials (assumption 18). -/
def olderSerial (sa sb : Half) (a b : Handle) : Bool :=
  if (sa - sb).toInt = -32768 ∨ (sa - sb).toInt = 0 then decide (a < b) else decide ((sa - sb).toInt < 0)

/-- Pack `a` is older than pack `b` (R4). -/
def State.older (s : State) (a b : Handle) : Bool := olderSerial (s.pack a).serial (s.pack b).serial a b

/-- The first of a list under a choice between two, examined in list order. -/
def firstBy {α : Type} (better : α → α → Bool) : List α → Option α
  | [] => none
  | x :: rest => some (rest.foldl (fun best y => if better y best then y else best) x)

/-- Handles put in age order, oldest first. -/
def insertByAge (older : Handle → Handle → Bool) (h : Handle) : List Handle → List Handle
  | [] => [h]
  | k :: rest => if older h k then h :: k :: rest else k :: insertByAge older h rest

/-- Handles in announce order (R115). -/
def sortByAge (older : Handle → Handle → Bool) : List Handle → List Handle
  | [] => []
  | h :: rest => insertByAge older h (sortByAge older rest)

/-! ### A step in progress -/

/-- The Result of the record in hand (R195). -/
structure Reply where
  kind : Byte
  status : Status
  notes : Notes
  data : List Byte
  deriving DecidableEq, Repr

/-- The Result as an outbound record (R194). -/
def Reply.record (r : Reply) : OutRecord := .result r.kind r.status r.notes r.data

/-- What a Start Report carries (R190, R194). -/
structure Report where
  straps : Straps
  kind : ResetKind
  state : RunCode
  deriving DecidableEq, Repr

/-- The Start Report as an outbound record (R194). -/
def Report.record (r : Report) : OutRecord := .startReport r.straps r.kind r.state

/-- The state inside a step, with what the step queues at its end (R172, R180): the event notices in the order
formed, the Drain Completes, the Start Report and the Result; whether an occasion for a release decision has come
(R47); whether the block timer starts again (R63). -/
structure Work extends State where
  notices : List OutRecord
  drains : List Byte
  report : Option Report
  reply : Option Reply
  occasion : Bool
  progress : Bool
  deriving DecidableEq, Repr

/-- A step that has done nothing yet. -/
def Work.of (s : State) : Work :=
  { toState := s, notices := [], drains := [], report := none, reply := none, occasion := false, progress := false }

/-- An occasion for a release decision, where `b` says so (R47). -/
def Work.occasionIf (w : Work) (b : Bool) : Work := { w with occasion := w.occasion || b }

/-- The block timer is to start again from the beginning (R63). -/
def Work.restartTimer (w : Work) : Work := { w with progress := true }

/-- An event notice formed in this step (R173). -/
def Work.notify (w : Work) (r : OutRecord) : Work := { w with notices := w.notices ++ [r] }

/-- A change of entry `e` that clears the station's mark if the mark is on it (R158). -/
def Work.touch (w : Work) (e : EntryRef) : Work :=
  if w.tables.mark = some e then { w with tables := { w.tables with mark := none } } else w

/-- Entry `e` is touched where `b` says so. -/
def Work.touchIf (w : Work) (b : Bool) (e : EntryRef) : Work := if b then w.touch e else w

/-- The Pack Register gives record `h` the contents `r`: a device-made change to the Pack entry, and to the Job entry
when the record enters or leaves FREE (R3); a change of pack state, a restart, which raises the generation (R131), or
the setting of OUT_OF_TURN is an occasion for a release decision (R47). -/
def Work.setPack (w : Work) (h : Handle) (r : PackRec) : Work :=
  let old := w.pack h
  let changed := decide (r ≠ old)
  let wasFree := decide (old.state = .free)
  let isFree := decide (r.state = .free)
  let w1 : Work := { w with reg := { w.reg with packs := Sparse.put PackRec.cleared w.reg.packs h r } }
  let w2 := w1.occasionIf (decide (r.state ≠ old.state) || decide (r.gen ≠ old.gen)
    || (r.flags.outOfTurn && !old.flags.outOfTurn))
  let w3 := w2.touchIf changed (.pack h)
  (w3.touchIf (wasFree && !isFree) (.job r.job)).touchIf (!wasFree && isFree) (.job old.job)

/-- The Pack Register gives class `c` the delivery queue `q`: packs queued is a device-made change to the Class entry
(R3); a change of head is an occasion for a release decision (R47). -/
def Work.setClassQueue (w : Work) (c : ClassId) (q : List Handle) : Work :=
  let old := w.classQueue c
  let w1 : Work := { w with reg := { w.reg with queues := Sparse.put [] w.reg.queues c q } }
  (w1.occasionIf (decide (q.head? ≠ old.head?))).touchIf (decide (q.length ≠ old.length)) (.cls c)

/-- Feed Staging gives feed `f` the record `r`: a change of queue length or of state is a device-made change to the
Feed entry (R42); a change of head, shelf condition, pending discard or state is an occasion for a release decision
(R47). -/
def Work.setFeed (w : Work) (f : FeedId) (r : FeedRec) : Work :=
  let old := w.feeds[f]
  let w1 : Work := { w with feeds := w.feeds.set f r }
  let w2 := w1.occasionIf (decide (r.queue.head? ≠ old.queue.head?) || decide (r.shelf ≠ old.shelf)
    || decide (r.discard ≠ old.discard) || decide (r.state ≠ old.state))
  w2.touchIf (decide (r.queue.length ≠ old.queue.length) || decide (r.state ≠ old.state)) (.feed f)

/-- The two pocket records differ in a field the Pocket bank shows (R70). -/
def PocketRec.shownDiffers (a b : PocketRec) : Bool :=
  decide ({ a with offset := b.offset, purgeStart := b.purgeStart, purgeAllowance := b.purgeAllowance } ≠ b)

/-- The Pocket Controller gives pocket `p` the record `r`: a device-made change to the Pocket entry (R70); a move into
EMPTY and a move into or out of OUT_OF_SERVICE are occasions for a release decision (R72). -/
def Work.setPocket (w : Work) (p : PocketId) (r : PocketRec) : Work :=
  let old := w.pockets[p]
  let w1 : Work := { w with pockets := w.pockets.set p r }
  let w2 := w1.occasionIf ((decide (r.state = .empty) && decide (old.state ≠ .empty))
    || (decide (r.state = .outOfService) != decide (old.state = .outOfService)))
  w2.touchIf (r.shownDiffers old) (.pocket p)

/-- The Return Unit gives bin `b` the record `r`: a change of fill is a device-made change to the Bin entry (R113). -/
def Work.setBin (w : Work) (b : BinId) (r : BinRec) : Work :=
  let old := w.ret.bins[b]
  let w1 : Work := { w with ret := { w.ret with bins := w.ret.bins.set b r } }
  w1.touchIf (decide (r.fill ≠ old.fill)) (.bin b)

/-- Run Control gives the run state; becoming RUN or BYPASS is an occasion for a release decision (R47). -/
def Work.setRunState (w : Work) (st : RunState) : Work :=
  let w1 : Work := { w with run := { w.run with state := st } }
  w1.occasionIf (decide (st ≠ w.run.state) && (decide (st = .run) || decide (st = .bypass)))

/-- The Pack Register's record changes. -/
def Work.setReg (w : Work) (r : PackRegister) : Work := { w with reg := r }

/-- The Merge Arbiter's record changes. -/
def Work.setArb (w : Work) (r : MergeArbiter) : Work := { w with arb := r }

/-- The Stapler's record changes. -/
def Work.setStaplerRec (w : Work) (r : Stapler) : Work := { w with stapler := r }

/-- The Return Unit's record changes. -/
def Work.setRet (w : Work) (r : ReturnUnit) : Work := { w with ret := r }

/-- Drain Completes that the step is to queue (R25). -/
def Work.addDrains (w : Work) (ids : List Byte) : Work := { w with drains := w.drains ++ ids }

/-- The Start Report that the step is to queue (R190). -/
def Work.setReport (w : Work) (r : Report) : Work := { w with report := some r }

/-- The setters applied along a list. -/
def Work.each {α : Type} (w : Work) (f : Work → α → Work) (l : List α) : Work := l.foldl f w

end Sys2Proof.Machine
end

