-- ==== Sys2Proof/Machine/Codes.lean ====
section
/-! DEFINITION. The codes of the enumerated fields (R195, R196), the layouts of the table entries (R197) and of the
outbound records (R194, R195), in bytes. -/

namespace Sys2Proof.Machine

/-- A number sent as one byte (R192). -/
def byteOf (n : Nat) : Byte := BitVec.ofNat 8 n

/-- A number sent as 2 bytes, the less significant first (R192). -/
def bytesOf (n : Nat) : List Byte := [byteOf n, byteOf (n / 256)]

/-- YES or NO sent as 1 or 0 (R192). -/
def boolByte (b : Bool) : Byte := if b then 1 else 0

/-- The run state a record reports (R196). -/
def runCodeOf : RunState → RunCode
  | .starting _ _ => .starting
  | .standby => .standby
  | .run => .run
  | .pause => .pause
  | .stopping _ => .stopping
  | .halt _ _ => .halt
  | .bypass => .bypass

/-- Run state codes (R196). -/
def runCode : RunCode → Byte
  | .starting => 0
  | .standby => 1
  | .run => 2
  | .pause => 3
  | .stopping => 4
  | .halt => 5
  | .bypass => 6

/-- Pack state codes (R196). -/
def packStateCode : PackState → Byte
  | .free => 0
  | .announced => 1
  | .opened => 2
  | .complete => 3
  | .stapling => 4
  | .ready => 5
  | .delivering => 6
  | .restarting => 7
  | .disposing => 8

/-- Pocket state codes (R196). -/
def pocketStateCode : PocketState → Byte
  | .empty => 0
  | .collating => 1
  | .held => 2
  | .stapling => 3
  | .ejecting => 4
  | .purging => 5
  | .outOfService => 6

/-- Pocket purge codes (R196). -/
def purgeCode : PurgeState → Byte
  | .none => 0
  | .pending => 1
  | .running => 2

/-- Out-of-service cause codes (R196). -/
def outCauseCode : OutCause → Byte
  | .none => 0
  | .fault => 1
  | .written => 2

/-- Feed state codes (R196). -/
def feedStateCode : FeedState → Byte
  | .offline => 0
  | .online => 1
  | .faulted => 2

/-- Staple pattern codes (R196). -/
def patternCode : StaplePattern → Byte
  | .none => 0
  | .corner => 1
  | .edgePair => 2

/-- Oversize policy codes (R196). -/
def oversizeCode : OversizePolicy → Byte
  | .split => 0
  | .unstapled => 1
  | .refuse => 2

/-- Staples-out policy codes (R196). -/
def staplesOutCode : StaplesOutPolicy → Byte
  | .hold => 0
  | .deliverUnstapled => 1

/-- Order policy codes (R196). -/
def orderCode : OrderPolicy → Byte
  | .ordered => 0
  | .unordered => 1

/-- Lamp mode codes (R196). -/
def lampCode : LampMode → Byte
  | .auto => 0
  | .on => 1
  | .off => 2
  | .test => 3

/-- Restart cause codes (R196). -/
def restartCauseCode : RestartCause → Byte
  | .missingSheet => 1
  | .mismatch => 2
  | .orderFault => 3
  | .block => 4
  | .resumeFlush => 5
  | .lost => 6

/-- A cause's place in the attention order, counted from 0 (R177). -/
def causeIndex : Cause → Fin 15
  | .stop => 0
  | .jam => 1
  | .mechFault => 2
  | .mismatch => 3
  | .stray => 4
  | .unannounced => 5
  | .linkError => 6
  | .overrun => 7
  | .staplesOut => 8
  | .binFull => 9
  | .staplesLow => 10
  | .restart => 11
  | .abandon => 12
  | .orderBreak => 13
  | .noticeOverflow => 14

/-- The causes in attention order (R177). -/
def allCauses : List Cause :=
  [.stop, .jam, .mechFault, .mismatch, .stray, .unannounced, .linkError, .overrun, .staplesOut, .binFull,
   .staplesLow, .restart, .abandon, .orderBreak, .noticeOverflow]

/-- Attention cause codes: NONE 0, otherwise the cause's order, 1 to 15 (R196). -/
def causeCode : Option Cause → Byte
  | none => 0
  | some c => byteOf ((causeIndex c).val + 1)

/-- Reset kind codes (R196). -/
def resetKindCode : ResetKind → Byte
  | .powerOn => 0
  | .pin => 1
  | .all => 2
  | .work => 3

/-- Rate codes (R196). -/
def rateCode : LineRate → Byte
  | .r38400 => 0
  | .r76800 => 1
  | .r153600 => 2
  | .r307200 => 3

/-- START strap codes (R196). -/
def startCode : StartState → Byte
  | .standby => 0
  | .bypass => 1

/-- Status codes (R195). -/
def statusCode : Status → Byte
  | .accepted => 0
  | .partialRun => 1
  | .wrongState => 2
  | .badValue => 3
  | .badIndex => 4
  | .readOnly => 5
  | .inUse => 6
  | .markLost => 8
  | .groupFull => 9
  | .noGroup => 10
  | .handleInUse => 11
  | .jobClosed => 12
  | .notEnrolled => 13
  | .noBin => 14
  | .tooThick => 15
  | .tooThickToStaple => 16
  | .noSuchPack => 17
  | .tooLate => 18
  | .drainFull => 19
  | .feedOffline => 20
  | .feedFull => 21
  | .badGeneration => 22
  | .lineError => 23
  | .overrun => 24

/-- Break kind codes (R194). -/
def breakCode : BreakKind → Byte
  | .pocket => 1
  | .delivery => 2

/-- The flags byte of a pack (R195). -/
def flagsByte (f : PackFlags) : Byte :=
  byteOf ((if f.outOfTurn then 1 else 0) + (if f.unstapled then 2 else 0) + (if f.partlyStapled then 4 else 0))

/-- The notes byte of a Result (R195). -/
def notesByte (n : Notes) : Byte :=
  byteOf ((if n.clamped then 1 else 0) + (if n.staged then 2 else 0) + (if n.splitLimit then 4 else 0))

/-- A set of indications sent as a number, the first of the list in bit 0 (R195). -/
def bitsOf : List Bool → Nat
  | [] => 0
  | b :: rest => (if b then 1 else 0) + 2 * bitsOf rest

/-- The number of a named thing, 1 and up; 0 for none (R192). -/
def optNumber {n : Nat} : Option (Fin n) → Nat
  | none => 0
  | some k => k.val + 1

/-- The number of a pack handle as a byte. -/
def handleByte (h : Handle) : Byte := byteOf (h.val + 1)

/-! ### Table entries (R197) -/

/-- A Job entry as it is carried (R197). -/
def State.jobBytes (s : State) (j : JobId) : List Byte :=
  let e := s.tables.jobs[j]
  [boolByte e.isOpen, byteOf e.cover.val, byteOf e.body.val, patternCode e.pattern, oversizeCode e.oversize,
   staplesOutCode e.staplesOut, byteOf (s.packsOutstanding j)]

/-- A Class entry as it is carried (R197). -/
def State.classBytes (s : State) (c : ClassId) : List Byte :=
  let e := s.tables.classes[c]
  [byteOf (optNumber e.bin), orderCode e.policy, byteOf (s.classQueue c).length]

/-- A Feed entry as it is carried (R42, R197). -/
def State.feedBytes (s : State) (f : FeedId) : List Byte :=
  let r := s.feeds[f]
  feedStateCode r.state :: (bytesOf s.tables.travel[f] ++ [byteOf r.queue.length])

/-- A Bin entry as it is carried (R113, R197). -/
def State.binBytes (s : State) (b : BinId) : List Byte :=
  let r := s.ret.bins[b]
  bytesOf r.capacity ++ [boolByte r.inService, lampCode r.lampMode] ++ bytesOf r.fill

/-- The Settings entry as it is carried (R151, R197). -/
def State.settingsBytes (s : State) : List Byte :=
  let v := s.tables.settings
  bytesOf v.stapleMax ++ bytesOf v.pocketMax ++ bytesOf v.pitch ++ bytesOf v.lateTol
    ++ [byteOf v.blockTime, byteOf v.restartLimit, byteOf v.holdHigh, byteOf v.holdLow, byteOf v.pocketsInService]
    ++ bytesOf v.cartridgeSize ++ bytesOf v.staplesLow ++ bytesOf v.mechTimeout ++ bytesOf v.noticeWait
    ++ bytesOf s.stapler.remaining

/-- A Pack entry as it is carried (R3, R197); a FREE record shows every field as 0. -/
def PackRec.bytes (r : PackRec) : List Byte :=
  let shown : Bool := decide (r.state ≠ .free)
  let number (n : Nat) : Nat := if shown then n else 0
  let ends := r.snap.plan.ends
  [packStateCode r.state, byteOf (number (r.job.val + 1))] ++ bytesOf (number r.student.val)
    ++ [byteOf (number (r.cls.val + 1)), byteOf r.pages] ++ bytesOf r.serial.toNat
    ++ [byteOf r.gen, byteOf r.released, byteOf r.received, byteOf (optNumber r.pocket)]
    ++ bytesOf r.snap.cover ++ bytesOf r.snap.body
    ++ [patternCode r.snap.pattern, staplesOutCode r.snap.staplesOut, boolByte r.snap.plan.stapled,
        byteOf ends.length, byteOf (ends.getD 0 0), byteOf (ends.getD 1 0), byteOf (ends.getD 2 0),
        byteOf (ends.getD 3 0)]
    ++ bytesOf r.total ++ [byteOf r.units, flagsByte r.flags]

/-- A Pocket entry as it is carried (R70, R197). -/
def PocketRec.bytes (r : PocketRec) : List Byte :=
  [pocketStateCode r.state, byteOf (optNumber r.pack), byteOf r.sheets] ++ bytesOf r.thickness
    ++ [byteOf r.volume, purgeCode r.purge, boolByte (decide (r.state ≠ .outOfService)), outCauseCode r.cause]

/-- An entry as it stands, read-only fields included, in the layout of R197. -/
def State.entryBytes (s : State) : EntryRef → List Byte
  | .job j => s.jobBytes j
  | .cls c => s.classBytes c
  | .roster st => [byteOf (optNumber (s.rosterClass st))]
  | .media m => bytesOf s.tables.media[m]
  | .feed f => s.feedBytes f
  | .bin b => s.binBytes b
  | .settings => s.settingsBytes
  | .mask => s.tables.masks.toList.map boolByte
  | .pack h => (s.pack h).bytes
  | .pocket p => s.pockets[p].bytes

/-- The entry a bank number and an index name (R145). -/
def refAt (bank index : Nat) : Option EntryRef :=
  match bank with
  | 1 => if h : 1 ≤ index ∧ index - 1 < 32 then some (.job ⟨index - 1, h.2⟩) else none
  | 2 => if h : 1 ≤ index ∧ index - 1 < 48 then some (.cls ⟨index - 1, h.2⟩) else none
  | 3 => if h : index < 1024 then some (.roster ⟨index, h⟩) else none
  | 4 => if h : index < 8 then some (.media ⟨index, h⟩) else none
  | 5 => if h : 1 ≤ index ∧ index - 1 < 4 then some (.feed ⟨index - 1, h.2⟩) else none
  | 6 => if h : 1 ≤ index ∧ index - 1 < 24 then some (.bin ⟨index - 1, h.2⟩) else none
  | 7 => if index = 1 then some .settings else none
  | 8 => if index = 1 then some .mask else none
  | 9 => if h : 1 ≤ index ∧ index - 1 < 255 then some (.pack ⟨index - 1, h.2⟩) else none
  | 10 => if h : 1 ≤ index ∧ index - 1 < 8 then some (.pocket ⟨index - 1, h.2⟩) else none
  | _ => none

/-- The entries of a bank from an index onward, at most `count` of them, ending at the bank's end, each with its
index. -/
def refsFrom (bank : Nat) : Nat → Nat → List (Nat × EntryRef)
  | _, 0 => []
  | index, count + 1 =>
    match refAt bank index with
    | none => []
    | some r => (index, r) :: refsFrom bank (index + 1) count

/-! ### Outbound records (R194) -/

/-- The kind code of an outbound record (R194). -/
def OutRecord.kindCode : OutRecord → Byte
  | .result _ _ _ _ => 0x21
  | .reprintRequest _ _ _ => 0x22
  | .packDelivered _ _ _ _ => 0x23
  | .packAbandoned _ _ => 0x24
  | .orderBreak _ _ _ => 0x25
  | .attention _ => 0x26
  | .drainComplete _ => 0x27
  | .startReport _ _ _ => 0x28

/-- The payload of an outbound record (R194). -/
def OutRecord.payload : OutRecord → List Byte
  | .result kind status notes data => kind :: statusCode status :: notesByte notes :: data
  | .reprintRequest h gen cause => [handleByte h, byteOf gen, restartCauseCode cause]
  | .packDelivered h bin flags volumes =>
    [handleByte h, byteOf (bin.val + 1), flagsByte flags, byteOf volumes]
  | .packAbandoned h cause => [handleByte h, restartCauseCode cause]
  | .orderBreak h cls kind => [handleByte h, byteOf (cls.val + 1), breakCode kind]
  | .attention top => [causeCode top]
  | .drainComplete id => [id]
  | .startReport straps kind state =>
    [byteOf (straps.station.val + 1), rateCode straps.rate, startCode straps.start, resetKindCode kind,
     runCode state]

/-- The characters an outbound record is sent as: a control character with the station address, then the kind, the
length and the payload (R174). -/
def OutRecord.characters (station : Fin 4) (r : OutRecord) : List LineChar :=
  ⟨true, byteOf (station.val + 1)⟩
    :: (r.kindCode :: byteOf r.payload.length :: r.payload).map (fun d => ⟨false, d⟩)

/-- An event notice (R173). -/
def OutRecord.isNotice : OutRecord → Bool
  | .reprintRequest _ _ _ => true
  | .packDelivered _ _ _ _ => true
  | .packAbandoned _ _ => true
  | .orderBreak _ _ _ => true
  | .attention _ => true
  | .result _ _ _ _ => false
  | .drainComplete _ => false
  | .startReport _ _ _ => false

/-- The character of a pacing character due (R170). -/
def Pacing.character : Pacing → LineChar
  | .hold => ⟨true, 0xF0⟩
  | .resume => ⟨true, 0xF1⟩

end Sys2Proof.Machine
end

