-- ==== Sys2Proof/Machine/Operands.lean ====
section
/-! DEFINITION. Reading the operands of the sheet link's commands: names that a byte gives (R145, R192), the bytes of a
table entry (R197), which codes are defined (R154 check 6) and the clamping of quantities (R145, R151). -/

namespace Sys2Proof.Machine

/-! ### Names and numbers -/

/-- The thing a number from 1 names, none for 0 and for a number that names nothing. -/
def named (n : Nat) (k : Nat) : Option (Fin n) :=
  if h : 1 ≤ k ∧ k - 1 < n then some ⟨k - 1, h.2⟩ else none

/-- The thing a number from 0 names, none for a number that names nothing. -/
def namedFromZero (n : Nat) (k : Nat) : Option (Fin n) := if h : k < n then some ⟨k, h⟩ else none

/-- The byte at position `i` of an entry, as a number. -/
def byteAt (l : List Byte) (i : Nat) : Nat := (l.getD i 0).toNat

/-- The 2-byte field at position `i` of an entry, the less significant byte first (R192). -/
def halfAt (l : List Byte) (i : Nat) : Nat := byteAt l i + 256 * byteAt l (i + 1)

/-- A quantity brought to the nearer end of its range (R145). -/
def clamp (lo hi n : Nat) : Nat := if n < lo then lo else if hi < n then hi else n

/-! ### Codes that a writer gives (R196); a code the field does not define reads as the first value, and is refused by
`codesDefined` before the value is used. -/

/-- The staple pattern of a code. -/
def patternOf : Nat → StaplePattern
  | 1 => .corner
  | 2 => .edgePair
  | _ => .none

/-- The oversize policy of a code. -/
def oversizeOf : Nat → OversizePolicy
  | 1 => .unstapled
  | 2 => .refuse
  | _ => .split

/-- The staples-out policy of a code. -/
def staplesOutOf : Nat → StaplesOutPolicy
  | 1 => .deliverUnstapled
  | _ => .hold

/-- The order policy of a code. -/
def orderOf : Nat → OrderPolicy
  | 1 => .unordered
  | _ => .ordered

/-- The feed state of a code a writer may give (R34). -/
def feedStateOf : Nat → FeedState
  | 1 => .online
  | _ => .offline

/-- The lamp mode of a code. -/
def lampOf : Nat → LampMode
  | 1 => .on
  | 2 => .off
  | 3 => .test
  | _ => .auto

/-! ### Entries -/

/-- The Settings entry's writable fields as they came, in the layout of R197. -/
def settingsOf (l : List Byte) : Settings :=
  { stapleMax := halfAt l 0, pocketMax := halfAt l 2, pitch := halfAt l 4, lateTol := halfAt l 6
    blockTime := byteAt l 8, restartLimit := byteAt l 9, holdHigh := byteAt l 10, holdLow := byteAt l 11
    pocketsInService := byteAt l 12, cartridgeSize := halfAt l 13, staplesLow := halfAt l 15
    mechTimeout := halfAt l 17, noticeWait := halfAt l 19 }

/-- The writable fields of an entry as they came, in the layout of R197; read-only fields are passed over (R145). -/
def readEntry (r : EntryRef) (l : List Byte) : Entry :=
  match r with
  | .job _ =>
    .job { isOpen := decide (byteAt l 0 = 1), cover := Fin.ofNat 8 (byteAt l 1), body := Fin.ofNat 8 (byteAt l 2)
           pattern := patternOf (byteAt l 3), oversize := oversizeOf (byteAt l 4)
           staplesOut := staplesOutOf (byteAt l 5) }
  | .cls _ => .cls { bin := named 24 (byteAt l 0), policy := orderOf (byteAt l 1) }
  | .roster _ => .roster (named 48 (byteAt l 0))
  | .media _ => .media (halfAt l 0)
  | .feed _ => .feed (feedStateOf (byteAt l 0)) (halfAt l 1)
  | .bin _ => .bin (halfAt l 0) (decide (byteAt l 2 = 1)) (lampOf (byteAt l 3))
  | .settings => .settings (settingsOf l)
  | .mask => .mask (Vector.ofFn fun i : Fin 15 => decide (byteAt l i.val = 1))
  | .pocket _ => .pocket (decide (byteAt l 7 = 1))
  | .pack _ => .media 0

/-- Each code field of the entry is a code the field defines (R154 check 6, R34, R91, R113). -/
def codesDefined (r : EntryRef) (l : List Byte) : Bool :=
  match r with
  | .job _ => decide (byteAt l 0 ≤ 1 ∧ byteAt l 1 ≤ 7 ∧ byteAt l 2 ≤ 7 ∧ byteAt l 3 ≤ 2 ∧ byteAt l 4 ≤ 2
      ∧ byteAt l 5 ≤ 1)
  | .cls _ => decide (byteAt l 0 ≤ 24 ∧ byteAt l 1 ≤ 1)
  | .roster _ => decide (byteAt l 0 ≤ 48)
  | .media _ => true
  | .feed _ => decide (byteAt l 0 ≤ 1)
  | .bin _ => decide (byteAt l 2 ≤ 1 ∧ byteAt l 3 ≤ 3)
  | .settings => true
  | .mask => (List.range 15).all fun i => decide (byteAt l i ≤ 1)
  | .pocket _ => decide (byteAt l 7 ≤ 1)
  | .pack _ => true

/-- The settings clamped to their ranges; a HOLD_LOW then at or above HOLD_HIGH is set to HOLD_HIGH less 1 (R151). -/
def Settings.clamp (v : Settings) : Settings :=
  let high := Machine.clamp 2 32 v.holdHigh
  let low := Machine.clamp 0 31 v.holdLow
  { stapleMax := Machine.clamp 1000 8000 v.stapleMax
    pocketMax := Machine.clamp 2000 20000 v.pocketMax
    pitch := Machine.clamp 200 2000 v.pitch
    lateTol := Machine.clamp 50 1000 v.lateTol
    blockTime := Machine.clamp 2 60 v.blockTime
    restartLimit := Machine.clamp 1 3 v.restartLimit
    holdHigh := high
    holdLow := if high ≤ low then high - 1 else low
    pocketsInService := Machine.clamp 2 8 v.pocketsInService
    cartridgeSize := Machine.clamp 500 5000 v.cartridgeSize
    staplesLow := Machine.clamp 0 1000 v.staplesLow
    mechTimeout := Machine.clamp 1000 10000 v.mechTimeout
    noticeWait := Machine.clamp 500 5000 v.noticeWait }

/-- The quantities of an entry clamped to their ranges (R113, R145, R149, R150, R151). -/
def Entry.clamp : Entry → Entry
  | .media t => .media (Machine.clamp 40 600 t)
  | .feed st travel => .feed st (Machine.clamp 300 6000 travel)
  | .bin capacity inService mode => .bin (Machine.clamp 100 1500 capacity) inService mode
  | .settings v => .settings v.clamp
  | .job e => .job e
  | .cls e => .cls e
  | .roster c => .roster c
  | .mask m => .mask m
  | .pocket b => .pocket b

/-- One entry of a write: what is to be written at which index, whether its codes are defined, whether a quantity was
clamped. -/
structure WriteItem where
  write : Staged
  defined : Bool
  clamped : Bool
  deriving DecidableEq, Repr

/-- The entry write that the bytes `l` at index `index` ask for. -/
def writeItem (index : Nat) (r : EntryRef) (l : List Byte) : WriteItem :=
  let raw := readEntry r l
  { write := ⟨r, index, raw.clamp⟩, defined := codesDefined r l, clamped := decide (raw.clamp ≠ raw) }

/-- The first `n` entries of `size` bytes each. -/
def chunks (size : Nat) : Nat → List Byte → List (List Byte)
  | 0, _ => []
  | n + 1, l => l.take size :: chunks size n (l.drop size)

/-- The entry writes of a Table Write of `n` entries that lie within the bank (R154, R155). -/
def writeItems (bank index n : Nat) (entries : List Byte) : List WriteItem :=
  ((refsFrom bank index n).zip (chunks (bankEntrySize bank) n entries)).map fun x => writeItem x.1.1 x.1.2 x.2

/-- The entries come to at least one whole entry, to a whole number of them, and to no more than the bank's limit
(R154 check 4, R192). -/
def countSuits (bank : Nat) (entries : List Byte) : Bool :=
  let n := entries.length / bankEntrySize bank
  decide (1 ≤ n ∧ entries.length % bankEntrySize bank = 0 ∧ n ≤ bankWriteLimit bank)

end Sys2Proof.Machine
end

