-- ==== Sys2Proof/Machine/Eligibility.lean ====
section
/-! DEFINITION. When a finished pack may be delivered: the in-turn test (R23), the three conditions of eligibility and
waiting for room (R114), and joining the delivery queue (R115). -/

namespace Sys2Proof.Machine

/-- A READY pack is in turn: under UNORDERED always; under ORDERED if it is the head of its class queue or flagged
OUT_OF_TURN. A pack that is not READY is never in turn (R23). -/
def State.inTurn (s : State) (h : Handle) : Bool :=
  decide ((s.pack h).state = .ready)
    && (decide (s.policyOf h = .unordered) || s.isClassHead h || (s.pack h).flags.outOfTurn)

/-- The pack's class's bin, if it is not 0 and is in service (R114). -/
def State.servingBin (s : State) (h : Handle) : Option BinId :=
  match s.binOf h with
  | none => none
  | some b => if s.ret.bins[b].inService then some b else none

/-- The bin has room for the pack: its fill plus the pack's bin units is at most its capacity (R114). -/
def State.hasRoom (s : State) (h : Handle) (b : BinId) : Bool :=
  decide (s.ret.bins[b].fill + (s.pack h).units ≤ s.ret.bins[b].capacity)

/-- Pack `h` is eligible for delivery (R114). -/
def State.eligible (s : State) (h : Handle) : Bool :=
  s.inTurn h && match s.servingBin h with
    | none => false
    | some b => s.hasRoom h b

/-- Pack `h` is waiting for room in bin `b`: it meets the first two conditions and fails the third (R114). -/
def State.waitingIn (s : State) (h : Handle) (b : BinId) : Bool :=
  s.inTurn h && decide (s.servingBin h = some b) && !s.hasRoom h b

/-- Pack `h` is waiting for room in its bin (R114). -/
def State.waitingForRoom (s : State) (h : Handle) : Bool :=
  match s.servingBin h with
  | none => false
  | some b => s.waitingIn h b

/-- The packs waiting for room. -/
def State.waitingPacks (s : State) : List Handle := s.live.filter s.waitingForRoom

/-- The READY packs that have become eligible join the tail of the delivery queue, in announce order, each at most
once (R115). -/
def Work.judge (w : Work) : Work :=
  let joining := sortByAge w.older (w.live.filter fun h => w.eligible h && !w.ret.queue.contains h)
  w.setRet { w.ret with queue := w.ret.queue ++ joining }

end Sys2Proof.Machine
end

