-- ==== Sys2Proof/Machine/Flags.lean ====
section
/-! DEFINITION. The attention causes: setting a latch (R177), the top cause (R178), the live conditions (R181), the
ATTENTION output (R179), and what a Status Read clears (R182). -/

namespace Sys2Proof.Machine

/-- The latch of a cause is set (R177). -/
def Work.latch (w : Work) (c : Cause) : Work :=
  { w with attn := { w.attn with latches := w.attn.latches.set (causeIndex c) true } }

/-- The latch of cause `c` is set. -/
def State.latched (s : State) (c : Cause) : Bool := s.attn.latches[causeIndex c]

/-- Cause `c` is MASKED (R153). -/
def State.masked (s : State) (c : Cause) : Bool := s.tables.masks[causeIndex c]

/-- The top cause: the first set, unmasked latch in attention order (R178). -/
def State.topCause (s : State) : Option Cause := allCauses.find? fun c => s.latched c && !s.masked c

/-- The ATTENTION output is to be asserted: some latch is set and unmasked (R179). -/
def State.attentionDue (s : State) : Bool := allCauses.any fun c => s.latched c && !s.masked c

/-- The live condition of a cause; nine causes have none (R181). -/
def State.liveCondition (s : State) : Cause → Bool
  | .stop => !s.pins.stopHigh || (match s.run.state with
    | .halt .stop _ => true
    | _ => false)
  | .jam => match s.run.state with
    | .halt .jam _ => true
    | _ => false
  | .mechFault => decide (s.stapler.state = .faulted) || decide (s.ret.state = .faulted)
      || allPockets.any fun p => decide (s.pockets[p].state = .outOfService ∧ s.pockets[p].cause = .fault)
  | .staplesOut => decide (s.stapler.state = .waitingCartridge)
  | .binFull => !s.waitingPacks.isEmpty
  | .staplesLow => decide (s.stapler.remaining ≤ s.tables.settings.staplesLow)
  | .mismatch => false
  | .stray => false
  | .unannounced => false
  | .linkError => false
  | .overrun => false
  | .restart => false
  | .abandon => false
  | .orderBreak => false
  | .noticeOverflow => false

/-- The causes that have a live condition, in the order of the live-condition byte (R181, R195). -/
def liveCauses : List Cause := [.stop, .jam, .mechFault, .staplesOut, .binFull, .staplesLow]

/-- What a Status Read returns: top cause, latch set, live conditions, ATTENTION, run state, staples remaining
(R182, R195). -/
def State.statusBytes (s : State) : List Byte :=
  causeCode s.topCause :: bytesOf (bitsOf (allCauses.map s.latched))
    ++ [byteOf (bitsOf (liveCauses.map s.liveCondition)), boolByte s.attn.output, runCode (runCodeOf s.run.state)]
    ++ bytesOf s.stapler.remaining

/-- Every set latch whose live condition is absent is cleared (R182). -/
def Work.clearLatches (w : Work) : Work :=
  { w with attn := { w.attn with
      latches := allCauses.foldl (fun v c => if w.liveCondition c then v else v.set (causeIndex c) false)
        w.attn.latches } }

/-- STAPLES_LOW is latched where staples remaining is at or below the setting (R104). -/
def Work.judgeStaples (w : Work) : Work :=
  if w.stapler.remaining ≤ w.tables.settings.staplesLow then w.latch .staplesLow else w

end Sys2Proof.Machine
end

