-- ==== Sys2Proof/Machine/Link.lean ====
section
/-! DEFINITION. The Link Port: the receiver (R165 to R168), the inbound queue and HOLD (R169, R170), the outbound queue
and the held list (R173), the reply line (R174, R175), and the end of every step, which queues what the step formed
in the order R172 and R180 give. -/

namespace Sys2Proof.Machine

/-! ### HOLD (R170) -/

/-- The HOLD state changes to `on`: a pacing character becomes due, or the one due is withdrawn (R170). -/
def LinkPort.setHold (l : LinkPort) (on : Bool) : LinkPort :=
  { l with
    hold := on
    pacing := match l.pacing with
      | none => some (if on then .hold else .resume)
      | some _ => none }

/-- A record has joined: the HOLD state goes on at HOLD_HIGH or more (R170). -/
def LinkPort.judgeJoin (l : LinkPort) (v : Settings) : LinkPort :=
  if !l.hold && decide (v.holdHigh ≤ l.inbound.length) then l.setHold true else l

/-- A record has been taken: the HOLD state goes off at HOLD_LOW or less (R170). -/
def LinkPort.judgeTake (l : LinkPort) (v : Settings) : LinkPort :=
  if l.hold && decide (l.inbound.length ≤ v.holdLow) then l.setHold false else l

/-- A write of the pair is judged at once against the present count (R170). -/
def LinkPort.judgeWrite (l : LinkPort) (v : Settings) : LinkPort :=
  if l.hold then l.judgeTake v else l.judgeJoin v

/-! ### The outbound queue (R173) -/

/-- A kept record would join the tail of the outbound queue (R173). -/
def LinkPort.hasRoom (l : LinkPort) : Bool :=
  decide (l.outbound.length < Config.outboundSize) && l.held.isEmpty

/-- An event notice would join (R173). -/
def LinkPort.hasNoticeRoom (l : LinkPort) : Bool :=
  l.hasRoom && decide ((l.outbound.filter OutRecord.isNotice).length < Config.noticeLimit)

/-- A kept record joins the outbound queue, or the held list (R173). -/
def LinkPort.keep (l : LinkPort) (r : OutRecord) : LinkPort :=
  if l.hasRoom then { l with outbound := l.outbound ++ [r] } else { l with held := l.held ++ [r] }

/-- An event notice joins, or is discarded with NOTICE_OVERFLOW latched (R173). -/
def Work.sendNotice (w : Work) (r : OutRecord) : Work :=
  if w.link.hasNoticeRoom then { w with link := { w.link with outbound := w.link.outbound ++ [r] } }
  else w.latch .noticeOverflow

/-- A LINE_ERROR or OVERRUN Result formed by the receiver joins as it is formed, or is not formed (R172, R173,
assumption 8). -/
def Work.receiverResult (w : Work) (kind : Byte) (status : Status) : Work :=
  if w.link.hasRoom then
    { w with link := { w.link with outbound := w.link.outbound ++ [.result kind status {} []] } }
  else w

/-- The characters of the record begun on the reply line that have not been sent yet (R174). -/
def LinkPort.left (l : LinkPort) (station : Fin 4) : List LineChar :=
  match l.sending, l.outbound with
  | some n, r :: _ => (r.characters station).drop n
  | _, _ => []

/-- The last character of the head of the outbound queue has been sent, after those that were left before it; its place
goes to the head of the held list (R173, R174). -/
def LinkPort.recordSent (l : LinkPort) (station : Fin 4) : LinkPort :=
  let l1 : LinkPort := { l with sending := none, line := l.left station, stalled := false }
  let rest := l.outbound.tail
  match l.held with
  | [] => { l1 with outbound := rest }
  | r :: held => { l1 with outbound := rest ++ [r], held := held }

/-- How many characters of the record begun have gone out since the last character boundary, its last one never among
them: none where a pacing character or an echo has waited since then, else a free value (R174, assumption 9). -/
def LinkPort.gone (l : LinkPort) (station : Fin 4) (now : Time) : List LineChar :=
  if l.stalled then [] else
    let left := l.left station
    left.take (Config.charactersGone now.toNat l.boundaries % left.length)

/-- A pacing character is due or an echo waits, which goes ahead of any record character (R174). -/
def LinkPort.waits (l : LinkPort) : Bool := l.pacing.isSome || !l.echoes.isEmpty

/-- A pacing character or an echo is sent at a character boundary; it may fall between two characters of the record
begun (R170, R174). `l` is the port with the character taken from where it waited. -/
def LinkPort.sendAside (l : LinkPort) (station : Fin 4) (now : Time) (c : LineChar) : LinkPort :=
  let gone := l.gone station now
  { l with
    sending := l.sending.map fun n => n + gone.length
    line := gone ++ [c]
    stalled := true
    boundaries := l.boundaries + 1 }

/-- At a character boundary with no pacing character due and no echo waiting, the record characters go on, and the head
record is begun where none is (R174, assumption 9). -/
def LinkPort.boundary (l : LinkPort) : LinkPort :=
  if l.waits then l
  else { l with
    stalled := false
    sending := if l.outbound.isEmpty then l.sending else some (l.sending.getD 0) }

/-! ### The end of a step (R172, R180) -/

/-- The ATTENTION output takes a level. -/
def Work.setOutput (w : Work) (b : Bool) : Work := { w with attn := { w.attn with output := b } }

/-- The ATTENTION output is judged; going asserted it queues one Attention notice with the top cause
(R179, R180). -/
def Work.judgeAttention (w : Work) : Work :=
  if w.attentionDue && !w.attn.output then (w.setOutput true).sendNotice (.attention w.topCause)
  else w.setOutput w.attentionDue

/-- A kept record, where there is one, is queued. -/
def Work.keepOpt (w : Work) : Option OutRecord → Work
  | none => w
  | some r => { w with link := w.link.keep r }

/-- The event notices are queued, in the order formed. -/
def Work.sendNotices (w : Work) : Work := w.notices.foldl Work.sendNotice w

/-- The Drain Completes are queued, in the order formed. -/
def Work.keepDrains (w : Work) : Work :=
  w.drains.foldl (fun x id => x.keepOpt (some (.drainComplete id))) w

/-- What the step formed is queued: event notices, the Attention notice, the Result, the Drain Completes and the Start
Report, in that order (R172, R180, R190, assumption 8). -/
def Work.queued (w : Work) : Work :=
  ((w.sendNotices.judgeAttention.keepOpt (w.reply.map Reply.record)).keepDrains).keepOpt (w.report.map Report.record)

/-- The end of a step: what it formed is queued, and the reply line goes on (R174). -/
def Work.finish (w : Work) : State := { w.queued.toState with link := w.queued.link.boundary }

/-- The Result of the record in hand (R195). -/
def Work.answer (w : Work) (kind : Byte) (status : Status) (data : List Byte := []) (notes : Notes := {}) : Work :=
  { w with reply := some ⟨kind, status, notes, data⟩ }

/-! ### The inbound queue and the Record Handler (R169, R171) -/

/-- A completed record joins the inbound queue, or is dropped with OVERRUN (R169). -/
def Work.offer (w : Work) (r : Record) : Work :=
  if w.link.inbound.length < Config.inboundSize then
    { w with link := LinkPort.judgeJoin { w.link with inbound := w.link.inbound ++ [r] } w.tables.settings }
  else
    let w1 := w.latch .overrun
    if r.bcast then w1 else w1.receiverResult r.kind .overrun

/-- The Record Handler may take a record: not in STARTING, the held list empty, a free outbound place (R171). -/
def State.handlerReady (s : State) : Bool :=
  !s.starting && s.link.held.isEmpty && decide (s.link.outbound.length < Config.outboundSize)

/-- The head record leaves the inbound queue (R170, R171). -/
def State.dequeue (s : State) : State :=
  { s with link := LinkPort.judgeTake { s.link with inbound := s.link.inbound.tail } s.tables.settings }

/-- What the Record Handler does with the record it takes: discarded in loopback unless it is Control (R175);
discarded if it came broadcast and is neither Control nor Table Write (R167); otherwise passed to the block that owns
its subject, whose Result is not sent for a broadcast (R172). -/
def handleRecord (r : Record) (body : Work → Work) (w : Work) : Work :=
  if w.link.loopback && decide (r.kind ≠ kindControl) then w
  else if r.bcast && decide (r.kind ≠ kindControl) && decide (r.kind ≠ kindTableWrite) then w
  else if r.bcast then { body w with reply := none }
  else body w

/-- The echo of a character received in loopback, unless 32 wait already (R175). -/
def LinkPort.echo (l : LinkPort) (c : LineChar) : LinkPort :=
  if l.loopback && decide (l.echoes.length < Config.echoLimit) then { l with echoes := l.echoes ++ [c] } else l

/-- The receiver has just taken the last character of record `r`: it is echoed in loopback (R175), and the receiver goes
WAITING (R166). -/
def State.completed (s : State) (r : Record) : State :=
  { s with link := { s.link.echo ⟨false, r.payload.getLastD 0⟩ with receiver := .waiting } }

/-- A command of the sheet link (assumption 4). Where the record stands at the head of the inbound queue, this is the
Record Handler taking it, or leaving it there while it may take none (R171). Where it does not, the record has just
been completed: taken in the same step if nothing is ahead of it and the handler may take one, else it joins the
inbound queue (R169) and waits. -/
def State.takeRecord (s : State) (r : Record) (body : Work → Work) : State :=
  if s.link.inbound.head? = some r then
    if s.handlerReady then (handleRecord r body (Work.of s.dequeue)).finish else s
  else if s.link.inbound.isEmpty && s.handlerReady then (handleRecord r body (Work.of (s.completed r))).finish
  else ((Work.of (s.completed r)).offer r).finish

/-! ### The receiver (R165 to R168) -/

/-- The receiver's state changes. -/
def Work.setReceiver (w : Work) (r : Receiver) : Work := { w with link := { w.link with receiver := r } }

/-- A spoiled record: LINK_ERROR is latched, the partial record discarded, and a LINE_ERROR Result formed if it was
addressed to this station (R168). -/
def Work.spoil (w : Work) : Work :=
  let w1 := w.latch .linkError
  match w.link.receiver with
  | .assembling false got => (w1.receiverResult (got.headD 0) .lineError).setReceiver .waiting
  | _ => w1.setReceiver .waiting

/-- An address character starts a record (R166): this station's and the broadcast address are assembled, another
station's skipped. -/
def Work.takeAddress (w : Work) (address : Nat) : Work :=
  if address = 0 then w.setReceiver (.assembling true [])
  else if address = w.run.straps.station.val + 1 then w.setReceiver (.assembling false [])
  else w.setReceiver .skipping

/-- The receiver is in the middle of a record of its own or a broadcast. -/
def Receiver.isAssembling : Receiver → Bool
  | .assembling _ _ => true
  | _ => false

/-- A sound data character: the kind, the length, or a payload character (R166); a length above 60 spoils the record
(R168); the last character offers the record to the inbound queue (R169). -/
def Work.takeData (w : Work) (d : Byte) : Work :=
  match w.link.receiver with
  | .assembling bc [] => w.setReceiver (.assembling bc [d])
  | .assembling bc [kind] =>
    if Config.payloadLimit < d.toNat then w.spoil
    else if d.toNat = 0 then (w.setReceiver .waiting).offer ⟨bc, kind, []⟩
    else w.setReceiver (.assembling bc [kind, d])
  | .assembling bc (kind :: length :: payload) =>
    if payload.length + 1 = length.toNat then (w.setReceiver .waiting).offer ⟨bc, kind, payload ++ [d]⟩
    else w.setReceiver (.assembling bc (kind :: length :: (payload ++ [d])))
  | _ => w

/-- The receiver takes a character on the inbound line that is not STOP: it is echoed in loopback (R175); a character
with a parity or framing error spoils whatever the receiver was doing (R168); an address (0 to 4) or an undefined
control truncates a record being assembled (R165, R168, assumption 17). -/
def Work.receive (w0 : Work) (sound mark : Bool) (d : Byte) : Work :=
  let w : Work := { w0 with link := w0.link.echo ⟨mark, d⟩ }
  if !sound then w.spoil
  else if !mark then w.takeData d
  else
    let w1 := if w.link.receiver.isAssembling then w.spoil else w
    if d.toNat ≤ 4 then w1.takeAddress d.toNat else w1

end Sys2Proof.Machine
end

