-- ==== Sys2Proof/Machine/Pockets.lean ====
section
/-! DEFINITION. The Pocket Controller: availability and the offer (R71, R73), taking a pocket (R74), the building of a
stack (R75 to R77), volumes presented (R78), ejecting (R79), purges (R86 to R90). -/

namespace Sys2Proof.Machine

/-- Pocket `p` is available: its number is at most POCKETS_IN_SERVICE and it is not OUT_OF_SERVICE (R71). -/
def State.available (s : State) (p : PocketId) : Bool :=
  decide (p.val + 1 ≤ s.tables.settings.pocketsInService) && decide (s.pockets[p].state ≠ .outOfService)

/-- The available EMPTY pockets in number order (R73). -/
def State.emptyPockets (s : State) : List PocketId :=
  allPockets.filter fun p => s.available p && decide (s.pockets[p].state = .empty)

/-- The offer to page 1 of the ANNOUNCED pack `h` under the reserve rule (R50, R73). -/
def State.offer (s : State) (h : Handle) : Option PocketId :=
  match s.emptyPockets with
  | [] => none
  | [p] =>
    if s.isClassHead h || decide (s.policyOf h = .unordered) || decide (s.arb.pick.map Prod.snd = some h) then some p
    else none
  | p :: _ :: _ => some p

/-- The contents of a pocket that goes EMPTY (R79, R88). -/
def PocketRec.emptied (r : PocketRec) : PocketRec :=
  { r with state := .empty, pack := none, sheets := 0, thickness := 0, volume := 0, purge := .none, cause := .none,
           offset := false }

/-- The pocket is taken at the release of page 1 (R74). -/
def Work.openPocket (w : Work) (p : PocketId) (h : Handle) : Work :=
  w.setPocket p { w.pockets[p] with
    state := .collating, pack := some h, sheets := 0, thickness := 0, volume := 1, offset := false }

/-- Even-numbered volumes are laid and presented at the offset position (R76, R78). -/
def evenVolume (v : Nat) : Bool := decide (v % 2 = 0)

/-- A sheet joins the stack as page `k`, the new value of sheets held: its snapshot thickness is added (R75); the end
of a volume that is not the plan's last moves the volume index on (R76); the last page makes the pocket HELD (R77). -/
def PocketRec.admitted (r : PocketRec) (pack : PackRec) : PocketRec :=
  let k := r.sheets + 1
  let t := r.thickness + (if k = 1 then pack.snap.cover else pack.snap.body)
  let ends := pack.snap.plan.ends
  let r1 : PocketRec := { r with sheets := k, thickness := t }
  if k = pack.pages then { r1 with state := .held, volume := ends.length, offset := false }
  else if r.volume < ends.length ∧ ends[r.volume - 1]? = some k then
    { r1 with volume := r.volume + 1, offset := evenVolume (r.volume + 1) }
  else r1

/-- The pocket presents volume `v` to the staple head (R78). -/
def Work.presentVolume (w : Work) (p : PocketId) (v : Nat) : Work :=
  w.setPocket p { w.pockets[p] with state := .stapling, volume := v, offset := evenVolume v }

/-- The pocket goes HELD again when the Stapler reports the pack finished (R78, R103). -/
def Work.holdPocket (w : Work) (p : PocketId) (volumes : Nat) : Work :=
  w.setPocket p { w.pockets[p] with state := .held, volume := volumes, offset := false }

/-- A volume operation is in flight on pocket `p` (R86, R87). -/
def State.operationOn (s : State) (p : PocketId) : Bool :=
  decide (s.stapler.work.map WorkRec.op = some .inFlight) && decide (s.stapler.command.map Prod.fst = some p)

/-- The Pack Register asks for a purge of pocket `p` (R86): a COLLATING, HELD or STAPLING pocket goes PURGING with its
purge pending; a PURGING pocket is left as it is; a pocket in another state takes no request. -/
def Work.requestPurge (w : Work) (p : PocketId) : Work :=
  let r := w.pockets[p]
  match r.state with
  | .collating => w.setPocket p { r with state := .purging, purge := .pending, offset := false }
  | .held => w.setPocket p { r with state := .purging, purge := .pending }
  | .stapling => w.setPocket p { r with state := .purging, purge := .pending }
  | .purging => w
  | .empty => w
  | .ejecting => w
  | .outOfService => w

/-- The purge of pocket `p` starts where R87 allows it: PURGING and pending, not HALT, no volume operation in flight on
it; its allowance is MECH_TIMEOUT as it stands now. -/
def Work.startPurge (w : Work) (p : PocketId) : Work :=
  let r := w.pockets[p]
  if decide (r.state = .purging) && decide (r.purge = .pending) && !w.halted && !w.operationOn p then
    w.setPocket p { r with
      purge := .running, offset := false, purgeStart := w.now, purgeAllowance := w.tables.settings.mechTimeout }
  else w

/-- Every pending purge that may start starts (R87). -/
def Work.startPurges (w : Work) : Work := w.each Work.startPurge allPockets

/-- Entry to HALT cuts off a running purge, which becomes pending again (R90). -/
def Work.cutOffPurge (w : Work) (p : PocketId) : Work :=
  let r := w.pockets[p]
  if r.purge = .running then w.setPocket p { r with purge := .pending } else w

/-- The purge of pocket `p` is running. -/
def State.purgeRunning (s : State) (p : PocketId) : Bool :=
  decide (s.pockets[p].state = .purging ∧ s.pockets[p].purge = .running)

/-- Some pocket is PURGING (R186, R190). -/
def State.anyPurging (s : State) : Bool := allPockets.any fun p => decide (s.pockets[p].state = .purging)

end Sys2Proof.Machine
end

