-- ==== Sys2Proof/Machine/PackRegister.lean ====
section
/-! DEFINITION. The Pack Register: freeing a record and the drain markers it finishes (R3, R25), leaving the queues
(R14, R19, R107), restart requests, restarts and abandonment (R128 to R136), the purge-ended transition (R15), going
READY (R11, R12), delivery done (R13). -/

namespace Sys2Proof.Machine

/-! ### Drain markers (R24, R25) -/

/-- A handle leaves every watch list (R25). -/
def unwatch (h : Handle) (ms : List Marker) : List Marker :=
  ms.map fun m => { m with watch := m.watch.filter fun k => decide (k ≠ h) }

/-- Record `h` goes FREE: cleared (R3); its handle leaves every watch list, and the markers that finishes have their
Drain Completes queued in the order the markers were taken (R25). -/
def Work.freePack (w : Work) (h : Handle) : Work :=
  let w1 := w.setPack h PackRec.cleared
  let ms := unwatch h w1.reg.markers
  let done := ms.filter fun m => m.watch.isEmpty
  (w1.setReg { w1.reg with markers := ms.filter fun m => !m.watch.isEmpty }).addDrains (done.map Marker.id)

/-! ### Leaving the queues -/

/-- The pack leaves its class delivery queue (R21). -/
def Work.leaveClassQueue (w : Work) (h : Handle) : Work :=
  let c := (w.pack h).cls
  w.setClassQueue c ((w.classQueue c).filter fun k => decide (k ≠ h))

/-- The pack leaves the staple queue. Where it was the head, its work record is dropped unless its operation is in
flight, and a stapler WAITING_CARTRIDGE for it becomes IDLE (R107). -/
def Work.leaveStapleQueue (w : Work) (h : Handle) : Work :=
  let wasHead := decide (w.stapler.queue.head? = some h)
  let inFlight := decide (w.stapler.work.map WorkRec.op = some .inFlight)
  w.setStaplerRec { w.stapler with
    queue := w.stapler.queue.filter fun k => decide (k ≠ h)
    work := if wasHead && !inFlight then none else w.stapler.work
    state := if wasHead && decide (w.stapler.state = .waitingCartridge) then .idle else w.stapler.state }

/-- The pack leaves the delivery queue (R115). -/
def Work.leaveDeliveryQueue (w : Work) (h : Handle) : Work :=
  w.setRet { w.ret with queue := w.ret.queue.filter fun k => decide (k ≠ h) }

/-- The purge of the pocket a pack holds, if it holds one (R133). -/
def Work.purgeHeld (w : Work) : Option PocketId → Work
  | none => w
  | some p => w.requestPurge p

/-! ### Restart requests (R128 to R136) -/

/-- UNSTAPLED as the announcement set it: the plan is unstapled and the pattern is not NONE (R6). -/
def Snapshot.announcedUnstapled (s : Snapshot) : Bool := !s.plan.stapled && decide (s.pattern ≠ .none)

/-- The record of a restarted pack (R130). -/
def PackRec.restarted (r : PackRec) : PackRec :=
  { r with
    gen := r.gen + 1, released := 0, received := 0
    flags := ⟨false, r.snap.announcedUnstapled, false⟩
    state := if r.pocket.isSome then .restarting else .announced }

/-- The restart of pack `h` (R130 to R133): the record, the staple and delivery queues, the purge, the Reprint Request
and the RESTART latch. It keeps its place in its class delivery queue. -/
def Work.restartPack (w : Work) (h : Handle) (cause : RestartCause) : Work :=
  let r := w.pack h
  let w1 := w.setPack h r.restarted
  let w2 := (w1.leaveStapleQueue h).leaveDeliveryQueue h
  let w3 := w2.purgeHeld r.pocket
  (w3.notify (.reprintRequest h (r.gen + 1) cause)).latch .restart

/-- The abandonment of pack `h` (R135, R136): it leaves its queues; DISPOSING with a purge if it holds a pocket, FREE at
once otherwise; the Pack Abandoned notice and the ABANDON latch. -/
def Work.abandonPack (w : Work) (h : Handle) (cause : RestartCause) : Work :=
  let r := w.pack h
  let w1 := ((w.leaveClassQueue h).leaveStapleQueue h).leaveDeliveryQueue h
  let w2 := (w1.notify (.packAbandoned h cause)).latch .abandon
  match r.pocket with
  | none => w2.freePack h
  | some p => (w2.setPack h { r with state := .disposing }).requestPurge p

/-- A restart request is taken only if the record is neither FREE nor DISPOSING and the generation matches (R9,
R128). A DELIVERING pack that still holds its pocket takes none: only LOST, which has emptied the pocket first,
restarts it (R13, R130, R140; assumption 22). -/
def State.takesRestart (s : State) (h : Handle) (gen : Nat) : Bool :=
  decide ((s.pack h).state ≠ .free ∧ (s.pack h).state ≠ .disposing ∧ (s.pack h).gen = gen)
    && !(decide ((s.pack h).state = .delivering) && (s.pack h).pocket.isSome)

/-- A restart request (R128): ignored, or decided against RESTART_LIMIT as it stands (R129). What changes of head or of
queue it brings are judged for delivery (R22, R135). -/
def Work.requestRestart (w : Work) (h : Handle) (gen : Nat) (cause : RestartCause) : Work :=
  if w.takesRestart h gen then
    if (w.pack h).gen < w.tables.settings.restartLimit then (w.restartPack h cause).judge
    else (w.abandonPack h cause).judge
  else w

/-! ### Other transitions -/

/-- The purge-ended transition of the pack the pocket held (R15): RESTARTING goes ANNOUNCED, DISPOSING goes FREE. -/
def Work.purgeEnded (w : Work) (h : Handle) : Work :=
  let r := w.pack h
  match r.state with
  | .restarting => w.setPack h { r with state := .announced, pocket := none }
  | .disposing => w.freePack h
  | _ => w

/-- The pack goes READY with its flags, and is tested for eligibility at once (R11, R12). -/
def Work.goReady (w : Work) (h : Handle) (flags : PackFlags) : Work :=
  (w.setPack h { w.pack h with state := .ready, flags := flags }).judge

/-- The delivery-done transition (R13): the handle leaves its class delivery queue and the record goes FREE. -/
def Work.deliveredPack (w : Work) (h : Handle) : Work := (w.leaveClassQueue h).freePack h

/-- A withdrawn pack (R19): it leaves its queues; an ANNOUNCED pack goes FREE at once, any other DISPOSING with its
pocket's purge. -/
def Work.withdrawPack (w : Work) (h : Handle) : Work :=
  let r := w.pack h
  let w1 := ((w.leaveClassQueue h).leaveStapleQueue h).leaveDeliveryQueue h
  if r.state = .announced then w1.freePack h
  else (w1.setPack h { r with state := .disposing }).purgeHeld r.pocket

end Sys2Proof.Machine
end

