-- ==== Sys2Proof/Machine/Stapling.lean ====
section
/-! DEFINITION. The Stapler: taking up work (R97), starting a volume (R98), the end of an operation (R99, R100), staples
low and out (R102 to R105), halt and resume (R108, R109), at rest (R110). -/

namespace Sys2Proof.Machine

/-- The staples a volume takes (R84, R98). -/
def patternCount : StaplePattern → Nat
  | .none => 0
  | .corner => 1
  | .edgePair => 2

/-- Staples remaining takes a new value: a device-made change to the Settings entry (R104, R158), compared with
STAPLES_LOW. A fitting that finds the value it sets is compared, and changes nothing (assumption 36). -/
def Work.setRemaining (w : Work) (n : Nat) : Work :=
  let w1 := w.setStaplerRec { w.stapler with remaining := n }
  (w1.touchIf (decide (n ≠ w.stapler.remaining)) .settings).judgeStaples

/-- The Stapler's state, work record and command change. -/
def Work.setStapler (w : Work) (state : StaplerState) (work : Option WorkRec) (command : Option (PocketId × Nat)) :
    Work :=
  w.setStaplerRec { w.stapler with state := state, work := work, command := command }

/-- The number of volumes in a pack's plan. -/
def PackRec.volumes (r : PackRec) : Nat := r.snap.plan.ends.length

/-- The pack is finished: it goes READY with its flags and leaves the queue, its pocket goes HELD, the work record is
dropped and the stapler is IDLE (R99, R103). -/
def Work.finishPack (w : Work) (h : Handle) (flags : PackFlags) : Work :=
  let r := w.pack h
  let w1 := w.setStaplerRec { w.stapler with
    queue := w.stapler.queue.filter fun k => decide (k ≠ h), state := .idle, work := none, command := none }
  let w2 := match r.pocket with
    | none => w1
    | some p => w1.holdPocket p r.volumes
  w2.goReady h flags

/-- A short volume: STAPLES_OUT is latched; HOLD waits for a cartridge (R102), DELIVER_UNSTAPLED ends the pack's
stapling (R103). -/
def Work.shortVolume (w : Work) (k : WorkRec) : Work :=
  let r := w.pack k.handle
  let w1 := w.latch .staplesOut
  match r.snap.staplesOut with
  | .hold => w1.setStapler .waitingCartridge (some { k with op := .none }) none
  | .deliverUnstapled =>
    w1.finishPack k.handle
      (if k.stapled = 0 then { r.flags with unstapled := true } else { r.flags with partlyStapled := true })

/-- The volume in hand of the work record `k` is started, or found short (R98). -/
def Work.startVolume (w : Work) (k : WorkRec) : Work :=
  let r := w.pack k.handle
  let c := patternCount r.snap.pattern
  if w.stapler.remaining < c then w.shortVolume k
  else
    let w1 := w.setRemaining (w.stapler.remaining - c)
    let w2 := if k.volume = 1 ∧ r.state = .complete then w1.setPack k.handle { r with state := .stapling } else w1
    let w3 := match r.pocket with
      | none => w2
      | some p => w2.presentVolume p k.volume
    w3.setStapler .stapling
      (some { k with op := .inFlight, start := w.now, allowance := w.tables.settings.mechTimeout })
      (r.pocket.map fun p => (p, c))

/-- A fresh work record for the head pack (R97). -/
def State.freshWork (s : State) (h : Handle) : WorkRec :=
  { handle := h, gen := (s.pack h).gen, volume := 1, stapled := 0, op := .none, start := 0, allowance := 0 }

/-- The work record for the head pack: the one held if it names the pack in its present generation, else a fresh one
(R97). -/
def State.workFor (s : State) (h : Handle) : WorkRec :=
  match s.stapler.work with
  | none => s.freshWork h
  | some k => if k.handle = h ∧ k.gen = (s.pack h).gen then k else s.freshWork h

/-- An IDLE stapler takes up the head of the queue (R97), and the next one while DELIVER_UNSTAPLED finishes a pack
at once (R103): at most as often as the queue has members. -/
def Work.takeUp : Nat → Work → Work
  | 0, w => w
  | n + 1, w =>
    match w.stapler.queue with
    | [] => w
    | h :: _ =>
      if decide (w.stapler.state = .idle) && w.mayStart then Work.takeUp n (w.startVolume (w.workFor h)) else w

/-- The Stapler takes up work where R97 allows. -/
def Work.staple (w : Work) : Work := Work.takeUp (w.stapler.queue.length + 1) w

/-- A volume operation is in flight: the stapler state is STAPLING and the work record says so (R95). -/
def State.volumeInFlight (s : State) : Option WorkRec :=
  match s.stapler.state, s.stapler.work with
  | .stapling, some k => if k.op = .inFlight then some k else none
  | _, _ => none

/-- The pack of a work record is still STAPLING in the record's generation (R99, R100). -/
def State.stillStapling (s : State) (k : WorkRec) : Bool :=
  decide ((s.pack k.handle).state = .stapling ∧ (s.pack k.handle).gen = k.gen)

/-- STAPLE_DONE ends the operation in flight (R99). -/
def Work.volumeDone (w : Work) (k : WorkRec) : Work :=
  if w.stillStapling k then
    let r := w.pack k.handle
    if k.volume < r.volumes then
      w.setStapler .idle (some { k with stapled := k.stapled + 1, volume := k.volume + 1, op := .none }) none
    else w.finishPack k.handle r.flags
  else w.setStapler .idle none none

/-- The operation in flight has timed out (R100). -/
def Work.volumeTimedOut (w : Work) (k : WorkRec) : Work :=
  (w.setStapler .faulted (if w.stillStapling k then some { k with op := .none } else none) none).latch .mechFault

/-- Entry to HALT cuts off an operation in flight (R108). -/
def Work.cutOffVolume (w : Work) : Work :=
  match w.volumeInFlight with
  | none => w
  | some k => w.setStapler .idle (some { k with op := .cutOff }) none

/-- RESUME reissues the cut-off volume, if its record still names the head pack, STAPLING in its generation (R109). A
cut-off record that does not, whose pack departed while its operation was in flight, is dropped, as R99 and R100 drop
it where the operation ends (assumption 30). -/
def Work.reissueVolume (w : Work) : Work :=
  match w.stapler.work with
  | none => w
  | some k =>
    if k.op = .cutOff ∧ w.stapler.state = .idle then
      if w.stapler.queue.head? = some k.handle ∧ w.stillStapling k = true then w.startVolume k
      else w.setStapler .idle none none
    else w

/-- A cartridge is fitted: the count is set to CARTRIDGE_SIZE and compared with STAPLES_LOW; a WAITING_CARTRIDGE
stapler becomes IDLE (R104, R105). -/
def Work.fitCartridge (w : Work) : Work :=
  let w1 := w.setRemaining w.tables.settings.cartridgeSize
  if w.stapler.state = .waitingCartridge then w1.setStapler .idle w1.stapler.work w1.stapler.command else w1

/-- The Stapler is at rest for STOPPING (R110). -/
def State.staplerAtRest (s : State) : Bool :=
  s.volumeInFlight.isNone
    && (s.stapler.queue.isEmpty || decide (s.stapler.state = .waitingCartridge)
      || decide (s.stapler.state = .faulted))

end Sys2Proof.Machine
end

