-- ==== Sys2Proof/Machine/Delivery.lean ====
section
/-! DEFINITION. The Return Unit: starting a delivery (R116), its completion (R117), timeout (R118) and loss (R119), bin
clearing (R122), BIN_FULL (R123), the lamps (R124, R125), halt and rest (R126). -/

namespace Sys2Proof.Machine

/-- The delivery of pack `h` from pocket `p` to bin `b` starts (R116). -/
def Work.beginDelivery (w : Work) (h : Handle) (p : PocketId) (b : BinId) : Work :=
  let r := w.pack h
  let w1 := (w.leaveDeliveryQueue h).setPack h { r with state := .delivering }
  let w2 := w1.setPocket p { w1.pockets[p] with state := .ejecting }
  w2.setRet { w2.ret with
    state := .ejecting
    delivery := some { handle := h, gen := r.gen, pocket := p, bin := b, units := r.units, op := .inFlight,
                       start := w.now, allowance := w.tables.settings.mechTimeout }
    command := some (p, b) }

/-- The Return Unit starts the delivery of the first eligible member of its queue, where R116 allows. -/
def Work.startDelivery (w : Work) : Work :=
  if decide (w.ret.state = .idle) && w.mayStart then
    match w.ret.queue.find? w.eligible with
    | none => w
    | some h =>
      match (w.pack h).pocket, w.binOf h with
      | some p, some b => w.beginDelivery h p b
      | _, _ => w
  else w

/-- The delivery under way whose operation is in flight while the return state is EJECTING (R117). -/
def State.deliveryInFlight (s : State) : Option DeliveryRec :=
  match s.ret.state, s.ret.delivery with
  | .ejecting, some d => if d.op = .inFlight then some d else none
  | _, _ => none

/-- The delivery record is dropped and the Return Unit is IDLE (R117, R119). -/
def Work.dropDelivery (w : Work) : Work :=
  w.setRet { w.ret with state := .idle, delivery := none, command := none }

/-- The flash of a bin whose lamp mode is AUTO starts (R125). -/
def BinRec.flashed (r : BinRec) (now : Time) : BinRec :=
  if r.lampMode = .auto then { r with flash := some now } else r

/-- The delivery `d` is done (R117): the bin's fill and flash, the pocket, the pack's terminal outcome and its notice,
the record dropped. -/
def Work.completeDelivery (w : Work) (d : DeliveryRec) : Work :=
  let bin := w.ret.bins[d.bin]
  let w1 := (w.setBin d.bin ({ bin with fill := bin.fill + d.units }.flashed w.now)).dropDelivery
  let w2 := w1.setPocket d.pocket w1.pockets[d.pocket].emptied
  let r := w.pack d.handle
  (if r.state = .delivering ∧ r.gen = d.gen then
    (w2.deliveredPack d.handle).notify (.packDelivered d.handle d.bin r.flags r.volumes)
  else w2).judge

/-- The delivery `d` is lost (R119): the pocket goes EMPTY and the pack, holding none, is restarted or abandoned. -/
def Work.loseDelivery (w : Work) (d : DeliveryRec) : Work :=
  let w1 := w.setPocket d.pocket w.pockets[d.pocket].emptied
  let w2 := (w1.setPack d.handle { w1.pack d.handle with pocket := none }).dropDelivery
  w2.requestRestart d.handle d.gen .lost

/-- The delivery `d` has timed out (R118). -/
def Work.deliveryTimedOut (w : Work) : Work :=
  (w.setRet { w.ret with state := .faulted, command := none }).latch .mechFault

/-- Entry to HALT cuts off a delivery in flight (R126). -/
def Work.cutOffDelivery (w : Work) : Work :=
  match w.deliveryInFlight with
  | none => w
  | some d => w.setRet { w.ret with delivery := some { d with op := .cutOff }, command := none }

/-- RESUME starts a cut-off delivery again from the beginning, to the bin kept in its record (R126). -/
def Work.reissueDelivery (w : Work) : Work :=
  match w.ret.delivery with
  | none => w
  | some d =>
    if d.op = .cutOff ∧ w.ret.state = .ejecting then
      w.setRet { w.ret with
        delivery := some { d with op := .inFlight, start := w.now, allowance := w.tables.settings.mechTimeout }
        command := some (d.pocket, d.bin) }
    else w

/-- The Return Unit is at rest for STOPPING (R126). -/
def State.returnAtRest (s : State) : Bool :=
  match s.ret.state with
  | .faulted => true
  | .idle => !s.ret.queue.any s.eligible
  | .ejecting => false

/-- Pack `h` went on waiting: before the step it waited for room in the bin its class has now (R123). -/
def State.wentOnWaiting (s before : State) (h : Handle) : Bool :=
  before.waitingForRoom h && decide (before.servingBin h = s.servingBin h)

/-- BIN_FULL is latched where a pack waits for room in a bin in which it did not wait before the step, a new bin of
its class included (R123, R148, assumption 19). -/
def Work.judgeBinFull (w : Work) (before : State) : Work :=
  if w.waitingPacks.any fun h => !w.wentOnWaiting before h then w.latch .binFull else w

/-- What a bin's lamp shows apart from a flash (R124). -/
def State.lampShow (s : State) (b : BinId) : LampShow :=
  let r := s.ret.bins[b]
  match r.lampMode with
  | .on => .lit
  | .off => .dark
  | .test => .blink2
  | .auto =>
    if s.live.any fun h => s.waitingIn h b then .blink4
    else if r.capacity * 9 ≤ r.fill * 10 then .blink1
    else if 0 < r.fill then .lit
    else .dark

/-- The lamp of bin `b` follows its condition; a new condition begins now (R124, assumption 23). -/
def Work.driveLamp (w : Work) (b : BinId) : Work :=
  let shown := w.lampShow b
  if w.ret.bins[b].lamp = shown then w
  else w.setRet { w.ret with bins := w.ret.bins.set b { w.ret.bins[b] with lamp := shown, lampSince := w.now } }

/-- Every lamp follows its condition (R124). -/
def Work.driveLamps (w : Work) : Work := w.each Work.driveLamp allBins

/-- The half period of a blink, in ms (R124). -/
def LampShow.halfPeriod : LampShow → Nat
  | .blink1 => 500
  | .blink2 => 250
  | .blink4 => 125
  | .dark => 1
  | .lit => 1

/-- The lamp output of bin `b` at the present moment: a blink is lit and dark for equal halves of each period and
starts lit (R124); a running flash shows the opposite (R125). The time a blink has run is read unsigned, modulo 2^32
(assumption 28). -/
def State.lampLit (s : State) (b : BinId) : Bool :=
  let r := s.ret.bins[b]
  let base := match r.lamp with
    | .dark => false
    | .lit => true
    | _ => decide (((s.now - r.lampSince).toNat / r.lamp.halfPeriod) % 2 = 0)
  base != r.flash.isSome

end Sys2Proof.Machine
end

