-- ==== Sys2Proof/Machine/Arbiter.lean ====
section
/-! DEFINITION. Feed Staging's timers (R39, R40) and the Merge Arbiter: candidates and dispositions (R48 to R50), release
timing (R53, R54), the choice and the release (R51, R52, R69), arrivals (R55 to R59), the block timer and its break
actions (R63 to R68). -/

namespace Sys2Proof.Machine

/-! ### Candidates and dispositions -/

/-- The run state lets sheets be released: RUN or BYPASS (R48). -/
def State.releasing (s : State) : Bool := decide (s.run.state = .run) || decide (s.run.state = .bypass)

/-- Feed `f` is a candidate (R48); in BYPASS its queue need hold no entry (R69). -/
def State.candidate (s : State) (f : FeedId) : Bool :=
  let r := s.feeds[f]
  s.releasing && decide (r.state = .online) && decide (r.shelf = .present)
    && (decide (s.run.state = .bypass) || !r.queue.isEmpty || r.discard)
    && decide (s.arb.inFlight.length < Config.inFlightSize)

/-- What the arbiter would do with a candidate's head (R49, R69): release it with a disposition (a COLLATE of page 1
with the pocket offered), or leave it waiting; `held` where it waits only because its pack is RESTARTING. -/
inductive Verdict where
  | pass
  | discard
  | collate (pocket : Option PocketId)
  | waiting (held : Bool)
  deriving DecidableEq, Repr

/-- The verdict on a head entry, from the first line of R49's table that applies. -/
def State.judgeEntry (s : State) (e : StagingEntry) : Verdict :=
  let r := s.pack e.handle
  if r.state = .free ∨ r.state = .disposing then .discard
  else if e.gen ≠ r.gen then .discard
  else if r.state = .restarting then .waiting true
  else if e.page ≤ r.released ∨ r.pages < e.page then .discard
  else if r.state = .opened ∧ e.page = r.released + 1 then .collate none
  else if r.state = .announced ∧ e.page = 1 then
    match s.offer e.handle with
    | some p => .collate (some p)
    | none => .waiting false
  else .waiting false

/-- The verdict on the head of candidate `f` (R49, R69). -/
def State.verdict (s : State) (f : FeedId) : Verdict :=
  if s.run.state = .bypass then .pass
  else if s.feeds[f].discard then .discard
  else match s.feeds[f].queue with
    | [] => .waiting true
    | e :: _ => s.judgeEntry e

/-- The earliest release of feed `f`: A_last + PITCH − T_f (R53). -/
def State.earliest (s : State) (f : FeedId) : Time :=
  later s.arb.aLast s.tables.settings.pitch - BitVec.ofNat 32 s.tables.travel[f]

/-- Feed `f` is due: the present time is at or after its earliest release (R53). -/
def State.due (s : State) (f : FeedId) : Bool := !isBefore s.now (s.earliest f)

/-- The candidate has this verdict and is due. -/
def State.dueWith (s : State) (f : FeedId) (test : Verdict → Bool) : Bool :=
  s.candidate f && test (s.verdict f) && s.due f

/-- The verdict releases the sheet as a DISCARD or a PASS. -/
def Verdict.isPlain : Verdict → Bool
  | .pass => true
  | .discard => true
  | .collate _ => false
  | .waiting _ => false

/-- The verdict releases the sheet as a COLLATE. -/
def Verdict.isCollate : Verdict → Bool
  | .collate _ => true
  | .pass => false
  | .discard => false
  | .waiting _ => false

/-- The pack of a feed's head entry. -/
def State.headHandle (s : State) (f : FeedId) : Option Handle := s.feeds[f].queue.head?.map StagingEntry.handle

/-- Feed `g`'s head belongs to an older pack than feed `f`'s (R51); of one pack, the lower feed stays chosen. -/
def State.olderHead (s : State) (g f : FeedId) : Bool :=
  match s.headHandle g, s.headHandle f with
  | some a, some b => decide (a ≠ b) && s.older a b
  | _, _ => false

/-- The feed released at this decision (R51): the break pick alone while one is held (R65); else a DISCARD (in BYPASS a
PASS, R69) of the lowest feed; else the COLLATE of the oldest pack. -/
def State.choose (s : State) : Option FeedId :=
  match s.arb.pick with
  | some (f, _) => if s.dueWith f Verdict.isCollate then some f else none
  | none =>
    match allFeeds.find? fun f => s.dueWith f Verdict.isPlain with
    | some f => some f
    | none => firstBy s.olderHead (allFeeds.filter fun f => s.dueWith f Verdict.isCollate)

/-! ### The release -/

/-- The age of A_last is bounded (R54). -/
def Work.boundALast (w : Work) : Work := w.setArb { w.arb with aLast := boundedALast w.now w.arb.aLast }

/-- The break pick may still be released (R65): its feed is a candidate whose head names that pack's page 1 in the
pack's generation, the pack is ANNOUNCED, some available pocket is EMPTY. -/
def State.pickStands (s : State) (f : FeedId) (h : Handle) : Bool :=
  s.candidate f && decide ((s.pack h).state = .announced) && !s.emptyPockets.isEmpty
    && match s.feeds[f].queue with
      | [] => false
      | e :: _ => decide (e.handle = h ∧ e.page = 1 ∧ e.gen = (s.pack h).gen)

/-- A break pick that may no longer be released is dropped (R65). -/
def Work.dropPick (w : Work) : Work :=
  match w.arb.pick with
  | none => w
  | some (f, h) => if w.pickStands f h then w else w.setArb { w.arb with pick := none }

/-- The entry joins the tail of the in-flight list and A_last becomes its predicted arrival (R52); its deadline is
LATE_TOL later (R45). -/
def Work.appendInFlight (w : Work) (f : FeedId) (handle : Option Handle) (page gen : Nat) (tag : EntryTag)
    (disp : Disposition) : Work :=
  let a := later w.now w.tables.travel[f]
  let entry : InFlight :=
    { feed := f, handle := handle, page := page, gen := gen, tag := tag, disp := disp, arrival := a,
      deadline := later a w.tables.settings.lateTol }
  w.setArb { w.arb with inFlight := w.arb.inFlight ++ [entry], aLast := a }

/-- One pulse on the release output of feed `f` (R52). -/
def Work.pulse (w : Work) (f : FeedId) : Work :=
  { w with releasePulses := w.releasePulses.set f (w.releasePulses[f] + 1) }

/-- The open request, with the out-of-turn request before it where the pack is the break pick (R9, R52, R65, R74): the
pack goes OPEN in pocket `p` with pages released 1. -/
def Work.openPack (w : Work) (h : Handle) (p : PocketId) : Work :=
  let r := w.pack h
  let picked := decide (w.arb.pick.map Prod.snd = some h)
  let r1 : PackRec := { r with
    state := .opened, pocket := some p, released := 1,
    flags := { r.flags with outOfTurn := r.flags.outOfTurn || picked } }
  let w1 := (w.openPocket p h).setPack h r1
  if picked then
    ((w1.setArb { w1.arb with pick := none }).notify (.orderBreak h r.cls .pocket)).latch .orderBreak
  else w1

/-- The page-released request (R7, R9). -/
def Work.pageReleased (w : Work) (h : Handle) : Work :=
  let r := w.pack h
  w.setPack h { r with released := r.released + 1 }

/-- The release of a feed with no entry handed over: a pending discard (R40, R52) or a PASS (R69). -/
def Work.releaseBare (w : Work) (f : FeedId) (tag : EntryTag) (disp : Disposition) : Work :=
  ((w.setFeed f { w.feeds[f] with shelf := .clearing, discard := false }).appendInFlight f none 0 0 tag disp)

/-- The release of a feed's head entry (R38, R52). -/
def Work.releaseHead (w : Work) (f : FeedId) (e : StagingEntry) (disp : Disposition) : Work :=
  let w1 := w.setFeed f { w.feeds[f] with shelf := .clearing, queue := w.feeds[f].queue.tail }
  w1.appendInFlight f (some e.handle) e.page e.gen (.num e.tag) disp

/-- The release of feed `f` in one step (R52). -/
def Work.release (w : Work) (f : FeedId) : Work :=
  let w1 := (w.pulse f).restartTimer
  match w.verdict f, w.feeds[f].discard, w.feeds[f].queue with
  | .waiting _, _, _ => w
  | .pass, _, _ => w1.releaseBare f .untagged .pass
  | _, true, _ => (w1.releaseBare f .any .discard).latch .unannounced
  | _, false, [] => w
  | .discard, false, e :: _ => w1.releaseHead f e .discard
  | .collate (some p), false, e :: _ => (w1.releaseHead f e .collate).openPack e.handle p
  | .collate none, false, e :: _ => (w1.releaseHead f e .collate).pageReleased e.handle

/-- Release decisions, one after each release, at most `n` of them (R47). -/
def Work.decideUpTo : Nat → Work → Work
  | 0, w => w
  | n + 1, w =>
    let w1 := w.boundALast.dropPick
    match w1.choose with
    | none => w1
    | some f => Work.decideUpTo n (w1.release f)

/-- Release decisions where an occasion has come (R47). A release leaves its feed CLEARING, so four releases and the
decision that makes none end them. In a run state that allows no release the decision is made all the same: it releases
nothing, and drops a break pick that is held (assumption 37). -/
def Work.decideReleases (w : Work) : Work := if w.occasion then Work.decideUpTo 5 w else w

/-! ### Timers -/

/-- The conditions of the unannounced-sheet wait hold on feed `f` (R39). -/
def State.waitHolds (s : State) (f : FeedId) : Bool :=
  let r := s.feeds[f]
  decide (r.state = .online) && decide (s.run.state = .run) && r.queue.isEmpty && decide (r.shelf = .present)

/-- The wait of feed `f` starts when its conditions come to hold and stops when one ceases to (R39); a wait that has
expired into a pending discard is stopped (assumption 14). -/
def Work.timeWait (w : Work) (f : FeedId) : Work :=
  let r := w.feeds[f]
  let wait := if w.waitHolds f && !r.discard then some (r.wait.getD w.now) else none
  if wait = r.wait then w else w.setFeed f { r with wait := wait }

/-- Every unannounced-sheet wait follows its conditions (R39). -/
def Work.timeWaits (w : Work) : Work := w.each Work.timeWait allFeeds

/-- Some candidate has a waiting head, not counting one that waits only because its pack is RESTARTING (R63). -/
def State.mergeWaits (s : State) : Bool := allFeeds.any fun f => s.candidate f && decide (s.verdict f = .waiting false)

/-- The conditions of the block timer hold, and no break pick is held (R63, R65). -/
def State.blockHolds (s : State) : Bool := s.mergeWaits && s.waitingPacks.isEmpty && s.arb.pick.isNone

/-- The block timer follows its conditions; a release or an arrival of this step starts it again (R63). -/
def Work.timeBlock (w : Work) : Work :=
  w.setArb { w.arb with
    blockTimer := if w.blockHolds then
        (if w.progress then some w.now else some (w.arb.blockTimer.getD w.now))
      else none }

/-! ### Arrivals -/

/-- The merge gate is set. -/
def Work.setGate (w : Work) (g : Gate) : Work := w.setArb { w.arb with gate := g }

/-- The head entry leaves the in-flight list. -/
def Work.dropHead (w : Work) : Work := w.setArb { w.arb with inFlight := w.arb.inFlight.tail }

/-- Feed `f` is set FAULTED (R35); its pending discard is cancelled as it leaves ONLINE (R34, R40). -/
def Work.faultFeed (w : Work) (f : FeedId) : Work :=
  w.setFeed f { w.feeds[f] with state := .faulted, discard := false, wait := none }

/-- A restart request for the pack of a COLLATE entry, with the entry's generation; other entries make none. -/
def Work.requestFor (w : Work) (e : InFlight) (cause : RestartCause) : Work :=
  match e.disp, e.handle with
  | .collate, some h => w.requestRestart h e.gen cause
  | _, _ => w

/-- The sheet is admitted to the pack's pocket (R7, R11, R75 to R77): an admission for a pack whose pages received
equals its pages released is ignored, by the pocket's counts too (assumption 35). -/
def Work.admitSheet (w : Work) (h : Handle) (p : PocketId) : Work :=
  let r := w.pack h
  if r.released ≤ r.received then w
  else
    let k := r.received + 1
    let r1 : PackRec := { r with received := k }
    let w1 := w.setPocket p (w.pockets[p].admitted r)
    if k = r.pages then
      if r.snap.plan.stapled then
        let w2 := w1.setPack h { r1 with state := .complete }
        w2.setStaplerRec { w2.stapler with queue := w2.stapler.queue ++ [h] }
      else (w1.setPack h { r1 with state := .ready }).judge
    else w1.setPack h r1

/-- The arrival is the sheet of head entry `e`: the entry is removed, and the gate is set by its disposition; a COLLATE
is checked against the pack record as it stands now (R56, R69). -/
def Work.takeHead (w : Work) (e : InFlight) : Work :=
  let w1 := w.dropHead
  match e.disp, e.handle with
  | .discard, _ => w1.setGate .reject
  | .pass, _ => w1.setGate .passThrough
  | .collate, none => w1.setGate .reject
  | .collate, some h =>
    let r := w1.pack h
    match r.pocket with
    | some p =>
      if r.state = .opened ∧ r.gen = e.gen then (w1.setGate (.pocket p)).admitSheet h p else w1.setGate .reject
    | none => w1.setGate .reject

/-- The arrival's tag equals the entry's tag, or the entry's tag is "any" (R56); a PASS entry is met by any tag
(R69). -/
def InFlight.meets (e : InFlight) (tag : Option TagNum) : Bool :=
  decide (e.disp = .pass) || match e.tag, tag with
    | .any, _ => true
    | .num t, some t' => decide (t = t')
    | .num _, none => false
    | .untagged, _ => true

/-- The entry has a numbered tag equal to the arrival's (R57). -/
def InFlight.isNumbered (e : InFlight) (tag : Option TagNum) : Bool :=
  match e.tag, tag with
  | .num t, some t' => decide (t = t')
  | _, _ => false

/-- An arrival taken outside HALT (R55 to R58). -/
def Work.matchArrival (w : Work) (tag : Option TagNum) : Work :=
  match w.arb.inFlight with
  | [] => (w.setGate .reject).latch .stray
  | e :: rest =>
    let w1 := w.restartTimer
    if e.meets tag then w1.takeHead e
    else
      match rest with
      | e2 :: _ =>
        if e2.isNumbered tag then
          (((w1.dropHead.faultFeed e.feed).latch .mismatch).requestFor e .missingSheet).takeHead e2
        else (((w1.setGate .reject).dropHead).latch .mismatch).requestFor e .mismatch
      | [] => (((w1.setGate .reject).dropHead).latch .mismatch).requestFor e .mismatch

/-! ### Break actions (R64 to R68) -/

/-- Feed `f`'s waiting head names a pack whose next page stands behind it in the same queue (R64). -/
def State.selfBlocked (s : State) (f : FeedId) : Option Handle :=
  if s.candidate f && decide (s.verdict f = .waiting false) then
    match s.feeds[f].queue with
    | [] => none
    | e :: rest =>
      let r := s.pack e.handle
      if decide ((r.state = .announced ∨ r.state = .opened) ∧ e.gen = r.gen ∧ r.released + 1 < e.page)
        && rest.any fun x => decide (x.handle = e.handle ∧ x.page = r.released + 1 ∧ x.gen = r.gen) then
        some e.handle
      else none
  else none

/-- Feed `f`'s head is page 1 of an ANNOUNCED pack, in its generation, waiting for want of a pocket while some available
pocket is EMPTY (R65). -/
def State.waitsForPocket (s : State) (f : FeedId) : Bool :=
  s.candidate f && decide (s.verdict f = .waiting false) && !s.emptyPockets.isEmpty
    && match s.feeds[f].queue with
      | [] => false
      | e :: _ => decide ((s.pack e.handle).state = .announced ∧ e.page = 1 ∧ e.gen = (s.pack e.handle).gen)

/-- A READY pack not in turn whose class's bin is in service and has room (R66). -/
def State.breakable (s : State) (h : Handle) : Bool :=
  decide ((s.pack h).state = .ready) && !s.inTurn h && match s.servingBin h with
    | none => false
    | some b => s.hasRoom h b

/-- Of two OPEN packs the one to sacrifice: fewer pages received, then the newer announce serial (R67). -/
def State.lessDone (s : State) (a b : Handle) : Bool :=
  decide ((s.pack a).received < (s.pack b).received)
    || (decide ((s.pack a).received = (s.pack b).received) && s.older b a)

/-- The out-of-turn request for a READY pack, with its Order Break notice (R66, R68). -/
def Work.breakDelivery (w : Work) (h : Handle) : Work :=
  let r := w.pack h
  let w1 := w.setPack h { r with flags := { r.flags with outOfTurn := true } }
  ((w1.notify (.orderBreak h r.cls .delivery)).latch .orderBreak).judge

/-- The first break action whose condition holds (R64 to R67). Where page 1 of the oldest waiting pack heads two feeds,
the lower feed goes into the break pick (assumption 29). -/
def Work.breakBlock (w : Work) : Work :=
  match allFeeds.findSome? w.selfBlocked with
  | some h => w.requestRestart h (w.pack h).gen .orderFault
  | none =>
    match firstBy w.olderHead (allFeeds.filter w.waitsForPocket) with
    | some f => (w.setArb { w.arb with pick := (w.headHandle f).map fun h => (f, h) }).occasionIf true
    | none =>
      match firstBy w.older (w.live.filter w.breakable) with
      | some h => w.breakDelivery h
      | none =>
        match firstBy w.lessDone (w.live.filter fun h => decide ((w.pack h).state = .opened)) with
        | some h => w.requestRestart h (w.pack h).gen .block
        | none => w

end Sys2Proof.Machine
end

