-- ==== Sys2Proof/Machine/Running.lean ====
section
/-! DEFINITION. Run Control: entry to HALT (R187, R141), a STOP taken (R144, R190), entry to BYPASS (R41, R189), the end
of start-up (R190) and of STOPPING (R186), RESUME (R142), the resets (R26, R43, R46, R93, R111, R127, R163, R176, R183,
R190, R191), and what every step that changes the work does after its own effect. -/

namespace Sys2Proof.Machine

/-! ### Halt -/

/-- The resume target of a halt entered from a run state; none where no halt is entered from it (R187). -/
def resumeTargetOf : RunState → Option ResumeTarget
  | .run => some .run
  | .pause => some .pause
  | .standby => some .standby
  | .stopping _ => some .standby
  | .bypass => some .bypass
  | .halt _ _ => none
  | .starting _ _ => none

/-- The run state a halt with this target resumes (R142). -/
def ResumeTarget.state : ResumeTarget → RunState
  | .run => .run
  | .pause => .pause
  | .standby => .standby
  | .bypass => .bypass

/-- The run state becomes HALT, and the volume operation, the delivery and the running purges are cut off (R187, R141,
R108, R126, R90). -/
def Work.halt (w : Work) (cause : HaltCause) (target : ResumeTarget) : Work :=
  ((w.setRunState (.halt cause target)).cutOffVolume.cutOffDelivery).each Work.cutOffPurge allPockets

/-- The event enters HALT from STANDBY, RUN, PAUSE, STOPPING or BYPASS (R187); in HALT it leaves the halt as it is
(R144); in STARTING it sets halt pending (R190). -/
def Work.requestHalt (w : Work) (cause : HaltCause) : Work :=
  match w.run.state with
  | .starting kind _ => w.setRunState (.starting kind true)
  | st =>
    match resumeTargetOf st with
    | none => w
    | some target => w.halt cause target

/-- A STOP is taken: the latch, and HALT with cause STOP (R165, R187). -/
def Work.takeStop (w : Work) : Work := (w.latch .stop).requestHalt .stop

/-! ### Bypass, start-up, STOPPING -/

/-- The staging queue of feed `f` is emptied, its pending discard cancelled and its wait stopped (R36, R41). A queue
that is empty already, with no discard pending, brings no occasion for a release decision (assumption 39). -/
def Work.flushFeed (w : Work) (f : FeedId) : Work :=
  w.setFeed f { w.feeds[f] with queue := [], discard := false, wait := none }

/-- The run state becomes BYPASS and Feed Staging empties its queues (R41, R189). -/
def Work.enterBypass (w : Work) : Work := (w.setRunState .bypass).each Work.flushFeed allFeeds

/-- The run state becomes that of a resume target; BYPASS is entered as R189 gives. -/
def Work.enterTarget (w : Work) (target : ResumeTarget) : Work :=
  match target with
  | .bypass => w.enterBypass
  | _ => w.setRunState target.state

/-- The target state of start-up: the START strap after POWER_ON, PIN or ALL, STANDBY after WORK (R190). -/
def startTarget (kind : ResetKind) (start : StartState) : ResumeTarget :=
  match kind, start with
  | .work, _ => .standby
  | _, .standby => .standby
  | _, .bypass => .bypass

/-- The end of STARTING: HALT with cause STOP where a halt is pending or the STOP input is low, else the target state;
the Start Report reports the state entered (R190). -/
def Work.leaveStarting (w : Work) (kind : ResetKind) (haltPending : Bool) : Work :=
  let target := startTarget kind w.run.straps.start
  let w1 := if haltPending || !w.pins.stopHigh then w.halt .stop target else w.enterTarget target
  w1.setReport ⟨w1.run.straps, kind, runCodeOf w1.run.state⟩

/-- STARTING ends when every start-up purge has ended (R190). -/
def Work.endStartUp (w : Work) : Work :=
  match w.run.state with
  | .starting kind haltPending => if w.anyPurging then w else w.leaveStarting kind haltPending
  | _ => w

/-- The device is at rest for STOPPING (R186). -/
def State.atRest (s : State) : Bool :=
  s.arb.inFlight.isEmpty && s.staplerAtRest && s.returnAtRest && !s.anyPurging

/-- STOPPING ends and STANDBY is entered when the device is at rest (R186). -/
def Work.endStopping (w : Work) : Work :=
  match w.run.state with
  | .stopping _ => if w.atRest then w.setRunState .standby else w
  | _ => w

/-! ### What follows a step's own effect -/

/-- After its own effect a step lets every block test its conditions: pending purges start (R87), start-up ends (R190),
packs become eligible (R115), the Stapler takes up work (R97), a delivery starts (R116), STOPPING ends (R186), the
arbiter decides (R47), the waits and the block timer follow their conditions (R39, R63), BIN_FULL is judged (R123)
and the lamps follow (R124). `before` is the state the step began in. Packs that the command itself makes eligible join
the delivery queue before those that the Stapler finishes here (assumption 38). -/
def Work.settle (w : Work) (before : State) : Work :=
  let w1 := w.startPurges.endStartUp.judge.staple.startDelivery.endStopping
  let w2 := w1.decideReleases.timeWaits.timeBlock
  (w2.judgeBinFull before).driveLamps

/-! ### RESUME (R142) -/

/-- Step 1 of RESUME: the in-flight list is emptied from head to tail, with a RESUME_FLUSH restart request for each
COLLATE entry (R62). -/
def Work.flushInFlight (w : Work) : Work :=
  (w.setArb { w.arb with inFlight := [] }).each (fun (x : Work) (e : InFlight) => x.requestFor e .resumeFlush)
    w.arb.inFlight

/-- The four steps of RESUME (R142): flush, reissue, TRANSPORT STOP deasserted, the resume target. The pending purges of
step 2 start with the step's settling, which comes after (R87). -/
def Work.resume (w : Work) (target : ResumeTarget) : Work :=
  (w.flushInFlight.reissueVolume.reissueDelivery).enterTarget target

/-! ### Resets -/

/-- The Pack Register's reset (R26). -/
def PackRegister.cleared : PackRegister := { packs := [], queues := [], markers := [], serial := 0 }

/-- The shelf condition taken afresh from the input (R43). -/
def shelfOf (present : Bool) : Shelf := if present then .present else .empty

/-- Feed Staging's reset of one feed (R43): at RESET WORK a FAULTED feed becomes OFFLINE and the others keep their
state, at the other resets every feed is OFFLINE. -/
def FeedRec.reset (r : FeedRec) (keepState present : Bool) : FeedRec :=
  { state := if keepState && decide (r.state = .online) then .online else .offline
    queue := [], shelf := shelfOf present, wait := none, discard := false }

/-- Feed Staging's reset of feed `f` (R43). -/
def Work.resetFeed (keepState : Bool) (w : Work) (f : FeedId) : Work :=
  { w with feeds := w.feeds.set f (w.feeds[f].reset keepState w.pins.sheetPresent[f]) }

/-- Feed Staging's reset (R43). -/
def Work.resetFeeds (w : Work) (keepState : Bool) : Work := w.each (Work.resetFeed keepState) allFeeds

/-- A pocket's reset: at RESET WORK a pocket that is not EMPTY, at the other resets every pocket, goes PURGING with its
purge pending (R93). -/
def PocketRec.reset (r : PocketRec) (workOnly : Bool) : PocketRec :=
  if workOnly then
    (if r.state = .empty then r
     else { r with state := .purging, pack := none, purge := .pending, cause := .none, offset := false })
  else
    { r with state := .purging, pack := none, sheets := 0, thickness := 0, volume := 0, purge := .pending,
             cause := .none, offset := false }

/-- The Pocket Controller's reset of pocket `p` (R93). -/
def Work.resetPocket (workOnly : Bool) (w : Work) (p : PocketId) : Work :=
  { w with pockets := w.pockets.set p (w.pockets[p].reset workOnly) }

/-- The Pocket Controller's reset (R93). -/
def Work.resetPockets (w : Work) (workOnly : Bool) : Work := w.each (Work.resetPocket workOnly) allPockets

/-- A bin's reset: at RESET WORK its running flash ends, at the other resets it is at its defaults with fill 0
(R127). -/
def BinRec.reset (r : BinRec) (workOnly : Bool) (now : Time) : BinRec :=
  if workOnly then { r with flash := none } else BinRec.default now

/-- The Return Unit's reset of bin `b` (R127). -/
def Work.resetBin (workOnly : Bool) (w : Work) (b : BinId) : Work :=
  { w with ret := { w.ret with bins := w.ret.bins.set b (w.ret.bins[b].reset workOnly w.now) } }

/-- The Return Unit's reset of the bins (R127). -/
def Work.resetBins (w : Work) (workOnly : Bool) : Work := w.each (Work.resetBin workOnly) allBins

/-- What every reset does to the work (R26, R43, R46, R93, R111, R127, R163): packs, feeds, arbiter, pockets, staple
queue, delivery queue, mark and edit group; STARTING is entered with its reset kind (R190). -/
def Work.resetCommon (w : Work) (kind : ResetKind) : Work :=
  let workOnly := decide (kind = .work)
  let w1 : Work := { w with
    reg := PackRegister.cleared
    arb := { w.arb with inFlight := [], aLast := w.now, blockTimer := none, pick := none }
    stapler := { w.stapler with state := .idle, queue := [], work := none, command := none }
    ret := { w.ret with state := .idle, queue := [], delivery := none, command := none }
    tables := { w.tables with mark := none, group := none }
    run := { w.run with state := .starting kind false } }
  ((w1.resetFeeds workOnly).resetPockets workOnly).resetBins workOnly

/-- What the resets other than RESET WORK do besides: the tables, latches and staples remaining at their defaults
(R111, R163, R183). -/
def Work.resetDefaults (w : Work) : Work :=
  { w with
    tables := TableStore.default
    attn := { latches := Vector.replicate 15 false, output := false }
    stapler := { w.stapler with remaining := Settings.default.cartridgeSize } }

/-- The Link Port emptied at power-on and at the RESET pin (R176). -/
def LinkPort.cleared : LinkPort :=
  { receiver := .waiting, inbound := [], outbound := [], sending := none, held := [], hold := false, pacing := none,
    loopback := false, echoes := [], line := [], stalled := false, boundaries := 0 }

/-- The Link Port at RESET ALL: the record being sent is kept; the rest is emptied; a HOLD state that was on goes off
(R170, R176, assumption 10). -/
def LinkPort.resetAll (l : LinkPort) : LinkPort :=
  let l1 : LinkPort := { l with
    receiver := .waiting, inbound := [], outbound := if l.sending.isSome then l.outbound.take 1 else [], held := [],
    loopback := false, echoes := [] }
  if l.hold then l1.setHold false else l1

/-- Power-on and the RESET pin (R190, R191): the straps are read, every block is reset, STARTING is entered. -/
def Work.coldReset (w : Work) (kind : ResetKind) (straps : Straps) : Work :=
  let w1 : Work := { w.resetDefaults with
    link := { LinkPort.cleared with boundaries := w.link.boundaries }, run := { w.run with straps := straps } }
  w1.resetCommon kind

/-- RESET ALL (R176, R191). -/
def Work.resetAll (w : Work) : Work :=
  let w1 : Work := { w.resetDefaults with link := w.link.resetAll }
  w1.resetCommon .all

/-- RESET WORK (R191). -/
def Work.resetWork (w : Work) : Work := w.resetCommon .work

end Sys2Proof.Machine
end

