-- ==== Sys2Proof/Machine/Tables.lean ====
section
/-! DEFINITION. The Table Store at work: the apply-class rule (R146), the work checks (R91, R92, R121, R152), writing an
entry (R155) and what the owning blocks do when they meet the new values (R34, R39, R104, R106, R125, R158, R170), Table
Write, Table Read, the mark and the edit group (R154 to R162). -/

namespace Sys2Proof.Machine

/-! ### Checks 5 and 7 -/

/-- The STANDBY ONLY settings of the two agree (R146, R151). -/
def Settings.sameStandbyOnly (a b : Settings) : Bool :=
  decide ({ a with blockTime := b.blockTime, holdHigh := b.holdHigh, holdLow := b.holdLow, staplesLow := b.staplesLow,
                   noticeWait := b.noticeWait } = b)

/-- The write meets the apply-class rule for the run state (R146): in STANDBY always; elsewhere never for a Media or a
Pocket entry, and for the others if each STANDBY ONLY field is given the value it holds, after clamping. -/
def State.meetsApplyClass (s : State) (w : Staged) : Bool :=
  decide (s.run.state = .standby) || match w.ref, w.entry with
    | .media _, _ => false
    | .pocket _, _ => false
    | .feed f, .feed _ travel => decide (travel = s.tables.travel[f])
    | .settings, .settings v => v.sameStandbyOnly s.tables.settings
    | _, _ => true

/-- No live pack's generation is above the limit (R152). -/
def State.limitFits (s : State) (limit : Nat) : Bool := s.live.all fun h => decide ((s.pack h).gen ≤ limit)

/-- Every pocket numbered above `n` is EMPTY (R92). -/
def State.pocketsFit (s : State) (n : Nat) : Bool :=
  allPockets.all fun p => decide (p.val + 1 ≤ n) || decide (s.pockets[p].state = .empty)

/-- The capacity leaves a delivery under way into bin `b` the room it was given (R121). -/
def State.capacityFits (s : State) (b : BinId) (capacity : Nat) : Bool :=
  match s.ret.delivery with
  | none => true
  | some d => decide (d.bin ≠ b) || decide (s.ret.bins[b].fill + d.units ≤ capacity)

/-- The write passes the work checks (R91, R92, R121, R152), unchanged values included (assumption 12). -/
def State.passesWork (s : State) (w : Staged) : Bool :=
  match w.ref, w.entry with
  | .settings, .settings v => s.limitFits v.restartLimit && s.pocketsFit v.pocketsInService
  | .pocket p, .pocket inService =>
    inService || decide (s.pockets[p].state = .empty) || decide (s.pockets[p].state = .outOfService)
  | .bin b, .bin capacity _ _ => s.capacityFits b capacity
  | _, _ => true

/-! ### Writing -/

/-- A pocket written in or out of service (R91). -/
def PocketRec.serviceWritten (r : PocketRec) (inService : Bool) : PocketRec :=
  match r.state, inService with
  | .empty, false => { r with state := .outOfService, cause := .written }
  | .outOfService, true => r.emptied
  | _, _ => r

/-- A bin record whose writable fields are written; a write of the lamp mode ends a running flash (R113, R125,
assumption 15). -/
def BinRec.written (r : BinRec) (capacity : Nat) (inService : Bool) (mode : LampMode) : BinRec :=
  { r with capacity := capacity, inService := inService, lampMode := mode, flash := none }

/-- A feed record whose state is written (R34). -/
def FeedRec.written (r : FeedRec) (st : FeedState) : FeedRec := { r with state := st }

/-- The entry's writable fields take the values given (R155); a CARTRIDGE_SIZE below staples remaining lowers it in the
write itself (R106, R152). -/
def State.writeEntry (s : State) (w : Staged) : State :=
  match w.ref, w.entry with
  | .job j, .job e => { s with tables := { s.tables with jobs := s.tables.jobs.set j e } }
  | .cls c, .cls e => { s with tables := { s.tables with classes := s.tables.classes.set c e } }
  | .roster st, .roster c => { s with tables := { s.tables with roster := Sparse.put none s.tables.roster st c } }
  | .media m, .media t => { s with tables := { s.tables with media := s.tables.media.set m t } }
  | .feed f, .feed st travel =>
    { s with
      tables := { s.tables with travel := s.tables.travel.set f travel }
      feeds := s.feeds.set f (s.feeds[f].written st) }
  | .bin b, .bin capacity inService mode =>
    { s with ret := { s.ret with bins := s.ret.bins.set b (s.ret.bins[b].written capacity inService mode) } }
  | .settings, .settings v =>
    { s with
      tables := { s.tables with settings := v }
      stapler := { s.stapler with remaining := min s.stapler.remaining v.cartridgeSize } }
  | .mask, .mask m => { s with tables := { s.tables with masks := m } }
  | .pocket p, .pocket inService => { s with pockets := s.pockets.set p (s.pockets[p].serviceWritten inService) }
  | _, _ => s

/-- Every entry of a write, in order. -/
def State.writeAll (s : State) (ws : List Staged) : State := ws.foldl State.writeEntry s

/-- A feed that is not ONLINE after a write has no pending discard and no wait (R34, R40). -/
def Work.settleFeed (w : Work) (f : FeedId) : Work :=
  let r := w.feeds[f]
  if r.state = .online then w else w.setFeed f { r with discard := false, wait := none }

/-- A Settings write reaches the Stapler and the Link Port: staples remaining is compared with STAPLES_LOW (R104), and
the HOLD pair is judged (R170). -/
def Work.meetSettings (w : Work) : Work :=
  let w1 : Work := { w with link := w.link.judgeWrite w.tables.settings }
  w1.judgeStaples

/-- The write includes a Settings entry. -/
def writesSettings (ws : List Staged) : Bool := ws.any fun x => decide (x.ref = .settings)

/-- The written entry's feed, class or pocket brings an occasion for a release decision: a feed's state changes, an
order policy is written (assumption 16), a pocket goes into or out of service (R47, R91). The decision is made at the
write, and a Settings write that moves POCKETS_IN_SERVICE brings none (assumption 37). -/
def occasionOf (before after : State) (x : Staged) : Bool :=
  match x.ref with
  | .feed f => decide (before.feeds[f].state ≠ after.feeds[f].state)
  | .cls _ => true
  | .pocket p => decide (before.pockets[p].state ≠ after.pockets[p].state)
  | _ => false

/-- The owning blocks meet the final values of a write taken from `before`, as one occasion (R155, R161, assumption
13); a mark on a written entry is cleared (R158). -/
def Work.meetWrite (w : Work) (before : State) (ws : List Staged) : Work :=
  let w1 := (w.each (fun (x : Work) (y : Staged) => x.touch y.ref) ws).occasionIf
    (ws.any fun x => occasionOf before w.toState x)
  let w2 := w1.each Work.settleFeed allFeeds
  if writesSettings ws then w2.meetSettings else w2

/-- The entry writes are taken in one step (R155, R161), and the work goes on from there. -/
def Work.takeWrites (w : Work) (ws : List Staged) : Work :=
  let w1 : Work := { w with toState := w.toState.writeAll ws }
  (w1.meetWrite w.toState ws).settle w.toState

/-! ### Checks 5 to 7 over a whole write -/

/-- Check 7 over the writes, each with those before it taken as written: the index of the first that fails (R154). -/
def firstInUse : State → List Staged → Option Nat
  | _, [] => none
  | s, w :: rest => if s.passesWork w then firstInUse (s.writeEntry w) rest else some w.index

/-- Checks 5, 6 and 7 of R154, each made for every entry before the next: the refusal with the failing index. -/
def State.refuses (s : State) (items : List WriteItem) : Option (Status × Nat) :=
  match items.find? fun x => !s.meetsApplyClass x.write with
  | some x => some (.wrongState, x.write.index)
  | none => match items.find? fun x => !x.defined with
    | some x => some (.badValue, x.write.index)
    | none => (firstInUse s (items.map WriteItem.write)).map fun i => (.inUse, i)

/-! ### Table Write (R154, R155, R160) -/

/-- The previous contents of each entry written (R155). -/
def State.previous (s : State) (ws : List Staged) : List Byte := ws.flatMap fun w => s.entryBytes w.ref

/-- A Table Write that passes every check, outside an edit group: written (R155). -/
def Work.writeNow (w : Work) (status : Status) (clamped : Bool) (ws : List Staged) : Work :=
  (w.takeWrites ws).answer kindTableWrite status (byteOf ws.length :: w.previous ws) { clamped := clamped }

/-- A Table Write that passes every check, in an open edit group: staged if the list has room (R160). -/
def Work.stage (w : Work) (staged : List Staged) (status : Status) (clamped : Bool) (ws : List Staged) : Work :=
  if Config.groupSize < staged.length + ws.length then w.answer kindTableWrite .groupFull
  else
    let w1 : Work := { w with tables := { w.tables with group := some (staged ++ ws) } }
    w1.answer kindTableWrite status (byteOf ws.length :: w.previous ws) { clamped := clamped, staged := true }

/-- A Table Write whose checks 1 to 4 have passed: checks 5 to 7, then written or, in an open group and not broadcast,
staged (R154, R160). A refusal carries no note, though a quantity was clamped before the checks (assumption 32). -/
def Work.tableWriteItems (w : Work) (bcast short : Bool) (items : List WriteItem) : Work :=
  match w.refuses items with
  | some (status, index) => w.answer kindTableWrite status (bytesOf index)
  | none =>
    let ws := items.map WriteItem.write
    let status : Status := if short then .partialRun else .accepted
    let clamped := items.any WriteItem.clamped
    match bcast, w.tables.group with
    | false, some staged => w.stage staged status clamped ws
    | _, _ => w.writeNow status clamped ws

/-- A Table Write (R154). -/
def Work.tableWrite (w : Work) (bcast : Bool) (bank index : Nat) (entries : List Byte) : Work :=
  if !isBank bank then w.answer kindTableWrite .badValue
  else if bank = 9 then w.answer kindTableWrite .readOnly
  else if !isIndex bank index then w.answer kindTableWrite .badIndex
  else if !countSuits bank entries then w.answer kindTableWrite .badValue
  else
    let n := entries.length / bankEntrySize bank
    let items := writeItems bank index n entries
    w.tableWriteItems bcast (decide (items.length < n)) items

/-! ### Table Read, Table Mark, Marked Write (R156 to R159) -/

/-- A Table Read (R156). -/
def Work.tableRead (w : Work) (bank index count : Nat) : Work :=
  if !isBank bank then w.answer kindTableRead .badValue
  else if !isIndex bank index then w.answer kindTableRead .badIndex
  else
    let refs := refsFrom bank index (min count (bankReadLimit bank))
    w.answer kindTableRead (if refs.length = count then .accepted else .partialRun)
      ([byteOf bank] ++ bytesOf index ++ [byteOf refs.length] ++ refs.flatMap fun x => w.entryBytes x.2)

/-- A Table Mark (R157). -/
def Work.tableMark (w : Work) (bank index : Nat) : Work :=
  if !isBank bank then w.answer kindTableMark .badValue
  else match refAt bank index with
    | none => w.answer kindTableMark .badIndex
    | some r =>
      let w1 : Work := { w with tables := { w.tables with mark := some r } }
      w1.answer kindTableMark .accepted ([byteOf bank] ++ bytesOf index ++ w.entryBytes r)

/-- The mark is cleared (R158). -/
def Work.clearMark (w : Work) : Work := { w with tables := { w.tables with mark := none } }

/-- A Marked Write whose bank, index and mark checks have passed (R159). A refusal carries no note, though a quantity was
clamped before the checks (assumption 32). -/
def Work.markedWriteItem (w : Work) (item : WriteItem) : Work :=
  match w.refuses [item] with
  | some (status, index) => w.answer kindMarkedWrite status (bytesOf index)
  | none =>
    (w.takeWrites [item.write]).answer kindMarkedWrite .accepted (w.entryBytes item.write.ref)
      { clamped := item.clamped }

/-- A Marked Write, which clears the mark whatever its outcome (R159). -/
def Work.markedWrite (w : Work) (bank index : Nat) (entry : List Byte) : Work :=
  (if !isBank bank then w.answer kindMarkedWrite .badValue
   else if bank = 9 then w.answer kindMarkedWrite .readOnly
   else match refAt bank index with
     | none => w.answer kindMarkedWrite .badIndex
     | some r =>
       if w.tables.mark = some r then w.markedWriteItem (writeItem index r entry)
       else w.answer kindMarkedWrite .markLost).clearMark

/-! ### The edit group (R160 to R162) -/

/-- The group takes the value given. -/
def Work.setGroup (w : Work) (g : Option (List Staged)) : Work := { w with tables := { w.tables with group := g } }

/-- GROUP OPEN (R160). -/
def Work.groupOpen (w : Work) : Work :=
  match w.tables.group with
  | some _ => w.answer kindGroup .wrongState
  | none => (w.setGroup (some [])).answer kindGroup .accepted

/-- The first staged write that fails a check at the close, with each earlier one taken as applied: the refusal, its
position and its index (R161). Check 6 was passed at staging, and its codes are held read. -/
def firstRefused : State → Nat → List Staged → Option (Status × Nat × Nat)
  | _, _, [] => none
  | s, position, w :: rest =>
    if !s.meetsApplyClass w then some (.wrongState, position, w.index)
    else if !s.passesWork w then some (.inUse, position, w.index)
    else firstRefused (s.writeEntry w) (position + 1) rest

/-- GROUP CLOSE (R161). -/
def Work.groupClose (w : Work) : Work :=
  match w.tables.group with
  | none => w.answer kindGroup .noGroup
  | some ws =>
    let w1 := w.setGroup none
    match firstRefused w.toState 1 ws with
    | some (status, position, index) => w1.answer kindGroup status (byteOf position :: bytesOf index)
    | none => (w1.takeWrites ws).answer kindGroup .accepted [byteOf ws.length]

/-- GROUP DISCARD (R162). -/
def Work.groupDiscard (w : Work) : Work :=
  match w.tables.group with
  | none => w.answer kindGroup .noGroup
  | some ws => (w.setGroup none).answer kindGroup .accepted [byteOf ws.length]

end Sys2Proof.Machine
end

