-- ==== Sys2Proof/Machine/SheetFamily.lean ====
section
/-! DEFINITION. Feed Staging's commands: Sheet Notice, FEED FLUSH, the sheet-present inputs and the expiry of an
unannounced-sheet wait (R30 to R40). -/

namespace Sys2Proof.Machine

/-- What a command answers: every command has its effect, in every state. -/
abbrev Answer := Host.Outcome State Fault Refusal

/-- An event of the machine side: its effect where `b` holds; where it does not, the event cannot come, or is one the
rules ignore, and nothing changes (assumption 6). -/
def State.eventIf (s : State) (b : Bool) (body : Work → Work) : Answer :=
  .next (if b then (body (Work.of s)).finish else s)

/-! ### Sheet Notice (R30 to R33) -/

/-- A Sheet Notice's names, where they are all in range (R31 check 2). -/
structure NoticeFields where
  feed : FeedId
  entry : StagingEntry
  deriving DecidableEq, Repr

/-- The names and numbers of a Sheet Notice, if they are in range: feed 1 to 4, handle 1 to 255, page 1 to 60,
generation 0 to 3, tag 0 to 4095 (R31 check 2). -/
def noticeFields (feed handle page generation : Byte) (tag : Half) : Option NoticeFields :=
  match named 4 feed.toNat, named 255 handle.toNat with
  | some f, some h =>
    if 1 ≤ page.toNat ∧ page.toNat ≤ 60 ∧ generation.toNat ≤ 3 ∧ tag.toNat ≤ 4095 then
      some ⟨f, ⟨h, page.toNat, generation.toNat, tag.setWidth 12⟩⟩
    else none
  | _, _ => none

/-- The run states that take a Sheet Notice (R30, R31 check 1). -/
def State.takesNotices (s : State) : Bool :=
  match s.run.state with
  | .run => true
  | .pause => true
  | .stopping _ => !s.bypassing
  | .halt _ _ => !s.bypassing
  | .standby => false
  | .bypass => false
  | .starting _ _ => false

/-- Checks 1 to 6 of R31: the refusal, or the entry and its feed. -/
def State.judgeNotice (s : State) (feed handle page generation : Byte) (tag : Half) : Except Status NoticeFields :=
  if !s.takesNotices then .error .wrongState
  else match noticeFields feed handle page generation tag with
    | none => .error .badValue
    | some n =>
      let r := s.pack n.entry.handle
      if s.feeds[n.feed].state ≠ .online then .error .feedOffline
      else if Config.stagingSize ≤ s.feeds[n.feed].queue.length then .error .feedFull
      else if r.state = .free ∨ r.state = .disposing then .error .noSuchPack
      else if r.gen < n.entry.gen then .error .badGeneration
      else .ok n

/-- The data of a refused Sheet Notice: feed, handle, page, queue length, pack generation (R33, R195). -/
def State.noticeData (s : State) (feed handle page : Byte) : List Byte :=
  let length := match named 4 feed.toNat with
    | none => 0
    | some f => s.feeds[f].queue.length
  let gen := match named 255 handle.toNat with
    | none => 0
    | some h => (s.pack h).gen
  [feed, handle, page, byteOf length, byteOf gen]

/-- The entry joins the tail of its feed's queue; a wait is stopped and a pending discard cancelled (R32). -/
def Work.acceptNotice (w : Work) (n : NoticeFields) : Work :=
  let r := w.feeds[n.feed]
  w.setFeed n.feed { r with queue := r.queue ++ [n.entry], wait := none, discard := false }

/-- A Sheet Notice taken (R31 to R33): an accepted one has no Result. -/
def Work.sheetNotice (w : Work) (feed handle page generation : Byte) (tag : Half) : Work :=
  match w.judgeNotice feed handle page generation tag with
  | .error status => w.answer kindSheetNotice status (w.noticeData feed handle page)
  | .ok n => (w.acceptNotice n).settle w.toState

/-- SHEET_NOTICE (R31). -/
def execSheetNotice (bcast : Bool) (feed handle page generation : Byte) (tag : Half) (s : State) : Answer :=
  .next (s.takeRecord ⟨bcast, kindSheetNotice, [feed, handle, page, generation, lowByte tag, highByte tag]⟩
    fun w => w.sheetNotice feed handle page generation tag)

/-! ### FEED FLUSH (R36) -/

/-- FEED FLUSH taken (R36): the wait starts again with the step's settling where its conditions hold. -/
def Work.feedFlush (w : Work) (feed : Byte) : Work :=
  match named 4 feed.toNat with
  | none => w.answer kindControl .badValue
  | some f =>
    ((w.flushFeed f).settle w.toState).answer kindControl .accepted [byteOf w.feeds[f].queue.length]

/-- FEED_FLUSH (R36). -/
def execFeedFlush (bcast : Bool) (feed : Byte) (s : State) : Answer :=
  .next (s.takeRecord (controlRecord bcast 8 feed) fun w => w.feedFlush feed)

/-! ### The sheet-present inputs (R37) -/

/-- The level of feed `f`'s sheet-present input is held. -/
def Work.setPresent (w : Work) (f : FeedId) (b : Bool) : Work :=
  { w with pins := { w.pins with sheetPresent := w.pins.sheetPresent.set f b } }

/-- The shelf condition when the input goes active: EMPTY becomes PRESENT, CLEARING stays (R37). -/
def Shelf.activated : Shelf → Shelf
  | .empty => .present
  | .present => .present
  | .clearing => .clearing

/-- The sheet-present input of feed `f` goes active (R37). -/
def Work.sheetCame (w : Work) (f : FeedId) : Work :=
  let r := w.feeds[f]
  ((w.setPresent f true).setFeed f { r with shelf := r.shelf.activated }).settle w.toState

/-- SHEET_PRESENT_ACTIVE (R37). -/
def execSheetPresentActive (feed : FeedId) (s : State) : Answer :=
  s.eventIf (!s.pins.sheetPresent[feed]) fun w => w.sheetCame feed

/-- The sheet-present input of feed `f` goes inactive: the shelf is EMPTY and a pending discard is cancelled
(R37, R40). -/
def Work.sheetLeft (w : Work) (f : FeedId) : Work :=
  let r := w.feeds[f]
  ((w.setPresent f false).setFeed f { r with shelf := .empty, discard := false }).settle w.toState

/-- SHEET_PRESENT_INACTIVE (R37). -/
def execSheetPresentInactive (feed : FeedId) (s : State) : Answer :=
  s.eventIf s.pins.sheetPresent[feed] fun w => w.sheetLeft feed

/-! ### The unannounced-sheet wait (R39, R40) -/

/-- Feed `f`'s wait runs and the time elapsed since its start has reached NOTICE_WAIT (R39). -/
def State.waitExpired (s : State) (f : FeedId) : Bool :=
  match s.feeds[f].wait with
  | none => false
  | some start => s.waitHolds f && decide ((s.tables.settings.noticeWait : Int) ≤ elapsed s.now start)

/-- The wait expires: a pending discard is set on the feed (R40). -/
def Work.expireWait (w : Work) (f : FeedId) : Work :=
  (w.setFeed f { w.feeds[f] with wait := none, discard := true }).settle w.toState

/-- UNANNOUNCED_SHEET_WAIT_EXPIRY (R40). -/
def execUnannouncedSheetWaitExpiry (feed : FeedId) (s : State) : Answer :=
  s.eventIf (s.waitExpired feed) fun w => w.expireWait feed

end Sys2Proof.Machine
end

