-- ==== Sys2Proof/Machine/ControlFamily.lean ====
section
/-! DEFINITION. Run Control's commands: RUN, PAUSE, STANDBY, BYPASS, RESUME (R185 to R189), the resets (R190, R191), the
STOP character and the STOP input (R165, R187). -/

namespace Sys2Proof.Machine

/-- A Control action is refused. -/
def Work.refuseControl (w : Work) (status : Status) : Work := w.answer kindControl status

/-- The run state has been changed by an accepted action: the work goes on, and the Result reports the run state then
entered (R185, R186, R188). -/
def Work.entered (w : Work) (before : State) : Work :=
  let w1 := w.settle before
  w1.answer kindControl .accepted [runCode (runCodeOf w1.run.state)]

/-- Control RUN (R185). -/
def Work.controlRun (w : Work) : Work :=
  match w.run.state with
  | .standby => (w.setRunState .run).entered w.toState
  | .pause => (w.setRunState .run).entered w.toState
  | _ => w.refuseControl .wrongState

/-- RUN (R185). -/
def execRun (bcast : Bool) (argument : Byte) (s : State) : Answer :=
  .next (s.takeRecord (controlRecord bcast 1 argument) Work.controlRun)

/-- Control PAUSE (R185). -/
def Work.controlPause (w : Work) : Work :=
  match w.run.state with
  | .run => (w.setRunState .pause).entered w.toState
  | _ => w.refuseControl .wrongState

/-- PAUSE (R185). -/
def execPause (bcast : Bool) (argument : Byte) (s : State) : Answer :=
  .next (s.takeRecord (controlRecord bcast 2 argument) Work.controlPause)

/-- Control STANDBY (R185, R186). -/
def Work.controlStandby (w : Work) : Work :=
  match w.run.state with
  | .run => (w.setRunState (.stopping .run)).entered w.toState
  | .pause => (w.setRunState (.stopping .pause)).entered w.toState
  | .bypass => (w.setRunState (.stopping .bypass)).entered w.toState
  | _ => w.refuseControl .wrongState

/-- STANDBY (R186). -/
def execStandby (bcast : Bool) (argument : Byte) (s : State) : Answer :=
  .next (s.takeRecord (controlRecord bcast 3 argument) Work.controlStandby)

/-- Control BYPASS (R185, R189). -/
def Work.controlBypass (w : Work) : Work :=
  match w.run.state with
  | .standby => w.enterBypass.entered w.toState
  | _ => w.refuseControl .wrongState

/-- BYPASS (R189). -/
def execBypass (bcast : Bool) (argument : Byte) (s : State) : Answer :=
  .next (s.takeRecord (controlRecord bcast 4 argument) Work.controlBypass)

/-- Control RESUME (R142, R188). -/
def Work.controlResume (w : Work) : Work :=
  match w.run.state with
  | .halt _ target => if w.pins.stopHigh then (w.resume target).entered w.toState else w.refuseControl .wrongState
  | _ => w.refuseControl .wrongState

/-- RESUME (R188). -/
def execResume (bcast : Bool) (argument : Byte) (s : State) : Answer :=
  .next (s.takeRecord (controlRecord bcast 5 argument) Work.controlResume)

/-! ### Resets -/

/-- RESET_WORK (R191). -/
def execResetWork (bcast : Bool) (argument : Byte) (s : State) : Answer :=
  .next (s.takeRecord (controlRecord bcast 11 argument)
    fun w => (w.resetWork.settle w.toState).answer kindControl .accepted)

/-- RESET_ALL (R191). -/
def execResetAll (bcast : Bool) (argument : Byte) (s : State) : Answer :=
  .next (s.takeRecord (controlRecord bcast 12 argument)
    fun w => (w.resetAll.settle w.toState).answer kindControl .accepted)

/-- POWER_ON (R190): the time base starts and the merge gate stands at reject (R1, assumption 2). -/
def execPowerOn (straps : Straps) (s : State) : Answer :=
  s.eventIf true fun w =>
    ((({ w with now := 0 } : Work).setGate .reject).coldReset .powerOn straps).settle w.toState

/-- RESET_PIN (R191): as power-on, the merge gate at reject with it (assumption 2), but the time base keeps counting. -/
def execResetPin (straps : Straps) (s : State) : Answer :=
  s.eventIf true fun w => ((w.setGate .reject).coldReset .pin straps).settle w.toState

/-! ### STOP -/

/-- STOP_CHARACTER (R165): echoed in loopback (R175), the partial record discarded, STOP taken. -/
def execStopCharacter (s : State) : Answer :=
  s.eventIf true fun w =>
    (({ w with link := w.link.echo ⟨true, 0xE5⟩ } : Work).setReceiver .waiting).takeStop.settle w.toState

/-- The level of the STOP input is held. -/
def Work.setStop (w : Work) (high : Bool) : Work := { w with pins := { w.pins with stopHigh := high } }

/-- STOP_INPUT_FALL (R187). -/
def execStopInputFall (s : State) : Answer :=
  s.eventIf s.pins.stopHigh fun w => (w.setStop false).takeStop.settle w.toState

/-- STOP_INPUT_RISE (R187): it changes no state; it makes RESUME possible. -/
def execStopInputRise (s : State) : Answer := s.eventIf (!s.pins.stopHigh) fun w => w.setStop true

end Sys2Proof.Machine
end

