-- ==== Sys2Proof/Machine/LinkFamily.lean ====
section
/-! DEFINITION. The Link Port's and the Record Handler's own commands (R165 to R175), and Status Read (R182). -/

namespace Sys2Proof.Machine

/-- STATUS_READ (R182): the Result is formed, then the latches are cleared. -/
def execStatusRead (bcast : Bool) (s : State) : Answer :=
  .next (s.takeRecord ⟨bcast, kindStatusRead, []⟩
    fun w => w.clearLatches.answer kindStatusRead .accepted w.statusBytes)

/-- UNDEFINED_RECORD_KIND (R171): refused by the Record Handler. -/
def execUndefinedRecordKind (bcast : Bool) (kind : Byte) (payload : List Byte) (s : State) : Answer :=
  .next (s.takeRecord ⟨bcast, kind, payload⟩ fun w => w.answer kind .badValue)

/-- The record of an undefined action (R193). -/
def actionRecord (bcast : Bool) : ActionRecord → Record
  | .group action => groupRecord bcast action
  | .control action argument => controlRecord bcast action argument

/-- UNDEFINED_ACTION_CODE (R171, R193). -/
def execUndefinedActionCode (bcast : Bool) (record : ActionRecord) (s : State) : Answer :=
  .next (s.takeRecord (actionRecord bcast record) fun w => w.answer (actionRecord bcast record).kind .badValue)

/-- The loopback flag takes a value (R175). -/
def Work.setLoopback (w : Work) (on : Bool) : Work := { w with link := { w.link with loopback := on } }

/-- LOOPBACK_ON (R175). -/
def execLoopbackOn (bcast : Bool) (argument : Byte) (s : State) : Answer :=
  .next (s.takeRecord (controlRecord bcast 9 argument) fun w => (w.setLoopback true).answer kindControl .accepted)

/-- LOOPBACK_OFF (R175). -/
def execLoopbackOff (bcast : Bool) (argument : Byte) (s : State) : Answer :=
  .next (s.takeRecord (controlRecord bcast 10 argument) fun w => (w.setLoopback false).answer kindControl .accepted)

/-- RECORD_COMPLETE (R166, R169): the record's last character is echoed in loopback (R175), the receiver goes WAITING
and the record is offered to the inbound queue (assumption 5). -/
def execRecordComplete (bcast : Bool) (kind : Byte) (payload : List Byte) (s : State) : Answer :=
  .next ((Work.of (s.completed ⟨bcast, kind, payload⟩)).offer ⟨bcast, kind, payload⟩).finish

/-- LINE_ERROR (R164, R168): the receiver checks the parity and the stop bit of the character received. -/
def execLineError (checks : CheckBits) (mark : Bool) (data : Byte) (s : State) : Answer :=
  s.eventIf true fun w => w.receive (frameSound (frameWith checks ⟨mark, data⟩)) mark data

/-- BREAK (R164, R168): the partial record is discarded; nothing is latched, answered or echoed. Which low line is one,
`instrOfLine` says. -/
def execLineBreak (s : State) : Answer :=
  s.eventIf true fun w => w.setReceiver .waiting

/-- INBOUND_CHARACTER_TAKEN (R166). -/
def execInboundCharacterTaken (mark : Bool) (data : Byte) (s : State) : Answer :=
  s.eventIf true fun w => w.receive true mark data

/-- RECORD_SENT (R174): comes only while a record is being sent, and not where all its characters left are held back by
a pacing character or an echo. -/
def execRecordSent (s : State) : Answer :=
  s.eventIf (s.link.sending.isSome && !s.link.stalled) fun w => { w with link := w.link.recordSent w.run.straps.station }

/-- A character that waited ahead of the record characters is sent (R174). -/
def Work.sendAside (w : Work) (l : LinkPort) (c : LineChar) : Work :=
  { w with link := l.sendAside w.run.straps.station w.now c }

/-- PACING_CHARACTER_SENT (R170, R174): comes only while one is due. -/
def execPacingCharacterSent (s : State) : Answer :=
  match s.link.pacing with
  | none => .next s
  | some x => s.eventIf true fun w => w.sendAside { w.link with pacing := none } x.character

/-- LOOPBACK_ECHO_SENT (R174, R175): comes only while an echo waits and no pacing character, which goes first, is due. -/
def execLoopbackEchoSent (s : State) : Answer :=
  match s.link.pacing, s.link.echoes with
  | none, c :: rest => s.eventIf true fun w => w.sendAside { w.link with echoes := rest } c
  | _, _ => .next s

end Sys2Proof.Machine
end

