-- ==== Sys2Proof/Machine/MechFamily.lean ====
section
/-! DEFINITION. The commands of the Pocket Controller, the Stapler and the Return Unit: their done inputs, their timeouts,
the cartridge, the bins, and CLEAR STAPLER and CLEAR RETURN (R88, R89, R99 to R105, R117 to R125). -/

namespace Sys2Proof.Machine

/-- An operation begun at `start` with this allowance, in ms, has run it out (assumption 7). -/
def State.ranOut (s : State) (start : Time) (allowance : Nat) : Bool := decide ((allowance : Int) ≤ elapsed s.now start)

/-! ### Purges (R88, R89) -/

/-- The purge of pocket `p` has ended and left the pocket record `r`: the purge-ended transition of the pack it held
(R15, R88, R89). -/
def Work.endPurge (w : Work) (p : PocketId) (r : PocketRec) : Work :=
  let w1 := w.setPocket p r
  match w.pockets[p].pack with
  | none => w1
  | some h => w1.purgeEnded h

/-- PURGE_DONE (R88): ignored unless the pocket's purge is running. -/
def execPurgeDone (pocket : PocketId) (s : State) : Answer :=
  s.eventIf (s.purgeRunning pocket) fun w => (w.endPurge pocket w.pockets[pocket].emptied).settle w.toState

/-- A pocket whose purge timed out (R89): its counts keep their values (assumption 20). -/
def PocketRec.timedOut (r : PocketRec) : PocketRec :=
  { r with state := .outOfService, pack := none, purge := .none, cause := .fault, offset := false }

/-- The purge of pocket `p` is running and its allowance has passed (R89). -/
def State.purgeRanOut (s : State) (p : PocketId) : Bool :=
  s.purgeRunning p && s.ranOut s.pockets[p].purgeStart s.pockets[p].purgeAllowance

/-- PURGE_TIMEOUT (R89). -/
def execPurgeTimeout (pocket : PocketId) (s : State) : Answer :=
  s.eventIf (s.purgeRanOut pocket) fun w =>
    ((w.endPurge pocket w.pockets[pocket].timedOut).latch .mechFault).settle w.toState

/-! ### The Stapler (R99 to R105) -/

/-- STAPLE_DONE (R99): ignored unless an operation is in flight. -/
def execStapleDone (s : State) : Answer :=
  match s.volumeInFlight with
  | none => .next s
  | some k => s.eventIf true fun w => (w.volumeDone k).settle w.toState

/-- The volume operation in flight whose allowance has passed (R100). -/
def State.lateVolume (s : State) : Option WorkRec :=
  match s.volumeInFlight with
  | none => none
  | some k => if s.ranOut k.start k.allowance then some k else none

/-- STAPLE_TIMEOUT (R100). -/
def execStapleTimeout (s : State) : Answer :=
  match s.lateVolume with
  | none => .next s
  | some k => s.eventIf true fun w => (w.volumeTimedOut k).settle w.toState

/-- CARTRIDGE_FITTED (R105). -/
def execCartridgeFitted (s : State) : Answer := s.eventIf true fun w => w.fitCartridge.settle w.toState

/-- CLEAR STAPLER taken (R101). -/
def Work.clearStapler (w : Work) : Work :=
  if w.stapler.state = .faulted then
    ((w.setStapler .idle w.stapler.work none).settle w.toState).answer kindControl .accepted
  else w.answer kindControl .wrongState

/-- CLEAR_STAPLER (R101). -/
def execClearStapler (bcast : Bool) (argument : Byte) (s : State) : Answer :=
  .next (s.takeRecord (controlRecord bcast 6 argument) Work.clearStapler)

/-! ### The Return Unit (R117 to R119) -/

/-- EJECT_DONE (R117): ignored unless a delivery is in flight. -/
def execEjectDone (s : State) : Answer :=
  match s.deliveryInFlight with
  | none => .next s
  | some d => s.eventIf true fun w => (w.completeDelivery d).settle w.toState

/-- The delivery in flight whose allowance has passed (R118). -/
def State.lateDelivery (s : State) : Option DeliveryRec :=
  match s.deliveryInFlight with
  | none => none
  | some d => if s.ranOut d.start d.allowance then some d else none

/-- EJECT_TIMEOUT (R118). -/
def execEjectTimeout (s : State) : Answer :=
  s.eventIf s.lateDelivery.isSome fun w => w.deliveryTimedOut.settle w.toState

/-- What CLEAR RETURN does to the delivery `d` with an outcome code: DELIVERED 1, LOST 2 (R119, R193). -/
def Work.settleDelivery (w : Work) (d : DeliveryRec) (outcome : Byte) : Option Work :=
  if outcome = 1 then some (w.completeDelivery d)
  else if outcome = 2 then some (w.loseDelivery d)
  else none

/-- CLEAR RETURN taken (R119): a FAULTED Return Unit holds the delivery that timed out; the state is checked
before the outcome. -/
def Work.clearReturn (w : Work) (outcome : Byte) : Work :=
  match w.ret.state, w.ret.delivery with
  | .faulted, some d =>
    match w.settleDelivery d outcome with
    | none => w.answer kindControl .badValue
    | some w1 => (w1.settle w.toState).answer kindControl .accepted
  | _, _ => w.answer kindControl .wrongState

/-- CLEAR_RETURN (R119). -/
def execClearReturn (bcast : Bool) (outcome : Byte) (s : State) : Answer :=
  .next (s.takeRecord (controlRecord bcast 7 outcome) fun w => w.clearReturn outcome)

/-! ### The bins (R122, R125) -/

/-- BIN_CLEARED (R122). -/
def execBinCleared (bin : BinId) (s : State) : Answer :=
  s.eventIf true fun w => (w.setBin bin { w.ret.bins[bin] with fill := 0 }).settle w.toState

/-- The flash of bin `b` runs and its 400 ms have passed (R125, assumption 7). -/
def State.flashOver (s : State) (b : BinId) : Bool :=
  match s.ret.bins[b].flash with
  | none => false
  | some start => decide (Config.flashTime ≤ elapsed s.now start)

/-- FLASH_END (R125). -/
def execFlashEnd (bin : BinId) (s : State) : Answer :=
  s.eventIf (s.flashOver bin) fun w => w.setBin bin { w.ret.bins[bin] with flash := none }

end Sys2Proof.Machine
end

