-- ==== Sys2Proof/Machine/MergeFamily.lean ====
section
/-! DEFINITION. The Merge Arbiter's commands: an arrival (R55 to R59), a deadline expiry (R60, R61), the block timer's
expiry (R64 to R68), a release that comes due (R53). -/

namespace Sys2Proof.Machine

/-- An arrival taken, an occasion for a release decision (R47): in HALT it is gated to reject and not compared (R59),
and the decision can only drop a break pick (R65); else it is matched (R55 to R58). -/
def Work.takeArrival (w : Work) (tag : Option TagNum) : Work :=
  if w.halted then ((w.setGate .reject).occasionIf true).decideReleases
  else ((w.matchArrival tag).occasionIf true).settle w.toState

/-- ARRIVAL (R56). -/
def execArrival (tag : Option TagNum) (s : State) : Answer := s.eventIf true fun w => w.takeArrival tag

/-- Deadlines are watched in RUN, PAUSE, STOPPING and BYPASS (R60). -/
def State.watchesDeadlines (s : State) : Bool :=
  match s.run.state with
  | .run => true
  | .pause => true
  | .stopping _ => true
  | .bypass => true
  | .standby => false
  | .halt _ _ => false
  | .starting _ _ => false

/-- The head entry whose deadline the present time has reached, where deadlines are watched (R60, assumption 7). -/
def State.lateHead (s : State) : Option InFlight :=
  match s.arb.inFlight with
  | [] => none
  | e :: _ => if s.watchesDeadlines && !isBefore s.now e.deadline then some e else none

/-- The head's deadline expires (R61, R69): the entry into HALT is taken before the restart request (R141 lets either
be first, assumption 31). -/
def Work.expireDeadline (w : Work) (e : InFlight) : Work :=
  ((((w.dropHead.requestHalt .jam).latch .jam).faultFeed e.feed).requestFor e .missingSheet).settle w.toState

/-- DEADLINE_EXPIRY (R61). -/
def execDeadlineExpiry (s : State) : Answer :=
  match s.lateHead with
  | none => .next s
  | some e => s.eventIf true fun w => w.expireDeadline e

/-- The block timer runs and the time elapsed since its start has reached BLOCK_TIME, in seconds (R63). -/
def State.blockExpired (s : State) : Bool :=
  match s.arb.blockTimer with
  | none => false
  | some start => s.blockHolds && decide ((s.tables.settings.blockTime * 1000 : Int) ≤ elapsed s.now start)

/-- BLOCK_TIMER_EXPIRY (R64): the first break action whose condition holds; the timer starts again. -/
def execBlockTimerExpiry (s : State) : Answer :=
  s.eventIf s.blockExpired fun w => w.restartTimer.breakBlock.settle w.toState

/-- RELEASE_COMES_DUE (R53): the occasion for a decision. -/
def execReleaseComesDue (s : State) : Answer := s.eventIf true fun w => (w.occasionIf true).settle w.toState

end Sys2Proof.Machine
end

