-- ==== Sys2Proof/Machine/Budget.lean ====
section
/-! DEFINITION. The stack budget (R80 to R84) and the checks of an announcement (R16, R17). -/

namespace Sys2Proof.Machine

/-- A budget that fits: total thickness, volume plan, bin units, and whether the split ran past four volumes. -/
structure Budget where
  total : Nat
  plan : Plan
  units : Nat
  splitLimit : Bool
  deriving DecidableEq, Repr

/-- The outcome of the stack budget (R80). -/
inductive BudgetOutcome where
  | fits (b : Budget)
  | tooThick (total : Nat)
  | tooThickToStaple (total : Nat)
  deriving DecidableEq, Repr

/-- Stage 1: the total thickness (R81). -/
def totalThickness (pages cover body : Nat) : Nat := cover + (pages - 1) * body

/-- Stage 4 from `page` on, with `rest` pages left to place and `running` in the volume being formed (R83). -/
def splitFrom (limit body : Nat) : Nat → Nat → Nat → List Nat
  | 0, page, _ => [page - 1]
  | rest + 1, page, running =>
    if running + body ≤ limit then splitFrom limit body rest (page + 1) (running + body)
    else (page - 1) :: splitFrom limit body rest (page + 1) body

/-- Stage 4: the greedy split's end pages (R83). -/
def greedySplit (limit pages cover body : Nat) : List Nat := splitFrom limit body (pages - 1) 2 cover

/-- Stage 5: the bin units (R84). -/
def binUnits (total : Nat) : Nat := (total + 99) / 100

/-- The stack budget of a pack of `pages` pages (R80 to R84): staple limit `s`, pocket limit `p`. -/
def stackBudget (pages cover body s p : Nat) (pattern : StaplePattern) (policy : OversizePolicy) : BudgetOutcome :=
  let t := totalThickness pages cover body
  let whole (stapled split : Bool) : BudgetOutcome := .fits ⟨t, ⟨[pages], stapled⟩, binUnits t, split⟩
  if p < t then .tooThick t
  else if pattern = .none then whole false false
  else if t ≤ s then whole true false
  else match policy with
    | .refuse => .tooThickToStaple t
    | .unstapled => whole false false
    | .split =>
      let ends := greedySplit s pages cover body
      if ends.length ≤ 4 then .fits ⟨t, ⟨ends, true⟩, binUnits t, false⟩ else whole false true

/-- What an announcement comes to (R16, R17): refused with a status and its data, or accepted with the record. -/
inductive Announcement where
  | refused (status : Status) (data : List Byte)
  | accepted (handle : Handle) (record : PackRec) (splitLimit : Bool)
  deriving DecidableEq, Repr

/-- The stack budget of an announcement under job entry `e`, from the tables as they stand (R80). -/
def State.budgetFor (s : State) (e : JobEntry) (pages : Nat) : BudgetOutcome :=
  stackBudget pages s.tables.media[e.cover] s.tables.media[e.body] s.tables.settings.stapleMax
    s.tables.settings.pocketMax e.pattern e.oversize

/-- The record an accepted announcement fills (R18). -/
def State.announcedRecord (s : State) (job : JobId) (student : StudentId) (cls : ClassId) (pages : Nat) (b : Budget) :
    PackRec :=
  let e := s.tables.jobs[job]
  let snap : Snapshot :=
    { cover := s.tables.media[e.cover], body := s.tables.media[e.body], pattern := e.pattern
      staplesOut := e.staplesOut, plan := b.plan }
  { state := .announced, job := job, student := student, cls := cls, pages := pages, serial := s.reg.serial, gen := 0,
    released := 0, received := 0, pocket := none, snap := snap, total := b.total, units := b.units,
    flags := ⟨false, snap.announcedUnstapled, false⟩ }

/-- Checks 1 to 7 of R17 on an announcement that names existing things. -/
def State.checkAnnounce (s : State) (h : Handle) (job : JobId) (student : StudentId) (pages : Nat) : Announcement :=
  let e := s.tables.jobs[job]
  if (s.pack h).state ≠ .free then .refused .handleInUse []
  else if !e.isOpen then .refused .jobClosed []
  else match s.rosterClass student with
    | none => .refused .notEnrolled []
    | some c =>
      if s.tables.classes[c].bin = none then .refused .noBin []
      else if pages < 1 ∨ 60 < pages then .refused .badValue []
      else match s.budgetFor e pages with
        | .tooThick t => .refused .tooThick (bytesOf t)
        | .tooThickToStaple t => .refused .tooThickToStaple (bytesOf t)
        | .fits b => .accepted h (s.announcedRecord job student c pages b) b.splitLimit

/-- The announcement as the Pack Register judges it: the run state, the names, then R17's checks (R16,
assumption 11). -/
def State.judgeAnnounce (s : State) (handle job : Byte) (student : Half) (pages : Byte) : Announcement :=
  if s.bypassing then .refused .wrongState []
  else match named 255 handle.toNat, named 32 job.toNat, namedFromZero 1024 student.toNat with
    | some h, some j, some st => s.checkAnnounce h j st pages.toNat
    | _, _, _ => .refused .badValue []

end Sys2Proof.Machine
end

