-- ==== Sys2Proof/Machine/PackFamily.lean ====
section
/-! DEFINITION. The Pack Register's commands: Pack Announce (R16 to R18), Pack Withdraw (R19, R20), Drain Marker
(R24). -/

namespace Sys2Proof.Machine

/-- An accepted announcement (R4, R18, R21): the record, the class queue, the announce counter. -/
def Work.acceptPack (w : Work) (h : Handle) (r : PackRec) : Work :=
  let w1 := w.setPack h r
  let w2 := w1.setClassQueue r.cls (w1.classQueue r.cls ++ [h])
  w2.setReg { w2.reg with serial := w2.reg.serial + 1 }

/-- A Pack Announce taken (R16 to R18). -/
def Work.packAnnounce (w : Work) (handle job : Byte) (student : Half) (pages : Byte) : Work :=
  match w.judgeAnnounce handle job student pages with
  | .refused status data => w.answer kindPackAnnounce status data
  | .accepted h r split =>
    ((w.acceptPack h r).settle w.toState).answer kindPackAnnounce .accepted
      (bytesOf r.total ++ [byteOf r.snap.plan.ends.length]) { splitLimit := split }

/-- PACK_ANNOUNCE (R17). -/
def execPackAnnounce (bcast : Bool) (handle job : Byte) (student : Half) (pages : Byte) (s : State) : Answer :=
  .next (s.takeRecord ⟨bcast, kindPackAnnounce, [handle, job, lowByte student, highByte student, pages]⟩
    fun w => w.packAnnounce handle job student pages)

/-- What the state of a pack makes of a withdraw (R19): the refusal, or none where it is accepted. -/
def withdrawRefusal : PackState → Option Status
  | .free => some .noSuchPack
  | .disposing => some .noSuchPack
  | .delivering => some .tooLate
  | .announced => none
  | .opened => none
  | .complete => none
  | .stapling => none
  | .ready => none
  | .restarting => none

/-- A Pack Withdraw taken (R19). -/
def Work.packWithdraw (w : Work) (handle : Byte) : Work :=
  match named 255 handle.toNat with
  | none => w.answer kindPackWithdraw .badValue
  | some h =>
    match withdrawRefusal (w.pack h).state with
    | some status => w.answer kindPackWithdraw status
    | none =>
      ((w.withdrawPack h).settle w.toState).answer kindPackWithdraw .accepted [packStateCode (w.pack h).state]

/-- PACK_WITHDRAW (R19). -/
def execPackWithdraw (bcast : Bool) (handle : Byte) (s : State) : Answer :=
  .next (s.takeRecord ⟨bcast, kindPackWithdraw, [handle]⟩ fun w => w.packWithdraw handle)

/-- A marker becomes outstanding (R24). -/
def Work.addMarker (w : Work) (m : Marker) : Work :=
  w.setReg { w.reg with markers := w.reg.markers ++ [m] }

/-- A Drain Marker taken (R24). -/
def Work.drainMarker (w : Work) (id : Byte) : Work :=
  let watch := w.live
  if watch.isEmpty then (w.addDrains [id]).answer kindDrainMarker .accepted [0]
  else if w.reg.markers.length < Config.markerLimit then
    (w.addMarker ⟨id, watch⟩).answer kindDrainMarker .accepted [byteOf watch.length]
  else w.answer kindDrainMarker .drainFull

/-- DRAIN_MARKER (R24). -/
def execDrainMarker (bcast : Bool) (id : Byte) (s : State) : Answer :=
  .next (s.takeRecord ⟨bcast, kindDrainMarker, [id]⟩ fun w => w.drainMarker id)

end Sys2Proof.Machine
end

