-- ==== Sys2Proof/Machine/TableFamily.lean ====
section
/-! DEFINITION. The Table Store's commands: Table Read, Table Write, Table Mark, Marked Write and the Group actions
(R154 to R162). -/

namespace Sys2Proof.Machine

/-- TABLE_READ (R156). -/
def execTableRead (bcast : Bool) (bank : Byte) (index : Half) (count : Byte) (s : State) : Answer :=
  .next (s.takeRecord ⟨bcast, kindTableRead, [bank, lowByte index, highByte index, count]⟩
    fun w => w.tableRead bank.toNat index.toNat count.toNat)

/-- TABLE_WRITE (R154). -/
def execTableWrite (bcast : Bool) (bank : Byte) (index : Half) (entries : List Byte) (s : State) : Answer :=
  .next (s.takeRecord ⟨bcast, kindTableWrite, bank :: lowByte index :: highByte index :: entries⟩
    fun w => w.tableWrite bcast bank.toNat index.toNat entries)

/-- TABLE_MARK (R157). -/
def execTableMark (bcast : Bool) (bank : Byte) (index : Half) (s : State) : Answer :=
  .next (s.takeRecord ⟨bcast, kindTableMark, [bank, lowByte index, highByte index]⟩
    fun w => w.tableMark bank.toNat index.toNat)

/-- MARKED_WRITE (R159). -/
def execMarkedWrite (bcast : Bool) (bank : Byte) (index : Half) (entry : List Byte) (s : State) : Answer :=
  .next (s.takeRecord ⟨bcast, kindMarkedWrite, bank :: lowByte index :: highByte index :: entry⟩
    fun w => w.markedWrite bank.toNat index.toNat entry)

/-- GROUP_OPEN (R160). -/
def execGroupOpen (bcast : Bool) (s : State) : Answer := .next (s.takeRecord (groupRecord bcast 1) Work.groupOpen)

/-- GROUP_CLOSE (R161). -/
def execGroupClose (bcast : Bool) (s : State) : Answer := .next (s.takeRecord (groupRecord bcast 2) Work.groupClose)

/-- GROUP_DISCARD (R162). -/
def execGroupDiscard (bcast : Bool) (s : State) : Answer := .next (s.takeRecord (groupRecord bcast 3) Work.groupDiscard)

end Sys2Proof.Machine
end

