-- ==== Sys2Proof/Machine/Dispatch.lean ====
section
/-! DEFINITION. The meaning of every command: one arm per constructor of `Instr`. -/

namespace Sys2Proof.Machine

/-- The effect of a command on everything but the queue of waiting commands. -/
def exec (i : Instr) (s : State) : Host.Outcome State Fault Refusal :=
  match i with
  | .sheetNotice bcast feed handle page generation tag => Sys2Proof.Machine.execSheetNotice bcast feed handle page generation tag s
  | .packAnnounce bcast handle job student pages => Sys2Proof.Machine.execPackAnnounce bcast handle job student pages s
  | .packWithdraw bcast handle => Sys2Proof.Machine.execPackWithdraw bcast handle s
  | .tableRead bcast bank index count => Sys2Proof.Machine.execTableRead bcast bank index count s
  | .tableWrite bcast bank index entries => Sys2Proof.Machine.execTableWrite bcast bank index entries s
  | .tableMark bcast bank index => Sys2Proof.Machine.execTableMark bcast bank index s
  | .markedWrite bcast bank index entry => Sys2Proof.Machine.execMarkedWrite bcast bank index entry s
  | .groupOpen bcast => Sys2Proof.Machine.execGroupOpen bcast s
  | .groupClose bcast => Sys2Proof.Machine.execGroupClose bcast s
  | .groupDiscard bcast => Sys2Proof.Machine.execGroupDiscard bcast s
  | .drainMarker bcast id => Sys2Proof.Machine.execDrainMarker bcast id s
  | .statusRead bcast => Sys2Proof.Machine.execStatusRead bcast s
  | .undefinedRecordKind bcast kind payload => Sys2Proof.Machine.execUndefinedRecordKind bcast kind payload s
  | .run bcast argument => Sys2Proof.Machine.execRun bcast argument s
  | .pause bcast argument => Sys2Proof.Machine.execPause bcast argument s
  | .standby bcast argument => Sys2Proof.Machine.execStandby bcast argument s
  | .bypass bcast argument => Sys2Proof.Machine.execBypass bcast argument s
  | .resume bcast argument => Sys2Proof.Machine.execResume bcast argument s
  | .clearStapler bcast argument => Sys2Proof.Machine.execClearStapler bcast argument s
  | .clearReturn bcast outcome => Sys2Proof.Machine.execClearReturn bcast outcome s
  | .feedFlush bcast feed => Sys2Proof.Machine.execFeedFlush bcast feed s
  | .loopbackOn bcast argument => Sys2Proof.Machine.execLoopbackOn bcast argument s
  | .loopbackOff bcast argument => Sys2Proof.Machine.execLoopbackOff bcast argument s
  | .resetWork bcast argument => Sys2Proof.Machine.execResetWork bcast argument s
  | .resetAll bcast argument => Sys2Proof.Machine.execResetAll bcast argument s
  | .powerOn straps => Sys2Proof.Machine.execPowerOn straps s
  | .resetPin straps => Sys2Proof.Machine.execResetPin straps s
  | .recordComplete bcast kind payload => Sys2Proof.Machine.execRecordComplete bcast kind payload s
  | .stopCharacter => Sys2Proof.Machine.execStopCharacter s
  | .lineError checks mark data => Sys2Proof.Machine.execLineError checks mark data s
  | .lineBreak => Sys2Proof.Machine.execLineBreak s
  | .recordSent => Sys2Proof.Machine.execRecordSent s
  | .sheetPresentActive feed => Sys2Proof.Machine.execSheetPresentActive feed s
  | .sheetPresentInactive feed => Sys2Proof.Machine.execSheetPresentInactive feed s
  | .arrival tag => Sys2Proof.Machine.execArrival tag s
  | .deadlineExpiry => Sys2Proof.Machine.execDeadlineExpiry s
  | .stopInputFall => Sys2Proof.Machine.execStopInputFall s
  | .stopInputRise => Sys2Proof.Machine.execStopInputRise s
  | .unannouncedSheetWaitExpiry feed => Sys2Proof.Machine.execUnannouncedSheetWaitExpiry feed s
  | .blockTimerExpiry => Sys2Proof.Machine.execBlockTimerExpiry s
  | .releaseComesDue => Sys2Proof.Machine.execReleaseComesDue s
  | .purgeDone pocket => Sys2Proof.Machine.execPurgeDone pocket s
  | .purgeTimeout pocket => Sys2Proof.Machine.execPurgeTimeout pocket s
  | .stapleDone => Sys2Proof.Machine.execStapleDone s
  | .stapleTimeout => Sys2Proof.Machine.execStapleTimeout s
  | .cartridgeFitted => Sys2Proof.Machine.execCartridgeFitted s
  | .ejectDone => Sys2Proof.Machine.execEjectDone s
  | .ejectTimeout => Sys2Proof.Machine.execEjectTimeout s
  | .binCleared bin => Sys2Proof.Machine.execBinCleared bin s
  | .flashEnd bin => Sys2Proof.Machine.execFlashEnd bin s
  | .inboundCharacterTaken mark data => Sys2Proof.Machine.execInboundCharacterTaken mark data s
  | .pacingCharacterSent => Sys2Proof.Machine.execPacingCharacterSent s
  | .loopbackEchoSent => Sys2Proof.Machine.execLoopbackEchoSent s
  | .undefinedActionCode bcast record => Sys2Proof.Machine.execUndefinedActionCode bcast record s

end Sys2Proof.Machine
end

