-- ==== Sys2Proof/Machine/Clock.lean ====
section
/-! DEFINITION. What the block does of itself while no command waits (assumption 1): the steps of its own that are due,
by the time base or because the Record Handler may take a record, and the tick of the time base. -/

namespace Sys2Proof.Machine

/-- A command where a condition holds. -/
def dueIf (b : Bool) (i : Instr) : List Instr := if b then [i] else []

/-- The Record Handler may take the head of the inbound queue (R171). -/
def State.handlerDue (s : State) : List Instr :=
  match s.link.inbound with
  | [] => []
  | r :: _ => dueIf s.handlerReady (instrOf r)

/-- A candidate is eligible and due, so that a release decision would release it (R47, R53). -/
def State.releaseDue (s : State) : Bool := (Work.of s).boundALast.dropPick.choose.isSome

/-- The steps of the block's own that are due at this moment: a waiting record, an expired deadline, wait or block
timer, a release come due, operations and purges whose allowance has passed, flashes that end. -/
def State.dueEvents (s : State) : List Instr :=
  s.handlerDue
    ++ dueIf s.lateHead.isSome .deadlineExpiry
    ++ allFeeds.flatMap (fun f => dueIf (s.waitExpired f) (.unannouncedSheetWaitExpiry f))
    ++ dueIf s.blockExpired .blockTimerExpiry
    ++ dueIf s.releaseDue .releaseComesDue
    ++ allPockets.flatMap (fun p => dueIf (s.purgeRanOut p) (.purgeTimeout p))
    ++ dueIf s.lateVolume.isSome .stapleTimeout
    ++ dueIf s.lateDelivery.isSome .ejectTimeout
    ++ allBins.flatMap (fun b => dueIf (s.flashOver b) (.flashEnd b))

/-- A millisecond passes (R1). A_last's age is bounded then too, and not at decisions alone, so that it never comes to
read as a point to come (R54, assumption 33). -/
def State.tick (s : State) : State :=
  { s with now := s.now + 1, arb := { s.arb with aLast := boundedALast (s.now + 1) s.arb.aLast } }

/-- A free choice has been made (assumption 3). -/
def State.chosen (s : State) : State := { s with choices := s.choices + 1 }

/-- What the block does while no command waits (assumption 1): a step of its own that is due, the first of several
being a free choice (assumption 3); a tick where none is due. -/
def State.idle (s : State) : Host.Outcome State Fault Refusal :=
  match s.dueEvents with
  | [] => .next s.tick
  | [i] => exec i s
  | i :: j :: rest =>
    exec ((i :: j :: rest).getD (Config.raceChoice s.choices % (rest.length + 2)) i) s.chosen

/-- The queue of waiting commands takes a value. -/
def State.withPending (s : State) (q : List Instr) : State := { s with pending := q }

/-- The state with a command put in front of those that wait; unchanged where there is none. -/
def State.withFront (s : State) : Option Instr → State
  | none => s
  | some i => s.withPending (i :: s.pending)

end Sys2Proof.Machine
end

