-- ==== Sys2Proof/Machine/Step.lean ====
section
/-! DEFINITION. One step of the block: the command at the front of the queue is taken and executed; on an empty queue
the block does what it does of itself (assumption 1). -/

namespace Sys2Proof.Machine

/-- One step. -/
def step (s : State) : Host.Outcome State Fault Refusal :=
  match s.pending with
  | [] => s.idle
  | i :: rest => exec i (s.withPending rest)

/-- `s` with the command that the table word spells at the front of its queue; no row of the table gives bits, so no
word spells one and `s` is unchanged. -/
def State.withFetchWord (s : State) (nbits w : Nat) : State := s.withFront (decodeTableWord nbits w)

end Sys2Proof.Machine
end

