-- ==== Sys2Proof/WellFormed.lean ====
section
/-! DEFINITION. Which terms of `Instr` a command from outside can be: what a record's payload can hold
(R166, R192, R193) and what makes a character one of the row it is given under (R165, R168). A command whose
fields are out of range is well formed: the device refuses it by its own checks. exec answers the terms that are not well formed too (assumption 26). -/

namespace Sys2Proof

/-- The kind is one of the inbound kinds of R193. -/
def kindDefined (kind : Byte) : Bool := decide (1 ≤ kind.toNat ∧ kind.toNat ≤ 11)

/-- The command can come from outside as this row. -/
def Instr.WellFormed : Instr → Bool
  | .tableWrite _ _ _ entries => decide (3 + entries.length ≤ 60)
  | .markedWrite _ bank _ entry => decide (3 + entry.length ≤ 60) && markedLengthSuits bank entry
  | .undefinedRecordKind bc kind payload =>
    decide (payload.length ≤ 60) && decide (instrOf ⟨bc, kind, payload⟩ = .undefinedRecordKind bc kind payload)
  | .undefinedActionCode _ (.group action) => decide (¬(1 ≤ action.toNat ∧ action.toNat ≤ 3))
  | .undefinedActionCode _ (.control action _) => decide (¬(1 ≤ action.toNat ∧ action.toNat ≤ 12))
  | .recordComplete _ _ payload => decide (payload.length ≤ 60)
  | .lineError checks mark data => !(frameSound (frameWith checks ⟨mark, data⟩) && mark && decide (data = 0xE5))
  | .inboundCharacterTaken mark data => !(mark && decide (data = 0xE5))
  | .sheetNotice _ _ _ _ _ _ => true
  | .packAnnounce _ _ _ _ _ => true
  | .packWithdraw _ _ => true
  | .tableRead _ _ _ _ => true
  | .tableMark _ _ _ => true
  | .groupOpen _ => true
  | .groupClose _ => true
  | .groupDiscard _ => true
  | .drainMarker _ _ => true
  | .statusRead _ => true
  | .run _ _ => true
  | .pause _ _ => true
  | .standby _ _ => true
  | .bypass _ _ => true
  | .resume _ _ => true
  | .clearStapler _ _ => true
  | .clearReturn _ _ => true
  | .feedFlush _ _ => true
  | .loopbackOn _ _ => true
  | .loopbackOff _ _ => true
  | .resetWork _ _ => true
  | .resetAll _ _ => true
  | .powerOn _ => true
  | .resetPin _ => true
  | .stopCharacter => true
  | .lineBreak => true
  | .recordSent => true
  | .sheetPresentActive _ => true
  | .sheetPresentInactive _ => true
  | .arrival _ => true
  | .deadlineExpiry => true
  | .stopInputFall => true
  | .stopInputRise => true
  | .unannouncedSheetWaitExpiry _ => true
  | .blockTimerExpiry => true
  | .releaseComesDue => true
  | .purgeDone _ => true
  | .purgeTimeout _ => true
  | .stapleDone => true
  | .stapleTimeout => true
  | .cartridgeFitted => true
  | .ejectDone => true
  | .ejectTimeout => true
  | .binCleared _ => true
  | .flashEnd _ => true
  | .pacingCharacterSent => true
  | .loopbackEchoSent => true

end Sys2Proof
end

