-- ==== Sys2Proof/Safety.lean ====
section
/-! DEFINITION. What counts as a safe state (the invariants of the block), and the terms the statements about the commands
use: a record that is taken, records told to the print controller, what a command leaves alone. -/

namespace Sys2Proof.Machine

/-! ### The sheet link -/

/-- The records the device has queued for the reply line and not yet sent, in the order they go out (R173). -/
def State.told (s : State) : List OutRecord := s.link.outbound ++ s.link.held

/-- The queues of the Link Port keep their bounds: 32 inbound records (R169), 24 outbound of which 20 event notices,
none in the held list (R173), 32 echoes (R175). -/
abbrev State.linkBounded (s : State) : Prop :=
  s.link.inbound.length ≤ Config.inboundSize ∧ s.link.outbound.length ≤ Config.outboundSize
    ∧ (s.link.outbound.filter OutRecord.isNotice).length ≤ Config.noticeLimit
    ∧ s.link.held.filter OutRecord.isNotice = [] ∧ s.link.echoes.length ≤ Config.echoLimit

/-- The ATTENTION output is asserted exactly while some latch is set and unmasked (R179). -/
abbrev State.attentionFollows (s : State) : Prop := s.attn.output = s.attentionDue

/-- Each bin's lamp shows what its lamp mode and its condition give, a flash aside (R124). -/
abbrev State.lampsFollow (s : State) : Prop := ∀ b : BinId, s.ret.bins[b].lamp = s.lampShow b

/-- HOLD is on only while more records wait than HOLD_LOW, and off only while fewer wait than HOLD_HIGH (R170). -/
abbrev State.holdFollows (s : State) : Prop :=
  (s.link.hold = true → s.tables.settings.holdLow < s.link.inbound.length)
    ∧ (s.link.hold = false → s.link.inbound.length < s.tables.settings.holdHigh)

/-! ### Packs -/

/-- A record's page counters: pages received at most pages released, at most pages (R7); both 0 in a record that waits
for its page 1. -/
abbrev PackRec.counted (r : PackRec) : Prop :=
  r.received ≤ r.released ∧ r.released ≤ r.pages
    ∧ (r.state = .announced ∨ r.state = .restarting → r.released = 0 ∧ r.received = 0)

/-- Every pack record's counters are sound. -/
abbrev State.packsCounted (s : State) : Prop := ∀ h : Handle, (s.pack h).counted

/-- A FREE record has the cleared contents of R3. -/
abbrev State.freeCleared (s : State) : Prop := ∀ h : Handle, (s.pack h).state = .free → s.pack h = PackRec.cleared

/-- The fields of a record that its announcement fixes (R2): job, student, class, pages, announce serial, snapshot,
total thickness and bin units. -/
def PackRec.fixed (r : PackRec) : PackRec :=
  { r with state := .free, gen := 0, released := 0, received := 0, pocket := none, flags := ⟨false, false, false⟩ }

/-- The sparse tables are in canonical form: numbers rising, no default listed. -/
abbrev State.canonical (s : State) : Prop :=
  Sparse.wf PackRec.cleared s.reg.packs = true ∧ Sparse.wf [] s.reg.queues = true
    ∧ Sparse.wf none s.tables.roster = true

/-- The lists of the other blocks keep their bounds: staging queues (R29), the in-flight list (R44), drain markers
(R24), the edit group (R160). -/
abbrev State.listsBounded (s : State) : Prop :=
  (∀ f : FeedId, s.feeds[f].queue.length ≤ Config.stagingSize) ∧ s.arb.inFlight.length ≤ Config.inFlightSize
    ∧ s.reg.markers.length ≤ Config.markerLimit ∧ (s.tables.group.getD []).length ≤ Config.groupSize

/-- The quantities of the tables stand in their ranges (R145, R149 to R151, R113), those of a staged write too (R160),
and a pack's generation is at most 3 (R2). -/
abbrev State.inRange (s : State) : Prop :=
  s.tables.settings.clamp = s.tables.settings
    ∧ (∀ m : MediaId, clamp 40 600 s.tables.media[m] = s.tables.media[m])
    ∧ (∀ f : FeedId, clamp 300 6000 s.tables.travel[f] = s.tables.travel[f])
    ∧ (∀ b : BinId, clamp 100 1500 s.ret.bins[b].capacity = s.ret.bins[b].capacity)
    ∧ (∀ x ∈ s.tables.group.getD [], x.entry.clamp = x.entry)
    ∧ ∀ h : Handle, (s.pack h).gen ≤ 3

/-! ### The order of the packs and the places they hold -/

/-- The members of the staple queue are COMPLETE or STAPLING, each once (R96). -/
abbrev State.stapleQueueSound (s : State) : Prop :=
  s.stapler.queue.Nodup
    ∧ ∀ h ∈ s.stapler.queue, (s.pack h).state = .complete ∨ (s.pack h).state = .stapling

/-- Every record not FREE and not DISPOSING is in the delivery queue of its class exactly once, and no other record is
in any queue (R21). -/
abbrev State.classQueuesAgree (s : State) : Prop :=
  ∀ c : ClassId, (s.classQueue c).Nodup
    ∧ ∀ h : Handle, h ∈ s.classQueue c
      ↔ (s.pack h).state ≠ .free ∧ (s.pack h).state ≠ .disposing ∧ (s.pack h).cls = c

/-- The states of the pocket that holds a pack in this state; none for a state with no pocket (R8, R72). -/
def PackState.housedBy : PackState → List PocketState
  | .free => []
  | .announced => []
  | .opened => [.collating, .held, .stapling]
  | .complete => [.collating, .held, .stapling]
  | .stapling => [.collating, .held, .stapling]
  | .ready => [.collating, .held, .stapling]
  | .delivering => [.ejecting]
  | .restarting => [.purging]
  | .disposing => [.purging]

/-- A pocket names a pack exactly where the pack names the pocket; a pack names one exactly in the states that hold
one, and its pocket's state suits (R8). -/
abbrev State.pocketsAgree (s : State) : Prop :=
  (∀ (p : PocketId) (h : Handle), s.pockets[p].pack = some h ↔ (s.pack h).pocket = some p)
    ∧ ∀ h : Handle, ((s.pack h).pocket = none → (s.pack h).state.housedBy = [])
        ∧ ∀ p : PocketId, (s.pack h).pocket = some p → s.pockets[p].state ∈ (s.pack h).state.housedBy

/-- The delivery under way names the DELIVERING pack, its generation and its pocket; there is a delivery record exactly
while the Return Unit is not IDLE (R112). -/
abbrev State.returnAgrees (s : State) : Prop :=
  (∀ d ∈ s.ret.delivery,
      (s.pack d.handle).state = .delivering ∧ (s.pack d.handle).gen = d.gen
        ∧ (s.pack d.handle).pocket = some d.pocket)
    ∧ (∀ h : Handle, (s.pack h).state = .delivering → s.ret.delivery.map DeliveryRec.handle = some h)
    ∧ (s.ret.state = .idle ↔ s.ret.delivery = none)

/-- The Stapler's own fields agree (R95): it is STAPLING exactly while a volume operation is in flight and the staple
command given, the command's pocket being that of the pack in work; a cut-off operation stands in HALT alone, the
Stapler IDLE; in WAITING_CARTRIDGE the work record names the head of the queue. A work record with no operation in
flight or cut off names the head pack, at volume 1 while that is COMPLETE; one with an operation names a pack that
holds a pocket. The volumes stapled are those before the volume in hand, which is one of the plan; the pocket presents
it while its operation is in flight or cut off (R78). Staples remaining is at most CARTRIDGE_SIZE (R106). -/
abbrev State.staplerSound (s : State) : Prop :=
  (s.stapler.state = .stapling ↔ s.stapler.work.map WorkRec.op = some .inFlight)
    ∧ (s.stapler.state = .stapling ↔ s.stapler.command ≠ none)
    ∧ (s.stapler.state = .waitingCartridge →
        s.stapler.work.map WorkRec.op = some .none ∧ s.stapler.work.map WorkRec.handle = s.stapler.queue.head?)
    ∧ (∀ k ∈ s.stapler.work, k.stapled + 1 = k.volume
        ∧ (k.op = .cutOff → s.stapler.state = .idle ∧ s.halted = true)
        ∧ (s.stapler.state = .stapling →
            (s.pack k.handle).pocket ≠ none ∧ s.stapler.command.map Prod.fst = (s.pack k.handle).pocket)
        ∧ (k.op ≠ .none → s.stillStapling k = true → ∀ p : PocketId, (s.pack k.handle).pocket = some p →
            s.pockets[p].volume = k.volume)
        ∧ (s.stapler.queue.head? = some k.handle ∧ (s.pack k.handle).gen = k.gen
            ∧ k.volume ≤ (s.pack k.handle).volumes
            ∧ ((s.pack k.handle).state = .stapling
              ∨ (s.pack k.handle).state = .complete ∧ k.op = .none ∧ k.volume = 1)
          ∨ k.op ≠ .none ∧ ((s.pack k.handle).state = .restarting ∨ (s.pack k.handle).state = .disposing)))
    ∧ s.stapler.remaining ≤ s.tables.settings.cartridgeSize

/-- The pockets' own fields agree: a PURGING pocket's purge is pending or running, and no other pocket has one (R86);
an OUT_OF_SERVICE pocket has a cause, and no other has one (R70); an EMPTY pocket has nothing in it (R79, R88), and a
COLLATING, HELD, STAPLING or EJECTING one has a pack (R72). A COLLATING or STAPLING pocket's offset output lays its
volume index, the output is asserted only for an even volume, and only while the pocket is COLLATING, STAPLING or
PURGING (R76 to R78). The pocket of an OPEN pack is COLLATING, of a STAPLING pack STAPLING, of a COMPLETE or READY pack
HELD (R72), and holds the pages received. -/
abbrev State.stacksSound (s : State) : Prop :=
  (∀ p : PocketId, (s.pockets[p].purge = .none ↔ s.pockets[p].state ≠ .purging)
      ∧ (s.pockets[p].cause = .none ↔ s.pockets[p].state ≠ .outOfService)
      ∧ (s.pockets[p].state = .empty → s.pockets[p] = s.pockets[p].emptied)
      ∧ (s.pockets[p].state ∈ [PocketState.collating, .held, .stapling, .ejecting] → s.pockets[p].pack ≠ none)
      ∧ (s.pockets[p].state = .collating ∨ s.pockets[p].state = .stapling →
          1 ≤ s.pockets[p].volume ∧ s.pockets[p].offset = decide (s.pockets[p].volume % 2 = 0))
      ∧ (s.pockets[p].offset = true → s.pockets[p].volume % 2 = 0
          ∧ (s.pockets[p].state = .collating ∨ s.pockets[p].state = .stapling ∨ s.pockets[p].state = .purging)))
    ∧ ∀ (h : Handle) (p : PocketId), (s.pack h).pocket = some p →
        ((s.pack h).state = .opened → s.pockets[p].state = .collating)
        ∧ ((s.pack h).state = .complete ∨ (s.pack h).state = .ready → s.pockets[p].state = .held)
        ∧ ((s.pack h).state = .stapling → s.pockets[p].state = .stapling)
        ∧ ((s.pack h).state ≠ .restarting → (s.pack h).state ≠ .disposing →
            s.pockets[p].sheets = (s.pack h).received)

/-- Every pack's volume plan is one of its pages: the end pages rise from above 0 to its last page (R83). The volume
index of its pocket names the volume that the next page of an OPEN pack joins, a volume of the plan of a STAPLING pack,
and the plan's last volume where the pack has its last page and the Stapler has not begun it, or is finished (R76 to
R78). -/
abbrev State.volumesSound (s : State) : Prop :=
  (∀ h : Handle, (s.pack h).state ≠ .free →
      (0 :: (s.pack h).snap.plan.ends).Pairwise (· < ·)
        ∧ (s.pack h).snap.plan.ends.getLast? = some (s.pack h).pages)
    ∧ ∀ (h : Handle) (p : PocketId), (s.pack h).pocket = some p →
        ((s.pack h).state = .opened → s.pockets[p].volume
            = ((s.pack h).snap.plan.ends.filter fun e => decide (e ≤ (s.pack h).received)).length + 1)
        ∧ ((s.pack h).state = .stapling → s.pockets[p].volume ≤ (s.pack h).volumes)
        ∧ ((s.pack h).state ∈ [PackState.complete, .ready, .delivering] → s.pockets[p].volume = (s.pack h).volumes)

/-- A purge runs only outside HALT (R90), and while no volume operation is in flight on its pocket (R87). -/
abbrev State.purgesApart (s : State) : Prop :=
  ∀ p : PocketId, s.pockets[p].purge = .running → s.halted = false ∧ s.operationOn p = false

/-- A pending purge waits only for the end of HALT or of a volume operation on its pocket (R87). -/
abbrev State.purgesPrompt (s : State) : Prop :=
  ∀ p : PocketId, s.pockets[p].state = .purging → s.pockets[p].purge = .pending →
    s.halted = true ∨ s.operationOn p = true

/-- No block that may go on stands still: outside HALT and STARTING an IDLE Stapler has no pack in its queue (R97), and
an IDLE Return Unit no eligible pack in its own (R116); every eligible pack is in the delivery queue (R115); STARTING
lasts only while some pocket is PURGING (R190), and STOPPING only while the device is not at rest (R186). -/
abbrev State.workPrompt (s : State) : Prop :=
  (s.mayStart = true → s.stapler.state = .idle → s.stapler.queue = [])
    ∧ (s.mayStart = true → s.ret.state = .idle → ∀ h ∈ s.ret.queue, s.eligible h = false)
    ∧ (∀ h : Handle, s.eligible h = true → h ∈ s.ret.queue)
    ∧ (s.starting = true → ∃ p : PocketId, s.pockets[p].state = .purging)
    ∧ ∀ origin, s.run.state = .stopping origin → s.atRest = false

/-- The invariants that tie packs, pockets, the Stapler and the Return Unit to one another. -/
abbrev State.workSound (s : State) : Prop :=
  s.packsCounted ∧ s.stapleQueueSound ∧ s.pocketsAgree ∧ s.returnAgrees ∧ s.staplerSound ∧ s.stacksSound
    ∧ s.volumesSound ∧ s.purgesApart

/-- A safe state: every invariant of the block holds in it. -/
abbrev State.safe (s : State) : Prop :=
  s.linkBounded ∧ s.attentionFollows ∧ s.lampsFollow ∧ s.holdFollows ∧ s.freeCleared ∧ s.canonical ∧ s.listsBounded
    ∧ s.inRange ∧ s.classQueuesAgree ∧ s.workSound ∧ s.purgesPrompt ∧ s.workPrompt

/-! ### A record that is taken -/

/-- The Record Handler takes record `r` in this step: it may take one, and `r` stands at the head of the inbound queue
or has just been completed with nothing ahead of it (R169, R171). -/
abbrev State.takes (s : State) (r : Record) : Prop :=
  s.handlerReady = true ∧ (s.link.inbound.head? = some r ∨ s.link.inbound = [])

/-- The record is taken and passed on with a Result to come: it was addressed to this station, and loopback, where it
is on, does not discard it (R167, R172, R175). -/
abbrev State.takesOwn (s : State) (r : Record) : Prop :=
  s.takes r ∧ r.bcast = false ∧ (s.link.loopback = true → r.kind = kindControl)

/-- The state once record `r` has been taken from where it stood: from the head of the inbound queue (R170, R171), or
from the receiver, which has just taken its last character, echoed it in loopback and gone WAITING (R166, R175). -/
def State.taken (s : State) (r : Record) : State :=
  if s.link.inbound.head? = some r then s.dequeue else s.completed r

/-- The command is a record that the Record Handler takes in this step, with a Result to come. -/
def State.takesCommand (s : State) (c : Instr) : Prop :=
  match recordOf c with
  | none => False
  | some r => s.takesOwn r

/-- The state once the command's record has been taken from where it stood. -/
def State.takenFor (s : State) (c : Instr) : State :=
  match recordOf c with
  | none => s
  | some r => s.taken r

/-- Record `out` is queued for the reply line behind all that was queued. -/
def State.tells (s t : State) (out : OutRecord) : Prop := ∃ x y, t.told = s.told ++ x ++ out :: y

/-- Record `out` is queued for the reply line, and nothing else changes. -/
def State.onlyTells (s t : State) (out : OutRecord) : Prop :=
  t.told = s.told ++ [out]
    ∧ t = { s with link := { s.link with
        outbound := t.link.outbound, held := t.link.held, sending := t.link.sending, stalled := t.link.stalled } }

/-- An event notice is queued if the outbound queue has room for it, and latches NOTICE_OVERFLOW if not (R173). -/
def State.notifies (s t : State) (out : OutRecord) : Prop :=
  (s.link.hasNoticeRoom = true → s.tells t out)
    ∧ (s.link.hasNoticeRoom = false → t.latched .noticeOverflow = true)

/-! ### What a command leaves alone -/

/-- Two states differ in the Link Port and the Attention Unit alone. -/
def State.sameWork (s t : State) : Prop := t = { s with link := t.link, attn := t.attn }

/-- The time base, the input levels, the straps, the banks but for the mark, the edit group, and the model's own queue
and count stand; so do the receiver, the inbound queue, HOLD, the pacing character, loopback and the echoes; records
are only queued, and latches only set. -/
def State.surrounds (s t : State) : Prop :=
  t.now = s.now ∧ t.pins = s.pins ∧ t.run.straps = s.run.straps
    ∧ { t.tables with mark := none } = { s.tables with mark := none }
    ∧ t.choices = s.choices ∧ t.pending = s.pending
    ∧ { t.link with outbound := [], held := [], sending := none, stalled := false }
      = { s.link with outbound := [], held := [], sending := none, stalled := false }
    ∧ (∃ new, t.told = s.told ++ new)
    ∧ ∀ c : Cause, s.latched c = true → t.latched c = true

/-- No pack is announced, freed, restarted or withdrawn, and no sheet is admitted: the class queues, the drain markers
and the announce counter stand, and every record keeps what its announcement fixed, its generation and its pages
received. -/
def State.keepsPacks (s t : State) : Prop :=
  t.reg.queues = s.reg.queues ∧ t.reg.markers = s.reg.markers ∧ t.reg.serial = s.reg.serial
    ∧ ∀ h : Handle, (t.pack h).fixed = (s.pack h).fixed ∧ (t.pack h).gen = (s.pack h).gen
        ∧ (t.pack h).received = (s.pack h).received

/-- A bin record but for its lamp. -/
def BinRec.unlit (r : BinRec) : BinRec := { r with lamp := .dark, lampSince := 0 }

/-- Every bin but those in the list keeps its record, the lamp aside. -/
def State.keepsBins (s t : State) (but : List BinId) : Prop :=
  ∀ b : BinId, b ∉ but → t.ret.bins[b].unlit = s.ret.bins[b].unlit

/-! ### Restarts -/

/-- What a taken restart request does to the pack it names (R129, R130, R132, R135): under the limit the pack is
restarted, its counters at 0, RESTARTING where it holds a pocket; at the limit it is abandoned, DISPOSING where it
holds one. A pack that is then ANNOUNCED may be opened again by a release that follows. -/
def State.remakes (s t : State) (h : Handle) : Prop :=
  let r := s.pack h
  if r.gen < s.tables.settings.restartLimit then
    (t.pack h).fixed = r.fixed ∧ (t.pack h).gen = r.gen + 1 ∧ (t.pack h).received = 0
      ∧ (r.pocket.isSome = true → (t.pack h).state = .restarting ∧ (t.pack h).released = 0
          ∧ (t.pack h).pocket = r.pocket ∧ (t.pack h).flags = ⟨false, r.snap.announcedUnstapled, false⟩)
      ∧ (r.pocket = none → (t.pack h).state = .announced ∨ (t.run.state = .run ∧ (t.pack h).state = .opened))
      ∧ t.latched .restart = true
  else
    (r.pocket.isSome = true → t.pack h = { r with state := .disposing })
      ∧ (r.pocket = none → t.pack h = PackRec.cleared)
      ∧ h ∉ t.classQueue r.cls ∧ t.latched .abandon = true

/-- The notice that a taken restart request forms: a Reprint Request with the new generation, or Pack Abandoned (R130,
R136). -/
def State.restartNotice (s : State) (h : Handle) (cause : RestartCause) : OutRecord :=
  if (s.pack h).gen < s.tables.settings.restartLimit then .reprintRequest h ((s.pack h).gen + 1) cause
  else .packAbandoned h cause

/-- A restart request is taken: the pack is remade, and the notice is formed. -/
def State.restarts (s t : State) (h : Handle) (cause : RestartCause) : Prop :=
  s.remakes t h ∧ s.notifies t (s.restartNotice h cause)

/-! ### The Stapler's work -/

/-- The Stapler, with `left` staples remaining, starts the volume in hand of the work record `k`, which names the head
of its queue (R97, R98). Where the staples suffice it is STAPLING, the count taken, the command given and the pack
STAPLING, its pocket presenting the volume (R78). Where the volume is short STAPLES_OUT is latched, and the pack's
policy decides: HOLD waits for a cartridge (R102), DELIVER_UNSTAPLED ends the pack's stapling, READY with the flag of
R103, its pocket HELD, or EJECTING where its delivery starts at once. -/
def State.takesUp (s t : State) (k : WorkRec) (left : Nat) : Prop :=
  let r := s.pack k.handle
  let count := patternCount r.snap.pattern
  (count ≤ left →
    t.stapler = {
      state := .stapling, queue := s.stapler.queue, remaining := left - count
      work := some { k with op := .inFlight, start := s.now, allowance := s.tables.settings.mechTimeout }
      command := r.pocket.map fun p => (p, count) }
    ∧ (t.pack k.handle).state = (if k.volume = 1 ∧ r.state = .complete then .stapling else r.state)
    ∧ ∀ p : PocketId, r.pocket = some p → t.pockets[p] = { s.pockets[p] with
        state := .stapling, volume := k.volume, offset := decide (k.volume % 2 = 0) })
  ∧ (left < count → t.latched .staplesOut = true
    ∧ (r.snap.staplesOut = .hold →
        t.stapler = {
          state := .waitingCartridge, queue := s.stapler.queue, remaining := left
          work := some { k with op := .none }, command := none }
        ∧ t.pack k.handle = r ∧ ∀ p : PocketId, r.pocket = some p → t.pockets[p] = s.pockets[p])
    ∧ (r.snap.staplesOut = .deliverUnstapled →
        k.handle ∉ t.stapler.queue
        ∧ ((t.pack k.handle).state = .ready ∨ (t.pack k.handle).state = .delivering)
        ∧ (t.pack k.handle).flags
          = (if k.stapled = 0 then { r.flags with unstapled := true } else { r.flags with partlyStapled := true })
        ∧ ∀ p : PocketId, r.pocket = some p → ∃ st ∈ [PocketState.held, .ejecting],
            t.pockets[p] = { s.pockets[p] with state := st, volume := r.volumes, offset := false }))

/-- The Stapler, IDLE with `left` staples remaining and its work record `work`, goes on as R97 allows: it takes up the
head of its queue, or stands where the queue is empty or the run state is HALT or STARTING. -/
def State.goesOn (s t : State) (work : Option WorkRec) (left : Nat) : Prop :=
  let idle : Stapler := { s.stapler with state := .idle, remaining := left, work := work, command := none }
  (s.mayStart = false ∨ s.stapler.queue = [] → t.stapler = idle)
  ∧ ∀ h, s.mayStart = true → s.stapler.queue.head? = some h →
      s.takesUp t (State.workFor { s with stapler := idle } h) left

/-! ### Drain markers and start-up -/

/-- The Drain Completes that the freeing of pack `h` brings, in the order the markers were taken (R25). -/
def State.drainsOf (s : State) (h : Handle) : List OutRecord :=
  (s.reg.markers.filter fun m => (m.watch.filter fun k => decide (k ≠ h)).isEmpty).map fun m => .drainComplete m.id

/-- The markers still outstanding once pack `h` is freed (R25). -/
def State.markersWithout (s : State) (h : Handle) : List Marker :=
  (s.reg.markers.map fun m => { m with watch := m.watch.filter fun k => decide (k ≠ h) }).filter
    fun m => !m.watch.isEmpty

/-- The run state that the end of a start-up enters (R190): HALT with cause STOP where a STOP has come or the STOP input
is low, else the target state. -/
def State.startedState (s : State) (kind : ResetKind) (haltPending : Bool) : RunState :=
  let target : ResumeTarget := if kind = .work ∨ s.run.straps.start = .standby then .standby else .bypass
  if haltPending = true ∨ s.pins.stopHigh = false then .halt .stop target else target.state

/-! ### Writes to the banks -/

/-- The 2-byte quantity at position `i` of an entry, brought to the nearer end of its range (R145, R192). -/
def quantity (l : List Byte) (lo hi i : Nat) : List Byte := bytesOf (max lo (min hi (halfAt l i)))

/-- The 1-byte quantity at position `i` of an entry, brought to the nearer end of its range (R145). -/
def smallQuantity (l : List Byte) (lo hi i : Nat) : List Byte := [byteOf (max lo (min hi (byteAt l i)))]

/-- Entry `e` holds what an entry of these bytes writes in it (R145, R147 to R151, R153, R197): every writable field as
it was given, the quantities brought into their ranges, and HOLD_LOW below HOLD_HIGH. -/
def State.holds (t : State) (e : EntryRef) (l : List Byte) : Prop :=
  match e with
  | .job _ => (t.entryBytes e).take 6 = l.take 6
  | .cls _ => (t.entryBytes e).take 2 = l.take 2
  | .roster _ => t.entryBytes e = l
  | .media _ => t.entryBytes e = quantity l 40 600 0
  | .feed _ => (t.entryBytes e).take 3 = l.take 1 ++ quantity l 300 6000 1
  | .bin _ => (t.entryBytes e).take 4 = quantity l 100 1500 0 ++ (l.drop 2).take 2
  | .settings =>
    (t.entryBytes e).take 21 =
      quantity l 1000 8000 0 ++ quantity l 2000 20000 2 ++ quantity l 200 2000 4 ++ quantity l 50 1000 6
        ++ smallQuantity l 2 60 8 ++ smallQuantity l 1 3 9 ++ smallQuantity l 2 32 10
        ++ [byteOf (min (min 31 (byteAt l 11)) (max 2 (min 32 (byteAt l 10)) - 1))] ++ smallQuantity l 2 8 12
        ++ quantity l 500 5000 13 ++ quantity l 0 1000 15 ++ quantity l 1000 10000 17 ++ quantity l 500 5000 19
  | .mask => t.entryBytes e = l
  | .pocket _ => (t.entryBytes e).getD 7 0 = l.getD 7 0
  | .pack _ => False

/-- The entry writes `ws` are made in one step, and the owning blocks meet the values after it (R155, R158): the
writable fields stand as written and no other does; a mark on a written entry is cleared; a feed that is not ONLINE has
no pending discard and no wait; staples remaining is pulled down to CARTRIDGE_SIZE (R106), and the HOLD pair is judged
(R170). -/
def State.writes (s t : State) (ws : List Staged) : Prop :=
  let u := s.writeAll ws
  let v := u.tables.settings
  { t.tables with mark := none } = { u.tables with mark := none }
    ∧ (t.tables.mark = none ∨ t.tables.mark = s.tables.mark) ∧ (∀ x ∈ ws, t.tables.mark ≠ some x.ref)
    ∧ (∀ b : BinId, t.ret.bins[b].unlit = u.ret.bins[b].unlit)
    ∧ (∀ f : FeedId, t.feeds[f].state = u.feeds[f].state
        ∧ (u.feeds[f].state ≠ .online → t.feeds[f] = { u.feeds[f] with discard := false, wait := none }))
    ∧ (∀ p : PocketId, t.pockets[p].state = .outOfService ↔ u.pockets[p].state = .outOfService)
    ∧ s.keepsPacks t ∧ t.now = s.now ∧ t.pins = s.pins
    ∧ (writesSettings ws = true → t.stapler.remaining ≤ u.stapler.remaining)
    ∧ t.link.inbound = s.link.inbound
    ∧ t.link.hold = (if writesSettings ws = false then s.link.hold
        else if s.link.hold = true then decide (v.holdLow < s.link.inbound.length)
        else decide (v.holdHigh ≤ s.link.inbound.length))
    ∧ ∀ c : Cause, s.latched c = true → t.latched c = true

/-- The state right after a reset other than RESET WORK, `base` standing (R26, R43, R46, R93, R111, R127, R163, R183,
R190): that of power-on but for the time, the gate, the levels, the reset kind, the straps and the Link Port. -/
def State.startedUp (s : State) (base : Time) (gate : Gate) (kind : ResetKind) (straps : Straps) (link : LinkPort) :
    State :=
  { State.reset with
    now := base
    pins := s.pins
    link := link
    feeds := Vector.ofFn fun f : FeedId =>
      { state := .offline, queue := [], shelf := shelfOf s.pins.sheetPresent[f], wait := none, discard := false }
    arb := { inFlight := [], aLast := base, blockTimer := none, pick := none, gate := gate }
    pockets := Vector.replicate 8 (PocketRec.startUp base 4000)
    ret := { state := .idle, queue := [], delivery := none, bins := Vector.replicate 24 (BinRec.default base),
             command := none }
    run := { state := .starting kind false, straps := straps }
    releasePulses := s.releasePulses
    choices := s.choices
    pending := s.pending }

end Sys2Proof.Machine
end

