-- ==== Sys2Proof/Certificates/Slice0/Obligations.lean ====
section
/-! DEFINITION. The statements for the provers. -/

open Sys2Proof Sys2Proof.Machine

/-! ### The step -/

/-- One step takes the command at the front of the queue and runs it on the state with the queue's rest. -/
def Obligations.StepRunsTheFrontCommand : Prop :=
  ∀ (c : Instr) (s : State) (rest : List Instr), s.pending = c :: rest → step s = exec c (s.withPending rest)

/-- On an empty queue the block runs the step of its own that is due, one of them where several are, and lets a
millisecond pass where none is, the age of A_last bounded then (R1, R54; the model's own convention, assumptions 1, 3
and 33). -/
def Obligations.EmptyQueueRunsWhatIsDue : Prop :=
  ∀ s : State, s.pending = [] →
    (s.dueEvents = [] → step s = .next { s with
      now := s.now + 1
      arb := { s.arb with
        aLast := if 65536 < elapsed (s.now + 1) s.arb.aLast then s.now + 1 - 65536 else s.arb.aLast } })
    ∧ (∀ i, s.dueEvents = [i] → step s = exec i s)
    ∧ (2 ≤ s.dueEvents.length → ∃ i ∈ s.dueEvents, step s = exec i { s with choices := s.choices + 1 })

/-- Every command answers a next state; the time base, the straps, the input levels and the waiting commands change only
as the commands that name them say (R1, R184, R187, R37). -/
def Obligations.EveryCommandAnswers : Prop :=
  ∀ (c : Instr) (s : State), ∃ t, exec c s = .next t
    ∧ t.pending = s.pending ∧ t.choices = s.choices
    ∧ ((∀ x, c ≠ .powerOn x) → t.now = s.now ∧ ((∀ x, c ≠ .resetPin x) → t.run.straps = s.run.straps))
    ∧ t.pins.stopHigh = (if c = .stopInputFall then false else if c = .stopInputRise then true else s.pins.stopHigh)
    ∧ ∀ f : FeedId, t.pins.sheetPresent[f]
        = (if c = .sheetPresentActive f then true else if c = .sheetPresentInactive f then false
           else s.pins.sheetPresent[f])

/-! ### Rules of the whole machine -/

/-- No command but Table Write, Marked Write, GROUP CLOSE and the resets that restore defaults changes a writable field
of the Job, Class, Roster, Media, Bin, Settings and Attention Mask banks or a feed's travel time; the mark and the edit
group aside (R145, R155, R161, R163). A Feed entry's state and a Pocket entry's in service, which the device changes of
itself too (R35, R43, R89, R93), are not meant. -/
def Obligations.OnlyWritesAndResetsChangeTheBanks : Prop :=
  ∀ (c : Instr) (s t : State), exec c s = .next t →
    (∀ b k i e, c ≠ .tableWrite b k i e) → (∀ b k i e, c ≠ .markedWrite b k i e) → (∀ b, c ≠ .groupClose b) →
    (∀ x, c ≠ .powerOn x) → (∀ x, c ≠ .resetPin x) → (∀ b a, c ≠ .resetAll b a) →
    t.tables = { s.tables with mark := t.tables.mark, group := t.tables.group }
    ∧ ∀ b : BinId, t.ret.bins[b].capacity = s.ret.bins[b].capacity
        ∧ t.ret.bins[b].inService = s.ret.bins[b].inService ∧ t.ret.bins[b].lampMode = s.ret.bins[b].lampMode

/-- HALT is entered by a STOP character, a fall of the STOP input or a deadline expiry, or at the end of a start-up; it
is left by RESUME or a reset alone, and any other command leaves its cause and its resume target as they are (R144,
R187, R188, R190). -/
def Obligations.HaltIsEnteredAndLeftByItsEvents : Prop :=
  ∀ (c : Instr) (s t : State), exec c s = .next t →
    (s.halted = false → t.halted = true →
      c = .stopCharacter ∨ c = .stopInputFall ∨ c = .deadlineExpiry ∨ s.starting = true ∨ ∃ b a, c = .resetWork b a)
    ∧ ∀ cause target, s.run.state = .halt cause target →
        t.run.state = .halt cause target
        ∨ (∃ b a, c = .resume b a ∨ c = .resetWork b a ∨ c = .resetAll b a) ∨ ∃ x, c = .powerOn x ∨ c = .resetPin x

/-- A release output is pulsed only by a step that ends in RUN or BYPASS (R46, R48, R69, R185, R186, R187). -/
def Obligations.PulsesOnlyInRunAndBypass : Prop :=
  ∀ (c : Instr) (s t : State), exec c s = .next t → t.releasePulses ≠ s.releasePulses →
    t.run.state = .run ∨ t.run.state = .bypass

/-- A command takes entries from the head of the in-flight list and adds released ones at its tail: each with its
predicted arrival the feed's travel time from now and its deadline LATE_TOL later. The first added arrives PITCH or more
after A_last, its age bounded at 65 536 ms, and each other PITCH or more after the one released before it; A_last
becomes the last one's arrival (R44, R45, R52, R53, R54). -/
def Obligations.ReleasesAreSpaced : Prop :=
  ∀ (c : Instr) (s t : State), exec c s = .next t → s.inRange →
    ∃ (n : Nat) (new : List InFlight), t.arb.inFlight = s.arb.inFlight.drop n ++ new
      ∧ (∀ x ∈ new, x.arrival = later t.now t.tables.travel[x.feed]
          ∧ x.deadline = later x.arrival t.tables.settings.lateTol)
      ∧ (let last := if 65536 < elapsed t.now s.arb.aLast then t.now - 65536 else s.arb.aLast
          ∀ x ∈ new.head?, isBefore x.arrival (later last t.tables.settings.pitch) = false)
      ∧ new.IsChain (fun a b => isBefore b.arrival (later a.arrival t.tables.settings.pitch) = false)
      ∧ ∀ x, new.getLast? = some x → t.arb.aLast = x.arrival

/-- A pack that goes DELIVERING is in turn, and its class's bin is in service and has room for it; the delivery record
keeps the pack, its pocket, the bin and its bin units, and the eject command is given (R13, R23, R114, R116). BIN_FULL
is latched when a pack comes to wait for room, its class's move to another full bin included (assumption 19), and by
nothing else (R123). -/
def Obligations.DeliveriesStartInTurnWithRoom : Prop :=
  ∀ (c : Instr) (s t : State), exec c s = .next t →
    let comes (h : Handle) : Prop :=
      t.waitingForRoom h = true ∧ (s.waitingForRoom h = false ∨ s.servingBin h ≠ t.servingBin h)
    (∀ h : Handle, comes h → t.latched .binFull = true)
    ∧ (t.latched .binFull = true → s.latched .binFull = true ∨ ∃ h : Handle, comes h)
    ∧ ∀ h : Handle, (s.pack h).state ≠ .delivering → (t.pack h).state = .delivering →
      (t.policyOf h = .unordered ∨ t.isClassHead h = true ∨ (t.pack h).flags.outOfTurn = true)
      ∧ ∃ d : DeliveryRec, t.ret.delivery = some d ∧ d.handle = h ∧ d.gen = (t.pack h).gen
          ∧ (t.pack h).pocket = some d.pocket ∧ d.units = (t.pack h).units ∧ d.op = .inFlight ∧ d.start = t.now
          ∧ d.allowance = t.tables.settings.mechTimeout ∧ t.ret.state = .ejecting
          ∧ t.ret.command = some (d.pocket, d.bin) ∧ t.binOf h = some d.bin
          ∧ t.ret.bins[d.bin].inService = true
          ∧ t.ret.bins[d.bin].fill + d.units ≤ t.ret.bins[d.bin].capacity

/-- What its announcement fixed stands in a live record until the record is freed, and its generation does not fall
(R2, R3, R26). -/
def Obligations.LivePackKeepsItsAnnouncement : Prop :=
  ∀ s t : State, step s = .next t → ∀ h : Handle, (s.pack h).state ≠ .free →
    t.pack h = PackRec.cleared ∨ ((t.pack h).fixed = (s.pack h).fixed ∧ (s.pack h).gen ≤ (t.pack h).gen)

/-! ### Invariants -/

/-- The queues of the Link Port keep their bounds (R169, R173, R175). -/
def Obligations.LinkBoundsKept : Prop := ∀ s t : State, s.linkBounded → step s = .next t → t.linkBounded

/-- The outputs follow their conditions: ATTENTION the latches and the masks (R179), each bin's lamp its mode and its
condition, a flash aside (R124), and HOLD the count of waiting records against HOLD_HIGH and HOLD_LOW (R170). -/
def Obligations.OutputsFollowKept : Prop :=
  ∀ s t : State, step s = .next t →
    (s.attentionFollows → t.attentionFollows) ∧ (s.lampsFollow → t.lampsFollow)
    ∧ (s.inRange → s.holdFollows → t.holdFollows)

/-- Pages received stays at most pages released, and pages released at most pages (R7). -/
def Obligations.PackCountersKept : Prop := ∀ s t : State, s.packsCounted → step s = .next t → t.packsCounted

/-- A FREE record stays cleared (R3), and the sparse tables of packs, class queues and enrolments keep their canonical
form. -/
def Obligations.FreeRecordsStayCleared : Prop :=
  ∀ s t : State, step s = .next t → (s.freeCleared → t.freeCleared) ∧ (s.canonical → t.canonical)

/-- The staging queues, the in-flight list, the drain markers and the edit group keep their bounds (R24, R29, R44,
R160). -/
def Obligations.ListBoundsKept : Prop := ∀ s t : State, s.listsBounded → step s = .next t → t.listsBounded

/-- The tables' quantities stay in their ranges and generations at most 3 (R2, R145, R151). -/
def Obligations.RangesKept : Prop := ∀ s t : State, s.inRange → step s = .next t → t.inRange

/-- Every record not FREE and not DISPOSING stays in its class's delivery queue exactly once, no other record is in a
queue, and the staple queue holds COMPLETE and STAPLING packs (R21, R96). -/
def Obligations.ClassQueuesKept : Prop :=
  ∀ s t : State, s.stapleQueueSound ∧ s.classQueuesAgree → step s = .next t →
    t.stapleQueueSound ∧ t.classQueuesAgree

/-- Each pocket that holds a pack names exactly that pack, that pack names that pocket, and no two packs name one
pocket; the delivery record names the DELIVERING pack and its pocket (R8, R112). -/
def Obligations.PocketsAgreeKept : Prop :=
  ∀ s t : State, s.stapleQueueSound ∧ s.pocketsAgree ∧ s.returnAgrees → step s = .next t →
    t.stapleQueueSound ∧ t.pocketsAgree ∧ t.returnAgrees

/-- The Stapler's, the Return Unit's and the pockets' own fields stay in agreement with one another and with the packs
(R70, R72, R76 to R79, R83, R86, R88, R95, R102, R106, R112): the volume index of a pocket follows its pack's plan and
the volume in hand, and a purge runs only outside HALT and while no volume operation is in flight on its pocket (R87,
R90). Where they agree, nothing that may go on is left standing: a pending purge is started as soon as the run state is
not HALT and no volume operation is in flight on its pocket (R87); an IDLE Stapler takes up the head of its queue
(R97); an eligible pack joins the delivery queue, and an IDLE Return Unit starts the delivery of one (R115, R116);
STOPPING ends when the device is at rest (R186), and STARTING with the last purge (R190). -/
def Obligations.PurgesStartAtOnce : Prop :=
  ∀ s t : State, s.workSound → step s = .next t →
    t.workSound ∧ (s.purgesPrompt → t.purgesPrompt) ∧ (s.workPrompt → t.workPrompt)

/-! ### Resets -/

/-- The state right after power-on: STARTING with its start-up purges running, nothing staged, in flight or queued, the
tables at their defaults, 5000 staples, no latch (R26, R43, R46, R93, R111, R127, R163, R176, R183, R190); every
invariant holds in it. -/
def Obligations.ResetStateIsSafe : Prop :=
  State.reset.safe
    ∧ State.reset.run.state = .starting .powerOn false ∧ State.reset.live = []
    ∧ (∀ p : PocketId, State.reset.pockets[p].state = .purging ∧ State.reset.pockets[p].purge = .running
        ∧ State.reset.pockets[p].purgeAllowance = 4000)
    ∧ (∀ f : FeedId, State.reset.feeds[f].state = .offline ∧ State.reset.feeds[f].queue = []
        ∧ State.reset.tables.travel[f] = 1500)
    ∧ State.reset.arb.inFlight = [] ∧ State.reset.arb.aLast = State.reset.now ∧ State.reset.arb.blockTimer = none
    ∧ State.reset.stapler.state = .idle ∧ State.reset.stapler.remaining = 5000
    ∧ State.reset.ret.state = .idle ∧ State.reset.ret.delivery = none
    ∧ (∀ b : BinId, State.reset.ret.bins[b].capacity = 800 ∧ State.reset.ret.bins[b].fill = 0)
    ∧ State.reset.tables.settings = Settings.default ∧ State.reset.tables.mark = none
    ∧ State.reset.tables.group = none ∧ (∀ c : Cause, State.reset.latched c = false)
    ∧ State.reset.told = [] ∧ State.reset.link.hold = false ∧ State.reset.link.loopback = false

/-- POWER_ON and RESET_PIN lead to the state right after power-on with the straps read, RESET ALL to it with the strap
values held; power-on alone starts the time base anew, and RESET ALL keeps the record being sent and adds its Result
(R26, R43, R46, R93, R111, R127, R163, R176, R183, R190, R191). What the time base starts from at power-on, and the
merge gate, at reject after power-on and the RESET pin and left where it stands by RESET ALL, are the model's choice
(assumption 2). -/
def Obligations.ColdResetsRestart : Prop :=
  ∀ s : State,
    let port := { LinkPort.cleared with boundaries := s.link.boundaries }
    (∀ straps, exec (.powerOn straps) s = .next (s.startedUp 0 .reject .powerOn straps port))
    ∧ (∀ straps, exec (.resetPin straps) s = .next (s.startedUp s.now .reject .pin straps port))
    ∧ ∀ a, s.takesCommand (.resetAll false a) → ∃ t, exec (.resetAll false a) s = .next t
        ∧ t = s.startedUp s.now s.arb.gate .all s.run.straps t.link
        ∧ t.told = (if s.link.sending = none then [] else s.link.outbound.take 1) ++ [.result kindControl .accepted {} []]
        ∧ t.link.receiver = .waiting ∧ t.link.inbound = [] ∧ t.link.loopback = false ∧ t.link.echoes = []
        ∧ t.link.hold = false

/-- RESET WORK frees every pack and clears the work, keeps the tables, the latches and the bins' fill, and starts up:
every pocket that is not EMPTY is purged, and where all are EMPTY the start-up ends at once in STANDBY, or in HALT
where the STOP input is low, with its Start Report after the Result (R26, R43, R46, R93, R111, R127, R163, R190, R191).
That the merge gate is left where it stands is the model's choice (assumption 2). -/
def Obligations.ResetWorkClearsTheWork : Prop :=
  ∀ (a : Byte) (s : State), s.takesCommand (.resetWork false a) → s.attentionFollows → s.stacksSound →
    let empty := allPockets.all fun p => decide (s.pockets[p].state = .empty)
    let entered : RunState := if s.pins.stopHigh then .standby else .halt .stop .standby
    ∃ t, exec (.resetWork false a) s = .next t
      ∧ t.reg = { packs := [], queues := [], markers := [], serial := 0 }
      ∧ (∀ f : FeedId, t.feeds[f] =
          { state := if s.feeds[f].state = .online then .online else .offline
            queue := [], shelf := if s.pins.sheetPresent[f] then .present else .empty, wait := none, discard := false })
      ∧ t.arb = { s.arb with inFlight := [], aLast := s.now, blockTimer := none, pick := none }
      ∧ (∀ p : PocketId, t.pockets[p] = if s.pockets[p].state = .empty then s.pockets[p] else
          { s.pockets[p] with state := .purging, pack := none, purge := .running, cause := .none, offset := false
                              purgeStart := s.now, purgeAllowance := s.tables.settings.mechTimeout })
      ∧ t.stapler = { s.stapler with state := .idle, queue := [], work := none, command := none }
      ∧ t.ret.state = .idle ∧ t.ret.queue = [] ∧ t.ret.delivery = none ∧ t.ret.command = none
      ∧ (∀ b : BinId, t.ret.bins[b].unlit = { s.ret.bins[b] with flash := none }.unlit)
      ∧ t.tables = { s.tables with mark := none, group := none } ∧ t.attn = s.attn
      ∧ t.run = { state := if empty then entered else .starting .work false, straps := s.run.straps }
      ∧ t.told = s.told ++ .result kindControl .accepted {} []
          :: (if empty then [.startReport s.run.straps .work (runCodeOf entered)] else [])
      ∧ t.now = s.now ∧ t.pins = s.pins ∧ t.releasePulses = s.releasePulses

/-! ### Records -/

/-- The layouts of R193 and the commands agree, both ways: a well-formed command of the sheet link is what its record is
read as, and every record is read as a well-formed command whose record it is. -/
def Obligations.RecordLayoutsRoundTrip : Prop :=
  (∀ (i : Instr) (r : Record), i.WellFormed = true → recordOf i = some r → instrOf r = i)
    ∧ ∀ r : Record, r.payload.length ≤ 60 → (instrOf r).WellFormed = true ∧ recordOf (instrOf r) = some r

/-- Records written out from R192 and R193, byte by byte, and the commands they carry; and characters written out from
R164, bit by bit, the stop bit leftmost and the start bit rightmost, with their events, two of them with the line low
for some bit times more. -/
def Obligations.RecordsOfTheLayouts : Prop :=
  instrOf ⟨false, 0x01, [2, 12, 1, 0, 0x34, 0x01]⟩ = .sheetNotice false 2 12 1 0 0x0134
    ∧ instrOf ⟨false, 0x02, [12, 4, 101, 0, 18]⟩ = .packAnnounce false 12 4 101 18
    ∧ instrOf ⟨false, 0x04, [3, 0, 2, 53]⟩ = .tableRead false 3 512 53
    ∧ instrOf ⟨true, 0x05, [4, 1, 0, 104, 0]⟩ = .tableWrite true 4 1 [104, 0]
    ∧ instrOf ⟨false, 0x08, [2]⟩ = .groupClose false
    ∧ instrOf ⟨false, 0x08, [4]⟩ = .undefinedActionCode false (.group 4)
    ∧ instrOf ⟨true, 0x0B, [3, 0]⟩ = .standby true 0
    ∧ instrOf ⟨false, 0x0B, [7, 2]⟩ = .clearReturn false 2
    ∧ instrOf ⟨false, 0x0A, [0]⟩ = .undefinedRecordKind false 0x0A [0]
    ∧ instrOfFrame 0b100000000110 = .inboundCharacterTaken false 0x03
    ∧ instrOfFrame 0b110000001110 = .inboundCharacterTaken false 0x07
    ∧ instrOfFrame 0b101000000100 = .inboundCharacterTaken true 0x02
    ∧ instrOfFrame 0b101111001010 = .stopCharacter
    ∧ instrOfFrame 0b110000000110 = .lineError ⟨true, true⟩ false 0x03
    ∧ instrOfFrame 0b000000000110 = .lineError ⟨false, false⟩ false 0x03
    ∧ instrOfLow 24 = .lineError ⟨false, false⟩ false 0 ∧ instrOfLow 25 = .lineBreak
    ∧ instrOfLine 0b001000000110 22 = .lineError ⟨false, false⟩ true 0x03 ∧ instrOfLine 0b001000000110 23 = .lineBreak

/-- What becomes of a record that is not passed on (R167, R169, R170, R171, R175): one taken in loopback that is not
Control, or taken broadcast that is neither Control nor Table Write, is discarded with no Result; one that stands at
the head of the inbound queue waits while the Record Handler may take none; one that has just been completed has its
last character echoed in loopback and leaves the receiver WAITING, and joins the queue's tail with HOLD judged, or,
with 32 waiting, is dropped with OVERRUN latched and, if it was addressed to the station, an OVERRUN Result where the
outbound queue has room. That a command of the sheet link stands for a record at the head of the queue or one just
completed is the model's own convention (assumption 4). -/
def Obligations.RecordsWaitOrAreDiscarded : Prop :=
  ∀ (c : Instr) (r : Record) (s : State), recordOf c = some r → s.attentionFollows →
    (s.takes r →
      (s.link.loopback = true ∧ r.kind ≠ kindControl)
        ∨ (r.bcast = true ∧ r.kind ≠ kindControl ∧ r.kind ≠ kindTableWrite) →
      exec c s = .next { s.taken r with link := (s.taken r).link.boundary })
    ∧ (s.link.inbound.head? = some r → s.handlerReady = false → exec c s = .next s)
    ∧ (s.link.inbound.head? ≠ some r → s.link.inbound ≠ [] ∨ s.handlerReady = false →
        ∃ t, exec c s = .next t ∧ t.link.receiver = .waiting
          ∧ t.link.echoes = (if s.link.loopback = true ∧ s.link.echoes.length < 32
              then s.link.echoes ++ [⟨false, r.payload.getLastD 0⟩] else s.link.echoes)
          ∧ (s.link.inbound.length < 32 →
              t = { s with link := t.link } ∧ t.link.inbound = s.link.inbound ++ [r] ∧ t.told = s.told
                ∧ t.link.hold = (s.link.hold
                    || decide (s.tables.settings.holdHigh ≤ s.link.inbound.length + 1))
                ∧ t.link.pacing = (if t.link.hold = s.link.hold then s.link.pacing
                    else if s.link.pacing = none then some .hold else none))
          ∧ (32 ≤ s.link.inbound.length →
              s.sameWork t ∧ t.link.inbound = s.link.inbound ∧ t.latched .overrun = true
                ∧ (r.bcast = false → s.link.hasRoom = true → s.tells t (.result r.kind .overrun {} []))))

/-- A Control record that came broadcast has the effect it has when it is addressed to the station; only its Result is
not sent (R167, R172). -/
def Obligations.BroadcastControlActsWithoutResult : Prop :=
  ∀ (action argument : Byte) (s : State), s.handlerReady = true → s.link.inbound = [] →
    ∃ (t u : State) (x y : List OutRecord) (status : Status) (data : List Byte),
      exec (controlInstr false action argument) s = .next t
        ∧ exec (controlInstr true action argument) s = .next u
        ∧ u = { t with link := u.link }
        ∧ { u.link with outbound := [], held := [], sending := none, stalled := false }
          = { t.link with outbound := [], held := [], sending := none, stalled := false }
        ∧ t.told = x ++ .result kindControl status {} data :: y ∧ u.told = x ++ y

/-- A record with an undefined kind or a length that does not suit its kind, and a Group or Control record with an
undefined action code, is refused with BAD_VALUE and changes nothing (R171). -/
def Obligations.UndefinedRecordsAreRefused : Prop :=
  (∀ (kind : Byte) (payload : List Byte) (s : State), s.takesCommand (.undefinedRecordKind false kind payload) →
      s.attentionFollows → ∃ t, exec (.undefinedRecordKind false kind payload) s = .next t
        ∧ (s.takenFor (.undefinedRecordKind false kind payload)).onlyTells t (.result kind .badValue {} []))
    ∧ ∀ (x : ActionRecord) (s : State), s.takesCommand (.undefinedActionCode false x) → s.attentionFollows →
      ∃ t, exec (.undefinedActionCode false x) s = .next t
        ∧ (s.takenFor (.undefinedActionCode false x)).onlyTells t
            (.result (match x with | .group _ => kindGroup | .control _ _ => kindControl) .badValue {} [])

/-! ### Characters -/

/-- A sound character on the inbound line (R165, R166, R168, R175): an address starts a record for this station or a
broadcast, or starts skipping; any control character cuts a record short with LINK_ERROR; a data character is passed
over in WAITING and SKIPPING and collected in ASSEMBLING; the last one of a record completes it; a length above 60
spoils it. A record addressed to this station that is cut short or spoiled has a LINE_ERROR Result with the kind
received, or kind 0, where the outbound queue has room, and a broadcast has none. In loopback the character is echoed,
with 32 echoes at most waiting. That an undefined control leaves SKIPPING as it is is the model's reading (assumption
17); that the last character stands for RECORD_COMPLETE its convention (assumption 5); a control 0xE5 comes as
STOP_CHARACTER, and what this command does with one is the model's choice (assumption 26). -/
def Obligations.CharactersAreAssembled : Prop :=
  ∀ (s : State) (d : Byte),
    let spoiled (t : State) (b : Bool) (kind : Byte) : Prop :=
      t.latched .linkError = true
      ∧ (b = false → s.link.hasRoom = true → s.tells t (.result kind .lineError {} []))
      ∧ (b = true ∨ s.link.hasRoom = false → ∃ x, t.told = s.told ++ x ∧ ∀ o ∈ x, OutRecord.isNotice o = true)
    (∀ mark, ∃ t, exec (.inboundCharacterTaken mark d) s = .next t ∧ s.sameWork t
      ∧ t.link.echoes = (if s.link.loopback = true ∧ s.link.echoes.length < 32 then s.link.echoes ++ [⟨mark, d⟩]
          else s.link.echoes)
      ∧ (mark = true →
          t.link.receiver = (if d.toNat = 0 then .assembling true []
            else if d.toNat = s.run.straps.station.val + 1 then .assembling false []
            else if d.toNat ≤ 4 then .skipping
            else if s.link.receiver.isAssembling then .waiting else s.link.receiver)
          ∧ ∀ b got, s.link.receiver = .assembling b got → spoiled t b (got.headD 0))
      ∧ (mark = false →
          (s.link.receiver.isAssembling = false → t.link.receiver = s.link.receiver ∧ t.link.inbound = s.link.inbound)
          ∧ (∀ b, s.link.receiver = .assembling b [] → t.link.receiver = .assembling b [d])
          ∧ (∀ b k, s.link.receiver = .assembling b [k] → 1 ≤ d.toNat → d.toNat ≤ 60 →
              t.link.receiver = .assembling b [k, d])
          ∧ (∀ b k, s.link.receiver = .assembling b [k] → 60 < d.toNat →
              t.link.receiver = .waiting ∧ spoiled t b k)
          ∧ ∀ b k l p, s.link.receiver = .assembling b (k :: l :: p) → p.length + 1 ≠ l.toNat →
              t.link.receiver = .assembling b (k :: l :: (p ++ [d]))))
    ∧ (∀ b k, s.link.receiver = .assembling b [k] → d = 0 →
        exec (.inboundCharacterTaken false d) s = exec (.recordComplete b k []) s)
    ∧ ∀ b k l p, s.link.receiver = .assembling b (k :: l :: p) → p.length + 1 = l.toNat →
        exec (.inboundCharacterTaken false d) s = exec (.recordComplete b k (p ++ [d])) s

/-- A record that its last character completes is offered to the inbound queue (R166, R169, R170). A character of 12
bits is sent with a low start bit, the data bits least significant first, the mark bit, a parity bit and a high stop
bit, and is in error where the ones among data, mark and parity are odd or the stop bit is low (R164). One in error
spoils what the receiver was doing, with LINK_ERROR latched and a LINE_ERROR Result, where there is room, for a record
addressed to this station, and is echoed in loopback (R168, R175); a sound character that spoils a record does the same
as it is taken. A character that ends in a line low for more than 24 bit times, from the last of its ones on, is a
BREAK, which clears the receiver and does nothing else (R164, R168); that a shorter low line is one character and no
more is the model's choice (assumption 34). That one command carries a whole record is the model's own convention
(assumption 5). -/
def Obligations.RecordsCompleteOrSpoil : Prop :=
  (∀ (b : Bool) (kind : Byte) (payload : List Byte) (s : State), ∃ t, exec (.recordComplete b kind payload) s = .next t
    ∧ s.sameWork t ∧ t.link.receiver = .waiting
    ∧ t.link.echoes = (if s.link.loopback = true ∧ s.link.echoes.length < 32
        then s.link.echoes ++ [⟨false, payload.getLastD 0⟩] else s.link.echoes)
    ∧ (s.link.inbound.length < 32 → t.link.inbound = s.link.inbound ++ [⟨b, kind, payload⟩]
        ∧ t.link.hold = (s.link.hold || decide (s.tables.settings.holdHigh ≤ s.link.inbound.length + 1)))
    ∧ (32 ≤ s.link.inbound.length → t.link.inbound = s.link.inbound ∧ t.latched .overrun = true
        ∧ (b = false → s.link.hasRoom = true → s.tells t (.result kind .overrun {} []))))
  ∧ (∀ c : LineChar, (frameOf c).getLsbD 0 = false ∧ (∀ i : Fin 8, (frameOf c).getLsbD (i + 1) = c.data.getLsbD i)
      ∧ (frameOf c).getLsbD 9 = c.mark ∧ (frameOf c).getLsbD 11 = true ∧ frameSound (frameOf c) = true
      ∧ charOf (frameOf c) = c)
  ∧ (∀ f : Frame, frameSound f = true
      ↔ ((List.range 10).filter fun i => f.getLsbD (i + 1)).length % 2 = 0 ∧ f.getLsbD 11 = true)
  ∧ (∀ (f : Frame) (n low : Nat), n ≤ 12 → (∀ i < n, f.getLsbD (11 - i) = false) →
      (n < 12 → f.getLsbD (11 - n) = true) →
      (instrOfLine f low = .lineBreak ↔ 0 < n ∧ 24 < n + low)
      ∧ (¬(0 < n ∧ 24 < n + low) → instrOfLine f low = instrOfFrame f))
  ∧ (∀ low : Nat, (instrOfLow low = .lineBreak ↔ 24 < low)
      ∧ (low ≤ 24 → instrOfLow low = .lineError ⟨false, false⟩ false 0))
  ∧ (∀ (k : CheckBits) (mark : Bool) (data : Byte) (s : State),
      frameSound (frameWith k ⟨mark, data⟩) = false → ∃ t, exec (.lineError k mark data) s = .next t
      ∧ s.sameWork t ∧ t.link.receiver = .waiting ∧ t.link.inbound = s.link.inbound ∧ t.latched .linkError = true
      ∧ t.link.echoes = (if s.link.loopback = true ∧ s.link.echoes.length < 32
          then s.link.echoes ++ [⟨mark, data⟩] else s.link.echoes)
      ∧ ∀ got, s.link.receiver = .assembling false got → s.link.hasRoom = true →
          s.tells t (.result (got.headD 0) .lineError {} []))
  ∧ (∀ (k : CheckBits) (mark : Bool) (data : Byte) (s : State), frameSound (frameWith k ⟨mark, data⟩) = true →
      exec (.lineError k mark data) s = exec (.inboundCharacterTaken mark data) s)
  ∧ ∀ s : State, s.attentionFollows →
      exec .lineBreak s = .next { s with link := { s.link with receiver := .waiting }.boundary }

/-- The reply line (R170, R173, R174, R175): a record sent puts its last characters on the line and leaves the head of
the outbound queue, and the held list moves up; a pacing character due goes at a character boundary, and an echo
waiting where no pacing character is due, each behind whatever part of the record begun had gone before it, none of it
where one of them has waited since the boundary before; with neither waiting the next record is begun at once. Each
comes only while it can be sent. How much of a record has gone at a boundary is a free value (assumption 9), and that a
command does nothing while there is nothing to send is the model's own convention (assumption 6). -/
def Obligations.ReplyLineSends : Prop :=
  ∀ s : State, s.attentionFollows →
    let station := s.run.straps.station
    let waits (l : LinkPort) : Prop := l.pacing ≠ none ∨ l.echoes ≠ []
    let aside (t : State) (l : LinkPort) (c : LineChar) : Prop :=
      t = { s with link := { l with
        sending := t.link.sending, line := t.link.line, stalled := t.link.stalled, boundaries := l.boundaries + 1 } }
      ∧ (t.link.stalled = true ↔ waits l)
      ∧ ∃ gone, t.link.line = gone ++ [c] ∧ (s.link.stalled = true → gone = [])
          ∧ (s.link.sending = none → gone = []
              ∧ t.link.sending = if waits l ∨ s.link.outbound = [] then none else some 0)
          ∧ ∀ n r rest, s.link.sending = some n → s.link.outbound = r :: rest → n < (r.characters station).length →
              t.link.sending = some (n + gone.length)
              ∧ ∃ left, left ≠ [] ∧ (r.characters station).drop n = gone ++ left
    (∃ t, exec .recordSent s = .next t
      ∧ (s.link.sending = none ∨ s.link.stalled = true → t = s)
      ∧ ∀ n r rest, s.link.sending = some n → s.link.stalled = false → s.link.outbound = r :: rest →
          t.told = s.told.tail ∧ t.link.line = (r.characters station).drop n
            ∧ t.link.outbound = rest ++ s.link.held.take 1
            ∧ t = { s with link := { s.link with
                outbound := t.link.outbound, held := s.link.held.tail, line := t.link.line
                sending := if waits s.link ∨ t.link.outbound = [] then none else some 0 } })
    ∧ (∃ t, exec .pacingCharacterSent s = .next t ∧ (s.link.pacing = none → t = s)
        ∧ ∀ x, s.link.pacing = some x →
            aside t { s.link with pacing := none } ⟨true, match x with | .hold => 0xF0 | .resume => 0xF1⟩)
    ∧ ∃ t, exec .loopbackEchoSent s = .next t ∧ (s.link.pacing ≠ none ∨ s.link.echoes = [] → t = s)
        ∧ ∀ c rest, s.link.pacing = none → s.link.echoes = c :: rest → aside t { s.link with echoes := rest } c

/-- LOOPBACK ON sets the loopback flag and LOOPBACK OFF clears it; nothing else changes (R175). -/
def Obligations.LoopbackFlagIsSetAndCleared : Prop :=
  ∀ (a : Byte) (s : State), s.attentionFollows →
    (s.takesCommand (.loopbackOn false a) → ∃ t, exec (.loopbackOn false a) s = .next t
      ∧ State.onlyTells
          { s.takenFor (.loopbackOn false a) with
            link := { (s.takenFor (.loopbackOn false a)).link with loopback := true } }
          t (.result kindControl .accepted {} []))
    ∧ (s.takesCommand (.loopbackOff false a) → ∃ t, exec (.loopbackOff false a) s = .next t
      ∧ State.onlyTells
          { s.takenFor (.loopbackOff false a) with
            link := { (s.takenFor (.loopbackOff false a)).link with loopback := false } }
          t (.result kindControl .accepted {} []))

/-- A Status Read carries the top cause (the first set, unmasked latch in attention order), the latches, the live
conditions, the ATTENTION output, the run state and the staples remaining as they stand, and then clears every latch
whose live condition is absent; six causes have one, spelled out here (R178, R181, R182). -/
def Obligations.StatusReadReportsAndClears : Prop :=
  ∀ s : State, s.takesCommand (.statusRead false) → s.attentionFollows →
    (∃ t, exec (.statusRead false) s = .next t ∧ (s.takenFor (.statusRead false)).sameWork t
      ∧ t.told = s.told ++ [.result kindStatusRead .accepted {}
          ([causeCode s.topCause] ++ bytesOf (bitsOf (allCauses.map s.latched))
            ++ [byteOf (bitsOf (liveCauses.map s.liveCondition)), boolByte s.attn.output,
                runCode (runCodeOf s.run.state)]
            ++ bytesOf s.stapler.remaining)]
      ∧ (∀ c : Cause, t.latched c = (s.latched c && s.liveCondition c)) ∧ t.attentionFollows)
    ∧ (∀ c : Cause, s.topCause = some c
        ↔ s.latched c = true ∧ s.masked c = false
          ∧ ∀ d : Cause, s.latched d = true → s.masked d = false → causeIndex c ≤ causeIndex d)
    ∧ ∀ c : Cause, s.liveCondition c = true ↔ match c with
      | .stop => s.pins.stopHigh = false ∨ ∃ target, s.run.state = .halt .stop target
      | .jam => ∃ target, s.run.state = .halt .jam target
      | .mechFault => s.stapler.state = .faulted ∨ s.ret.state = .faulted
          ∨ ∃ p : PocketId, s.pockets[p].state = .outOfService ∧ s.pockets[p].cause = .fault
      | .staplesOut => s.stapler.state = .waitingCartridge
      | .binFull => ∃ (h : Handle) (b : BinId), (s.pack h).state = .ready
          ∧ (s.policyOf h = .unordered ∨ s.isClassHead h = true ∨ (s.pack h).flags.outOfTurn = true)
          ∧ s.binOf h = some b ∧ s.ret.bins[b].inService = true
          ∧ s.ret.bins[b].capacity < s.ret.bins[b].fill + (s.pack h).units
      | .staplesLow => s.stapler.remaining ≤ s.tables.settings.staplesLow
      | _ => False

/-! ### Packs -/

/-- A Pack Announce is refused, and changes nothing, by the first check that fails (R16, R17): in BYPASS, or on its way
there and back, with WRONG_STATE; where it names what does not exist, with BAD_VALUE; then by checks 1 to 7 against the
tables as they stand, TOO_THICK and TOO_THICK_TO_STAPLE with the total thickness computed; one that passes every check
is accepted, whether its class's bin is in service and has room or not. -/
def Obligations.AnnounceIsRefusedInOrder : Prop :=
  ∀ (handle job : Byte) (student : Half) (pages : Byte) (s : State),
    s.takesCommand (.packAnnounce false handle job student pages) → s.attentionFollows →
    let refused (status : Status) (data : List Byte) : Prop :=
      ∃ t, exec (.packAnnounce false handle job student pages) s = .next t
        ∧ (s.takenFor (.packAnnounce false handle job student pages)).onlyTells t
            (.result kindPackAnnounce status {} data)
    let unnamed := handle = 0 ∨ job = 0 ∨ 32 < job.toNat ∨ 1023 < student.toNat
    (s.bypassing = true → ¬unnamed → refused .wrongState [])
    ∧ (s.bypassing = false → unnamed → refused .badValue [])
    ∧ (s.bypassing = true → unnamed → refused .wrongState [] ∨ refused .badValue [])
    ∧ ∀ (h : Handle) (j : JobId) (st : StudentId), s.bypassing = false →
        handle.toNat = h.val + 1 → job.toNat = j.val + 1 → student.toNat = st.val →
        ((s.pack h).state ≠ .free → refused .handleInUse [])
        ∧ ((s.pack h).state = .free →
            (s.tables.jobs[j].isOpen = false → refused .jobClosed [])
            ∧ (s.tables.jobs[j].isOpen = true →
                (s.rosterClass st = none → refused .notEnrolled [])
                ∧ ∀ c : ClassId, s.rosterClass st = some c →
                    (s.tables.classes[c].bin = none → refused .noBin [])
                    ∧ (s.tables.classes[c].bin ≠ none →
                        (pages = 0 ∨ 60 < pages.toNat → refused .badValue [])
                        ∧ (1 ≤ pages.toNat → pages.toNat ≤ 60 →
                            let e := s.tables.jobs[j]
                            let total := s.tables.media[e.cover] + (pages.toNat - 1) * s.tables.media[e.body]
                            let binds := e.pattern = .none ∨ total ≤ s.tables.settings.stapleMax
                              ∨ e.oversize = .split ∨ e.oversize = .unstapled
                            (s.tables.settings.pocketMax < total → refused .tooThick (bytesOf total))
                            ∧ (total ≤ s.tables.settings.pocketMax → ¬binds →
                                refused .tooThickToStaple (bytesOf total))
                            ∧ (total ≤ s.tables.settings.pocketMax → binds →
                                ∃ t notes data, exec (.packAnnounce false handle job student pages) s = .next t
                                  ∧ s.tells t (.result kindPackAnnounce .accepted notes data))))))

/-- An accepted Pack Announce (R4, R5, R18, R21): the record is filled from the record and the tables as they stand, the
handle joins the tail of its class's queue, the announce counter goes up by 1, and the Result carries the total
thickness and the number of volumes. In RUN the pack may be opened in the same step, where a sheet for it stands at a
feed's head (R18, R47). -/
def Obligations.AnnounceIsAccepted : Prop :=
  ∀ (handle job : Byte) (student : Half) (pages : Byte) (s : State) (h : Handle) (j : JobId) (st : StudentId)
    (c : ClassId) (b : Budget),
    s.takesCommand (.packAnnounce false handle job student pages) → s.stapleQueueSound → s.bypassing = false →
    handle.toNat = h.val + 1 → job.toNat = j.val + 1 → student.toNat = st.val →
    (s.pack h).state = .free → s.tables.jobs[j].isOpen = true → s.rosterClass st = some c →
    s.tables.classes[c].bin ≠ none → 1 ≤ pages.toNat → pages.toNat ≤ 60 →
    s.budgetFor s.tables.jobs[j] pages.toNat = .fits b →
    let e := s.tables.jobs[j]
    let r : PackRec :=
      { state := .announced, job := j, student := st, cls := c, pages := pages.toNat, serial := s.reg.serial, gen := 0
        released := 0, received := 0, pocket := none
        snap := { cover := s.tables.media[e.cover], body := s.tables.media[e.body], pattern := e.pattern
                  staplesOut := e.staplesOut, plan := b.plan }
        total := b.total, units := b.units
        flags := { outOfTurn := false, unstapled := !b.plan.stapled && decide (e.pattern ≠ .none)
                   partlyStapled := false } }
    ∃ t, exec (.packAnnounce false handle job student pages) s = .next t
      ∧ (s.takenFor (.packAnnounce false handle job student pages)).surrounds t
      ∧ s.tells t (.result kindPackAnnounce .accepted { splitLimit := b.splitLimit }
          (bytesOf b.total ++ [byteOf b.plan.ends.length]))
      ∧ (t.pack h = r ∨ (s.run.state = .run ∧ (t.pack h).state = .opened ∧ (t.pack h).fixed = r.fixed
          ∧ (t.pack h).gen = 0 ∧ (t.pack h).received = 0))
      ∧ (∀ k : Handle, k ≠ h → (t.pack k).fixed = (s.pack k).fixed ∧ (t.pack k).gen = (s.pack k).gen
          ∧ (t.pack k).received = (s.pack k).received)
      ∧ (∀ d : ClassId, t.classQueue d = if d = c then s.classQueue c ++ [h] else s.classQueue d)
      ∧ t.reg.serial = s.reg.serial + 1 ∧ t.reg.markers = s.reg.markers

/-- The greedy split (R83): the end pages rise to the last page, each volume's thickness is at most the staple limit,
and each volume but the last could not have taken the next page. -/
def Obligations.GreedySplitFillsEachVolume : Prop :=
  ∀ limit pages cover body : Nat, 1 ≤ pages → cover ≤ limit → body ≤ limit →
    let thickness (first last : Nat) : Nat := (if first = 1 then cover else body) + (last - first) * body
    (greedySplit limit pages cover body).getLast? = some pages
    ∧ ∀ x ∈ (0 :: greedySplit limit pages cover body).zip (greedySplit limit pages cover body),
        x.1 < x.2 ∧ thickness (x.1 + 1) x.2 ≤ limit
          ∧ (x.2 ≠ pages → limit < thickness (x.1 + 1) x.2 + body)

/-- The stack budget (R81 to R84): the total, TOO_THICK above POCKET_MAX, one volume where the pattern is NONE or the
total at most STAPLE_MAX, else by the oversize policy, the split falling back to one unstapled volume above four; the
bin units are the total divided by 100, rounded up. -/
def Obligations.StackBudgetDecides : Prop :=
  ∀ (pages cover body limit pocket : Nat) (pattern : StaplePattern) (policy : OversizePolicy), 1 ≤ pages →
    let total := cover + (pages - 1) * body
    let units := total / 100 + (if total % 100 = 0 then 0 else 1)
    let ends := greedySplit limit pages cover body
    stackBudget pages cover body limit pocket pattern policy =
      if pocket < total then .tooThick total
      else if pattern = .none then .fits ⟨total, ⟨[pages], false⟩, units, false⟩
      else if total ≤ limit then .fits ⟨total, ⟨[pages], true⟩, units, false⟩
      else if policy = .refuse then .tooThickToStaple total
      else if policy = .unstapled then .fits ⟨total, ⟨[pages], false⟩, units, false⟩
      else if ends.length ≤ 4 then .fits ⟨total, ⟨ends, true⟩, units, false⟩
      else .fits ⟨total, ⟨[pages], false⟩, units, true⟩

/-- A Pack Withdraw (R19, R25): refused for handle 0, a FREE or DISPOSING pack and a DELIVERING one, with nothing
changed; otherwise the Result carries the pack's state, the pack leaves its class queue, the staple queue and the
delivery queue, and an ANNOUNCED pack goes FREE, its Drain Completes after the Result, while any other goes DISPOSING
with the rest of its record as it was. -/
def Obligations.WithdrawIsDecidedByTheState : Prop :=
  ∀ (handle : Byte) (s : State), s.takesCommand (.packWithdraw false handle) →
    let refused (status : Status) : Prop := ∃ t, exec (.packWithdraw false handle) s = .next t
      ∧ (s.takenFor (.packWithdraw false handle)).onlyTells t (.result kindPackWithdraw status {} [])
    (handle = 0 → s.attentionFollows → refused .badValue)
    ∧ ∀ h : Handle, handle.toNat = h.val + 1 →
        ((s.pack h).state = .free ∨ (s.pack h).state = .disposing → s.attentionFollows → refused .noSuchPack)
        ∧ ((s.pack h).state = .delivering → s.attentionFollows → refused .tooLate)
        ∧ ((s.pack h).state ≠ .free → (s.pack h).state ≠ .disposing → (s.pack h).state ≠ .delivering →
            let freed := decide ((s.pack h).state = .announced)
            let done (m : Marker) : Bool := (m.watch.filter fun k => decide (k ≠ h)).isEmpty
            ∃ t, exec (.packWithdraw false handle) s = .next t
              ∧ (s.takenFor (.packWithdraw false handle)).surrounds t
              ∧ (∃ x, (∀ o ∈ x, OutRecord.isNotice o = true)
                  ∧ t.told = s.told ++ x ++ .result kindPackWithdraw .accepted {} [packStateCode (s.pack h).state]
                    :: (if freed then (s.reg.markers.filter done).map fun m => .drainComplete m.id else []))
              ∧ t.pack h = (if freed then PackRec.cleared else { s.pack h with state := .disposing })
              ∧ (∀ c : ClassId, t.classQueue c = if c = (s.pack h).cls then
                    (s.classQueue c).filter fun k => decide (k ≠ h) else s.classQueue c)
              ∧ h ∉ t.stapler.queue ∧ h ∉ t.ret.queue
              ∧ t.reg.markers = (if freed then (unwatch h s.reg.markers).filter fun m => !m.watch.isEmpty
                  else s.reg.markers)
              ∧ t.reg.serial = s.reg.serial)

/-- A Drain Marker (R24): with nothing to watch it is finished at once, its Drain Complete after its Result; otherwise
it becomes outstanding, watching every record that is not FREE, unless four are outstanding already. -/
def Obligations.DrainMarkerIsTaken : Prop :=
  ∀ (id : Byte) (s : State), s.takesCommand (.drainMarker false id) → s.attentionFollows →
    (∀ h : Handle, h ∈ s.live ↔ (s.pack h).state ≠ .free)
    ∧ let u := s.takenFor (.drainMarker false id)
      ∃ t, exec (.drainMarker false id) s = .next t
        ∧ (s.live = [] → u.sameWork t ∧ t.attn = s.attn
            ∧ t.told = s.told ++ [.result kindDrainMarker .accepted {} [0], .drainComplete id])
        ∧ (s.live ≠ [] → s.reg.markers.length < 4 →
            State.onlyTells { u with reg := { u.reg with markers := u.reg.markers ++ [⟨id, s.live⟩] } } t
              (.result kindDrainMarker .accepted {} [byteOf s.live.length]))
        ∧ (s.live ≠ [] → 4 ≤ s.reg.markers.length → u.onlyTells t (.result kindDrainMarker .drainFull {} []))

/-! ### Sheets -/

/-- A Sheet Notice is refused, and changes nothing, by the first check that fails (R30, R31, R33): the run state, the
values, the feed's state, its queue, the pack, the generation; one that passes every check, whatever the pack's page
count and however far below the pack's generation its own is, is accepted with no Result. -/
def Obligations.SheetNoticeIsRefusedInOrder : Prop :=
  ∀ (feed handle page generation : Byte) (tag : Half) (s : State),
    s.takesCommand (.sheetNotice false feed handle page generation tag) → s.attentionFollows →
    let inRange := 1 ≤ feed.toNat ∧ feed.toNat ≤ 4 ∧ 1 ≤ handle.toNat ∧ 1 ≤ page.toNat ∧ page.toNat ≤ 60
      ∧ generation.toNat ≤ 3 ∧ tag.toNat ≤ 4095
    let refused (status : Status) : Prop :=
      ∃ t, exec (.sheetNotice false feed handle page generation tag) s = .next t
        ∧ ∃ length gen : Byte,
          (s.takenFor (.sheetNotice false feed handle page generation tag)).onlyTells t
            (.result kindSheetNotice status {} [feed, handle, page, length, gen])
          ∧ (∀ f : FeedId, feed.toNat = f.val + 1 → length = byteOf s.feeds[f].queue.length)
          ∧ (∀ h : Handle, handle.toNat = h.val + 1 → gen = byteOf (s.pack h).gen)
    (s.takesNotices = false → refused .wrongState)
    ∧ (s.takesNotices = true → ¬inRange → refused .badValue)
    ∧ ∀ (f : FeedId) (h : Handle), s.takesNotices = true → inRange → feed.toNat = f.val + 1 →
        handle.toNat = h.val + 1 →
        (s.feeds[f].state ≠ .online → refused .feedOffline)
        ∧ (s.feeds[f].state = .online →
            (6 ≤ s.feeds[f].queue.length → refused .feedFull)
            ∧ (s.feeds[f].queue.length < 6 →
                ((s.pack h).state = .free ∨ (s.pack h).state = .disposing → refused .noSuchPack)
                ∧ ((s.pack h).state ≠ .free → (s.pack h).state ≠ .disposing →
                    ((s.pack h).gen < generation.toNat → refused .badGeneration)
                    ∧ (generation.toNat ≤ (s.pack h).gen →
                        ∃ t, exec (.sheetNotice false feed handle page generation tag) s = .next t
                          ∧ ∃ x, t.told = s.told ++ x ∧ ∀ o ∈ x, OutRecord.isNotice o = true))))

/-- An accepted Sheet Notice (R32): its entry joins the tail of the feed's queue, the wait stops, a pending discard is
cancelled, and no Result is sent. In RUN the feed may be released in the same step, which takes the queue's head (R47,
R52). -/
def Obligations.SheetNoticeIsAccepted : Prop :=
  ∀ (feed handle page generation : Byte) (tag : Half) (s : State) (f : FeedId) (h : Handle),
    s.takesCommand (.sheetNotice false feed handle page generation tag) → s.takesNotices = true →
    feed.toNat = f.val + 1 → handle.toNat = h.val + 1 → 1 ≤ page.toNat → page.toNat ≤ 60 → generation.toNat ≤ 3 →
    tag.toNat ≤ 4095 → s.feeds[f].state = .online → s.feeds[f].queue.length < 6 → (s.pack h).state ≠ .free →
    (s.pack h).state ≠ .disposing → generation.toNat ≤ (s.pack h).gen →
    let q := s.feeds[f].queue ++ [⟨h, page.toNat, generation.toNat, tag.setWidth 12⟩]
    ∃ t, exec (.sheetNotice false feed handle page generation tag) s = .next t
      ∧ (s.takenFor (.sheetNotice false feed handle page generation tag)).surrounds t
      ∧ s.keepsPacks t ∧ s.keepsBins t []
      ∧ (∃ x, t.told = s.told ++ x ∧ ∀ o ∈ x, OutRecord.isNotice o = true)
      ∧ (t.feeds[f].queue = q ∨ (s.run.state = .run ∧ t.feeds[f].queue = q.tail ∧ t.feeds[f].shelf = .clearing))
      ∧ t.feeds[f].wait = none ∧ t.feeds[f].discard = false ∧ t.feeds[f].state = .online
      ∧ ∀ g : FeedId, g ≠ f → t.feeds[g].queue = s.feeds[g].queue
          ∨ (s.run.state = .run ∧ t.feeds[g].queue = s.feeds[g].queue.tail ∧ t.feeds[g].shelf = .clearing)

/-- FEED FLUSH (R36): a feed number outside 1 to 4 is refused with BAD_VALUE; otherwise, in every run state in which
records are handled, the feed's queue is emptied, its pending discard cancelled and its wait stopped, to start again at
once where the feed is ONLINE, the run state RUN and the shelf PRESENT; the feed state and the shelf stay (a release in
BYPASS, which needs no entry, may follow); a change of the queue length clears the mark on the feed's entry and is
followed by every release due; the sheets in flight stay in flight, no pack is announced, freed, restarted or withdrawn
and no sheet admitted (pages released and what goes with it may move on with the releases that follow), and the Result
carries the number of entries dropped. -/
def Obligations.FeedFlushEmptiesTheQueue : Prop :=
  ∀ (feed : Byte) (s : State), s.takesCommand (.feedFlush false feed) →
    (feed = 0 ∨ 4 < feed.toNat → s.attentionFollows → ∃ t, exec (.feedFlush false feed) s = .next t
      ∧ (s.takenFor (.feedFlush false feed)).onlyTells t (.result kindControl .badValue {} []))
    ∧ ∀ f : FeedId, feed.toNat = f.val + 1 → ∃ t, exec (.feedFlush false feed) s = .next t
      ∧ (s.takenFor (.feedFlush false feed)).surrounds t ∧ s.keepsPacks t ∧ s.keepsBins t []
      ∧ t.feeds[f].queue = [] ∧ t.feeds[f].discard = false ∧ t.feeds[f].state = s.feeds[f].state
      ∧ (t.feeds[f].shelf = s.feeds[f].shelf ∨ (s.run.state = .bypass ∧ t.feeds[f].shelf = .clearing))
      ∧ s.arb.inFlight <+: t.arb.inFlight
      ∧ (s.feeds[f].queue ≠ [] → t.tables.mark ≠ some (.feed f) ∧ t.choose = none)
      ∧ t.feeds[f].wait = (if s.feeds[f].state = .online ∧ s.run.state = .run ∧ s.feeds[f].shelf = .present
          then some s.now else none)
      ∧ s.tells t (.result kindControl .accepted {} [byteOf s.feeds[f].queue.length])

/-- The sheet-present inputs and the unannounced-sheet wait (R37, R39, R40): going active makes an EMPTY shelf PRESENT,
going inactive makes it EMPTY and cancels a pending discard, and an input that does not change does nothing; the wait
runs from the moment its conditions hold; when NOTICE_WAIT has passed it sets a pending discard, which a release in the
same step may carry out with UNANNOUNCED latched. That the wait is stopped while its discard is pending is the model's
reading (assumption 14), and that an input that goes to the level it has does nothing its convention (assumption 6). -/
def Obligations.ShelfEventsAndWaits : Prop :=
  ∀ (f : FeedId) (s : State),
    (s.pins.sheetPresent[f] = true → exec (.sheetPresentActive f) s = .next s)
    ∧ (s.pins.sheetPresent[f] = false → exec (.sheetPresentInactive f) s = .next s)
    ∧ (s.pins.sheetPresent[f] = false → ∃ t, exec (.sheetPresentActive f) s = .next t
        ∧ s.keepsPacks t ∧ s.keepsBins t [] ∧ t.pins.sheetPresent[f] = true
        ∧ (s.feeds[f].shelf = .clearing → t.feeds[f].shelf = .clearing)
        ∧ (s.feeds[f].shelf ≠ .clearing →
            t.feeds[f].shelf = .present ∨ (t.releasing = true ∧ t.feeds[f].shelf = .clearing))
        ∧ (t.waitHolds f = true → t.feeds[f].discard = false →
            t.feeds[f].wait = some (s.feeds[f].wait.getD s.now))
        ∧ (t.waitHolds f = false → t.feeds[f].wait = none))
    ∧ (s.pins.sheetPresent[f] = true → ∃ t, exec (.sheetPresentInactive f) s = .next t
        ∧ s.keepsPacks t ∧ s.keepsBins t [] ∧ t.pins.sheetPresent[f] = false
        ∧ t.feeds[f].shelf = .empty ∧ t.feeds[f].discard = false ∧ t.feeds[f].wait = none
        ∧ (s.starting = false → t.feeds[f].queue = s.feeds[f].queue))
    ∧ ∃ t, exec (.unannouncedSheetWaitExpiry f) s = .next t
        ∧ (∀ start, s.feeds[f].wait = some start → s.waitHolds f = true →
            (s.tables.settings.noticeWait : Int) ≤ elapsed s.now start →
            s.surrounds t ∧ s.keepsPacks t ∧ s.keepsBins t [] ∧ t.feeds[f].wait = none
            ∧ ((t.feeds[f].discard = true ∧ t.feeds[f].shelf = .present)
              ∨ (t.feeds[f].discard = false ∧ t.feeds[f].shelf = .clearing ∧ t.latched .unannounced = true)))
        ∧ ((∀ start, s.feeds[f].wait = some start → s.waitHolds f = true →
            elapsed s.now start < (s.tables.settings.noticeWait : Int)) → t = s)

/-! ### The Merge Arbiter -/

/-- An arrival that is the head entry's sheet (R56, R69, R75): the head leaves the in-flight list, and the gate is set
by its disposition. A COLLATE goes to its pack's pocket while the pack is OPEN in the entry's generation, and the sheet
is admitted, raising pages received, sheets held and thickness held; the end page of a volume that is not the last moves
the volume index and the offset output on, and the last page makes the pocket HELD (R76, R77), the pack READY, or
COMPLETE and, by an IDLE Stapler, taken up in the same step (R97). An admission that finds pages received at pages
released is ignored (R7). Any other COLLATE goes to reject and nothing is requested. -/
def Obligations.ArrivalOfTheHeadIsTaken : Prop :=
  ∀ (tag : Option TagNum) (s : State) (e : InFlight) (rest : List InFlight),
    s.halted = false → s.arb.inFlight = e :: rest → s.stapleQueueSound →
    (e.disp = .pass ∨ e.tag = .any ∨ e.tag = .untagged ∨ ∃ n, tag = some n ∧ e.tag = .num n) →
    ∃ t, exec (.arrival tag) s = .next t ∧ s.surrounds t ∧ s.keepsBins t [] ∧ rest <+: t.arb.inFlight
      ∧ (e.disp = .discard → t.arb.gate = .reject ∧ s.keepsPacks t)
      ∧ (e.disp = .pass → t.arb.gate = .passThrough ∧ s.keepsPacks t)
      ∧ ∀ h : Handle, e.disp = .collate → e.handle = some h →
          (¬((s.pack h).state = .opened ∧ (s.pack h).gen = e.gen) → t.arb.gate = .reject ∧ s.keepsPacks t)
          ∧ ∀ p : PocketId, (s.pack h).state = .opened → (s.pack h).gen = e.gen → (s.pack h).pocket = some p →
              t.arb.gate = .pocket p
              ∧ ((s.pack h).released ≤ (s.pack h).received → s.keepsPacks t)
              ∧ ((s.pack h).received < (s.pack h).released →
                  (t.pack h).fixed = (s.pack h).fixed ∧ (t.pack h).gen = (s.pack h).gen
                  ∧ (t.pack h).received = (s.pack h).received + 1
                  ∧ (∀ k : Handle, k ≠ h → (t.pack k).fixed = (s.pack k).fixed ∧ (t.pack k).gen = (s.pack k).gen
                      ∧ (t.pack k).received = (s.pack k).received)
                  ∧ t.reg.queues = s.reg.queues
                  ∧ (s.pockets[p].state ≠ .empty → t.pockets[p].sheets = s.pockets[p].sheets + 1
                      ∧ t.pockets[p].thickness = s.pockets[p].thickness
                          + (if s.pockets[p].sheets = 0 then (s.pack h).snap.cover else (s.pack h).snap.body))
                  ∧ ((s.pack h).received + 1 ≠ (s.pack h).pages → (t.pack h).state = .opened)
                  ∧ ((s.pack h).received + 1 = (s.pack h).pages → (s.pack h).snap.plan.stapled = false →
                      (t.pack h).state = .ready ∨ (t.pack h).state = .delivering)
                  ∧ ((s.pack h).received + 1 = (s.pack h).pages → (s.pack h).snap.plan.stapled = true →
                      s.stapler.state ≠ .idle →
                      (t.pack h).state = .complete ∧ t.stapler.queue = s.stapler.queue ++ [h])
                  ∧ (s.pocketsAgree → s.stacksSound →
                      let k := (s.pack h).received + 1
                      let ends := (s.pack h).snap.plan.ends
                      let v := s.pockets[p].volume
                      let grown : PocketRec := { s.pockets[p] with
                        sheets := k
                        thickness := s.pockets[p].thickness
                          + (if k = 1 then (s.pack h).snap.cover else (s.pack h).snap.body) }
                      let held : PocketRec := { grown with state := .held, volume := ends.length, offset := false }
                      (k ≠ (s.pack h).pages → t.pockets[p] =
                          if v < ends.length ∧ ends[v - 1]? = some k
                            then { grown with volume := v + 1, offset := decide ((v + 1) % 2 = 0) } else grown)
                      ∧ (k = (s.pack h).pages → (s.pack h).snap.plan.stapled = false →
                          t.pockets[p] = held ∨ t.pockets[p] = { held with state := .ejecting })
                      ∧ (k = (s.pack h).pages → (s.pack h).snap.plan.stapled = true →
                          (s.stapler.state ≠ .idle → t.pockets[p] = held)
                          ∧ (s.stapler.state = .idle → s.stapler.command = none →
                              (s.starting = true → s.anyPurging = true) →
                              let full : PackRec := { s.pack h with state := .complete, received := k }
                              let u : State := { s with
                                reg := { s.reg with packs := Sparse.put PackRec.cleared s.reg.packs h full }
                                pockets := s.pockets.set p held
                                stapler := { s.stapler with queue := s.stapler.queue ++ [h] } }
                              u.goesOn t s.stapler.work s.stapler.remaining))))

/-- An arrival that is not the head's sheet (R55, R57, R58, R59): in HALT it is gated to reject, and the decision it
brings drops a break pick, bounds the age of A_last and releases nothing (R47, R54, R65); on an empty list it is a
stray; where the second entry has its tag, the head's sheet is missing, its feed is FAULTED, and the second is taken;
otherwise the head is removed with MISMATCH. A COLLATE head's pack is sent a restart request. -/
def Obligations.ArrivalOfAnotherSheetIsRejected : Prop :=
  ∀ (tag : Option TagNum) (s : State),
    (s.halted = true → s.attentionFollows → exec (.arrival tag) s
      = .next { s with
          arb := { s.arb with
            gate := .reject, pick := none
            aLast := if 65536 < elapsed s.now s.arb.aLast then s.now - 65536 else s.arb.aLast }
          link := s.link.boundary })
    ∧ (s.halted = false → s.arb.inFlight = [] → ∃ t, exec (.arrival tag) s = .next t
        ∧ s.surrounds t ∧ s.keepsPacks t ∧ s.keepsBins t [] ∧ t.arb.gate = .reject ∧ t.latched .stray = true)
    ∧ ∀ (e : InFlight) (rest : List InFlight), s.halted = false → s.arb.inFlight = e :: rest → e.meets tag = false →
        ∃ t, exec (.arrival tag) s = .next t ∧ s.surrounds t ∧ s.keepsBins t [] ∧ t.latched .mismatch = true
          ∧ ((∀ x ∈ rest.head?, InFlight.isNumbered x tag = false) →
              t.arb.gate = .reject ∧ rest <+: t.arb.inFlight
              ∧ (∀ h : Handle, e.disp = .collate → e.handle = some h → s.takesRestart h e.gen = true →
                  s.restarts t h .mismatch)
              ∧ ((∀ h : Handle, e.disp = .collate → e.handle = some h → s.takesRestart h e.gen = false) →
                  s.keepsPacks t))
          ∧ ∀ x : InFlight, rest.head? = some x → x.isNumbered tag = true →
              t.feeds[e.feed].state = .faulted ∧ rest.tail <+: t.arb.inFlight
              ∧ (∀ h : Handle, e.disp = .collate → e.handle = some h → s.takesRestart h e.gen = true →
                  s.restarts t h .missingSheet)
              ∧ (x.disp = .discard → t.arb.gate = .reject)
              ∧ ∀ (k : Handle) (p : PocketId), x.disp = .collate → x.handle = some k → e.handle ≠ some k →
                  (s.pack k).state = .opened → (s.pack k).gen = x.gen → (s.pack k).pocket = some p →
                  t.arb.gate = .pocket p ∧ ((s.pack k).received < (s.pack k).released →
                    (t.pack k).received = (s.pack k).received + 1)

/-- The head's deadline, watched in RUN, PAUSE, STOPPING and BYPASS (R60, R61, R187): when the time has reached it the
head is removed, HALT is entered with cause JAM, JAM is latched, the feed is FAULTED, and a COLLATE head's pack is sent
a restart request with MISSING_SHEET; no release follows. The halt cuts off the volume operation, the delivery and the
running purges as every halt does (R90, R108, R126), and the purge of the pack restarted is pending. Before that,
nothing happens. A restart request is taken where the record is neither FREE nor DISPOSING and is in the request's
generation (R128). That a deadline expires at the moment it names is the model's reading (assumption 7), that the halt
is entered before the restart its choice (assumption 31), and that a DELIVERING pack which holds its pocket takes no
request its reading (assumption 22). -/
def Obligations.DeadlineExpiryJams : Prop :=
  ∀ s : State, ∃ t, exec .deadlineExpiry s = .next t
    ∧ (s.watchesDeadlines = true ↔ s.run.state = .run ∨ s.run.state = .pause ∨ s.run.state = .bypass
        ∨ ∃ origin, s.run.state = .stopping origin)
    ∧ (∀ (h : Handle) (gen : Nat), s.takesRestart h gen = true
        ↔ (s.pack h).state ≠ .free ∧ (s.pack h).state ≠ .disposing ∧ (s.pack h).gen = gen
          ∧ ¬((s.pack h).state = .delivering ∧ (s.pack h).pocket ≠ none))
    ∧ (s.watchesDeadlines = false ∨ s.arb.inFlight = [] → t = s)
    ∧ ∀ (e : InFlight) (rest : List InFlight), s.watchesDeadlines = true → s.arb.inFlight = e :: rest →
        (isBefore s.now e.deadline = true → t = s)
        ∧ (isBefore s.now e.deadline = false →
            s.surrounds t ∧ s.keepsBins t [] ∧ t.arb.inFlight = rest
            ∧ (∃ target, resumeTargetOf s.run.state = some target ∧ t.run.state = .halt .jam target)
            ∧ t.latched .jam = true ∧ t.feeds[e.feed].state = .faulted
            ∧ (∀ h : Handle, e.disp = .collate → e.handle = some h → s.takesRestart h e.gen = true →
                s.restarts t h .missingSheet)
            ∧ ((∀ h : Handle, e.disp = .collate → e.handle = some h → s.takesRestart h e.gen = false) →
                s.keepsPacks t)
            ∧ let restarted (h : Handle) : Prop :=
                e.disp = .collate ∧ e.handle = some h ∧ s.takesRestart h e.gen = true
              s.stapleQueueSound → s.pocketsAgree → s.stacksSound →
              (∀ h : Handle, restarted h → (s.pack h).state = .opened) →
                t.stapler = (match s.volumeInFlight with
                  | none => s.stapler
                  | some k => { s.stapler with state := .idle, work := some { k with op := .cutOff }, command := none })
                ∧ t.ret.state = s.ret.state
                ∧ t.ret.delivery = (match s.deliveryInFlight with
                  | none => s.ret.delivery
                  | some d => some { d with op := .cutOff })
                ∧ (∀ d ∈ s.deliveryInFlight, t.ret.command = none)
                ∧ (∀ (h : Handle) (p : PocketId), restarted h → (s.pack h).pocket = some p →
                    t.pockets[p] = { s.pockets[p] with state := .purging, purge := .pending, offset := false })
                ∧ ∀ p : PocketId, (∀ h : Handle, restarted h → (s.pack h).pocket ≠ some p) →
                    t.pockets[p] = (if s.pockets[p].purge = .running
                      then { s.pockets[p] with purge := .pending } else s.pockets[p]))

/-- The block timer's expiry (R63 to R68): the first of the four break actions whose condition holds is taken, and the
timer starts again; before the expiry nothing happens. A restart for a feed that blocks itself (ORDER_FAULT); the break
pick, which a release in the same step may open out of turn (of two feeds with page 1 of one pack at their heads the
lower is the model's choice, assumption 29); the OUT_OF_TURN flag for a finished pack with room; the restart of the
OPEN pack with the least done (BLOCK). -/
def Obligations.BlockTimerBreaksTheBlock : Prop :=
  ∀ s : State, s.stapleQueueSound → s.pocketsAgree → ∃ t, exec .blockTimerExpiry s = .next t
    ∧ (s.arb.blockTimer = none ∨ s.blockHolds = false → t = s)
    ∧ ∀ start, s.arb.blockTimer = some start → s.blockHolds = true →
        (elapsed s.now start < (s.tables.settings.blockTime * 1000 : Int) → t = s)
        ∧ ((s.tables.settings.blockTime * 1000 : Int) ≤ elapsed s.now start →
            s.surrounds t ∧ s.keepsBins t []
            ∧ t.arb.blockTimer = (if t.blockHolds then some s.now else none)
            ∧ (∀ h, allFeeds.findSome? s.selfBlocked = some h → s.restarts t h .orderFault)
            ∧ (allFeeds.findSome? s.selfBlocked = none →
                (∀ f h, firstBy s.olderHead (allFeeds.filter s.waitsForPocket) = some f → s.headHandle f = some h →
                    s.keepsPacks t
                    ∧ (t.arb.pick = some (f, h)
                      ∨ (t.arb.pick = none ∧ (t.pack h).state = .opened ∧ (t.pack h).flags.outOfTurn = true
                        ∧ t.latched .orderBreak = true
                        ∧ s.notifies t (.orderBreak h (s.pack h).cls .pocket))))
                ∧ (firstBy s.olderHead (allFeeds.filter s.waitsForPocket) = none →
                    (∀ h, firstBy s.older (s.live.filter s.breakable) = some h →
                        s.keepsPacks t ∧ (t.pack h).flags.outOfTurn = true
                        ∧ ((t.pack h).state = .ready ∨ (t.pack h).state = .delivering)
                        ∧ t.latched .orderBreak = true
                        ∧ s.notifies t (.orderBreak h (s.pack h).cls .delivery))
                    ∧ (firstBy s.older (s.live.filter s.breakable) = none →
                        let open' := s.live.filter fun h => decide ((s.pack h).state = .opened)
                        (∀ h, firstBy s.lessDone open' = some h → s.restarts t h .block)
                        ∧ (firstBy s.lessDone open' = none → s.keepsPacks t)))))

/-- The disposition of a head entry, by the first line of the table that applies (R49, R50): DISCARD for a sheet no
longer wanted, COLLATE for the next page of an OPEN pack or for page 1 of an ANNOUNCED pack with a pocket offered, and
waiting in any other case; a feed with a pending discard has DISCARD. The pocket offered is the lowest-numbered EMPTY
one in service, and a lone one is offered only to the head of its class, under UNORDERED, or to the break pick (R73).
-/
def Obligations.HeadDispositionsAreJudged : Prop :=
  ∀ (s : State) (e : StagingEntry),
    let r := s.pack e.handle
    (s.judgeEntry e = .discard ↔ r.state = .free ∨ r.state = .disposing ∨ e.gen ≠ r.gen
        ∨ (r.state ≠ .restarting ∧ (e.page ≤ r.released ∨ r.pages < e.page)))
    ∧ (s.judgeEntry e = .collate none ↔ r.state = .opened ∧ e.gen = r.gen ∧ e.page = r.released + 1
        ∧ e.page ≤ r.pages)
    ∧ (∀ p : PocketId, s.judgeEntry e = .collate (some p) ↔ r.state = .announced ∧ e.gen = r.gen ∧ e.page = 1
        ∧ r.released = 0 ∧ 1 ≤ r.pages ∧ p ∈ s.emptyPockets ∧ (∀ q ∈ s.emptyPockets, p ≤ q)
        ∧ (s.emptyPockets.length = 1 → s.isClassHead e.handle = true ∨ s.policyOf e.handle = .unordered
            ∨ s.arb.pick.map Prod.snd = some e.handle))
    ∧ s.judgeEntry e ≠ .pass
    ∧ ∀ f : FeedId, s.run.state ≠ .bypass →
        (s.feeds[f].discard = true → s.verdict f = .discard)
        ∧ (s.feeds[f].discard = false → s.feeds[f].queue.head? = some e → s.verdict f = s.judgeEntry e)

/-- A release that has come due (R47, R51, R52): the feed chosen gives one pulse, its shelf goes CLEARING and its sheet
joins the tail of the in-flight list with its disposition, and decisions go on until no candidate is eligible and due.
The choice is among the candidates (R48) that are due (R53): the break pick alone while one is held; else the lowest
feed with a DISCARD, or a PASS in BYPASS; else the COLLATE of the pack older than the others (R4), of one pack the
lower feed. A decision first bounds the age of A_last (R54) and drops a break pick that may no longer be released
(R65). -/
def Obligations.ReleasesAreMadeWhileOneIsDue : Prop :=
  (∀ s : State,
    let ready (f : FeedId) : Prop :=
      s.feeds[f].state = .online ∧ s.feeds[f].shelf = .present ∧ s.arb.inFlight.length < 8
        ∧ (s.run.state = .bypass ∨ s.run.state = .run ∧ (s.feeds[f].queue ≠ [] ∨ s.feeds[f].discard = true))
        ∧ isBefore s.now (later s.arb.aLast s.tables.settings.pitch - BitVec.ofNat 32 s.tables.travel[f]) = false
    let plain (f : FeedId) : Prop := ready f ∧ (s.run.state = .bypass ∨ s.feeds[f].discard = true
      ∨ ∃ e, s.feeds[f].queue.head? = some e ∧ s.judgeEntry e = .discard)
    let collates (f : FeedId) (h : Handle) : Prop :=
      ready f ∧ s.run.state ≠ .bypass ∧ s.feeds[f].discard = false
        ∧ ∃ e p, s.feeds[f].queue.head? = some e ∧ s.judgeEntry e = .collate p ∧ e.handle = h
    let ahead (a b : Handle) : Prop :=
      let behind := ((s.pack b).serial - (s.pack a).serial).toNat
      0 < behind ∧ behind < 32768 ∨ behind = 32768 ∧ a < b
    (∀ g h, s.arb.pick = some (g, h) → ∀ f, s.choose = some f ↔ f = g ∧ ∃ k, collates f k)
    ∧ (s.arb.pick = none →
        (s.choose = none ↔ ∀ f, ¬plain f ∧ ∀ h, ¬collates f h)
        ∧ (∀ f, plain f → (∀ g, g < f → ¬plain g) → s.choose = some f)
        ∧ (∀ f h, (∀ g, ¬plain g) → collates f h →
            (∀ g k, g ≠ f → collates g k → (h = k ∧ f < g) ∨ (h ≠ k ∧ ahead h k)) → s.choose = some f)
        ∧ ∀ f, s.choose = some f → plain f ∨ ∃ h, collates f h))
  ∧ (∀ s : State,
      let u := ((Work.of s).boundALast.dropPick).toState
      let a := if 65536 < elapsed s.now s.arb.aLast then s.now - 65536 else s.arb.aLast
      u = { s with arb := { s.arb with aLast := a, pick := u.arb.pick } }
      ∧ (s.arb.pick = none → u.arb.pick = none)
      ∧ ∀ f h, s.arb.pick = some (f, h) →
          let stands := s.releasing = true ∧ s.feeds[f].state = .online ∧ s.feeds[f].shelf = .present
            ∧ s.arb.inFlight.length < 8 ∧ (s.pack h).state = .announced ∧ s.emptyPockets ≠ []
            ∧ ∃ e, s.feeds[f].queue.head? = some e ∧ e.handle = h ∧ e.page = 1 ∧ e.gen = (s.pack h).gen
          (stands → u.arb.pick = some (f, h)) ∧ (¬stands → u.arb.pick = none))
  ∧ ∀ s : State, s.stapleQueueSound → s.pocketsAgree →
    ∃ t, exec .releaseComesDue s = .next t ∧ s.surrounds t ∧ s.keepsPacks t ∧ s.keepsBins t []
    ∧ t.choose = none
    ∧ ∀ f : FeedId, ((Work.of s).boundALast.dropPick).choose = some f →
        t.releasePulses[f] = s.releasePulses[f] + 1 ∧ t.feeds[f].shelf = .clearing
        ∧ ∃ x rest, t.arb.inFlight = s.arb.inFlight ++ x :: rest ∧ x.feed = f
            ∧ (s.run.state = .bypass → x.disp = .pass ∧ x.tag = .untagged)
            ∧ (s.run.state ≠ .bypass → s.feeds[f].discard = true →
                x.disp = .discard ∧ x.tag = .any ∧ x.handle = none ∧ t.latched .unannounced = true)
            ∧ ∀ e q, s.run.state ≠ .bypass → s.feeds[f].discard = false → s.feeds[f].queue = e :: q →
                x.handle = some e.handle ∧ x.page = e.page ∧ x.gen = e.gen ∧ x.tag = .num e.tag
                ∧ (x.disp = if s.judgeEntry e = .discard then .discard else .collate) ∧ t.feeds[f].queue = q

/-! ### Purges, the Stapler, the Return Unit, the bins -/

/-- A purge ends by PURGE_DONE or by its allowance passing (R15, R88, R89): done, the pocket is EMPTY, and a release in
the same step may take it; timed out, the pocket is OUT_OF_SERVICE with MECH_FAULT latched. Either way a RESTARTING
pack goes ANNOUNCED, and a DISPOSING one FREE, which finishes the drain markers that watched it alone (R25). With the
last purge a start-up ends, in its target state or in HALT, with its Start Report (R190). A purge that is not running
ends by neither, and one whose allowance has not passed does not time out. The moment at which an allowance has passed
is the model's reading (assumption 7), and so is that a timed-out pocket's volume index stands with its counts
(assumption 20). -/
def Obligations.PurgesEnd : Prop :=
  ∀ (p : PocketId) (s : State), s.stapleQueueSound → s.pocketsAgree →
    let disposed (h : Handle) : Prop := s.pockets[p].pack = some h ∧ (s.pack h).state = .disposing
    let last := allPockets.all fun q => decide (q = p) || decide (s.pockets[q].state ≠ .purging)
    let report : List OutRecord := match s.run.state with
      | .starting kind halting =>
        if last then [.startReport s.run.straps kind (runCodeOf (s.startedState kind halting))] else []
      | _ => []
    let ended (t : State) : Prop :=
      (∀ h : Handle, disposed h → t.pack h = PackRec.cleared ∧ t.reg.markers = s.markersWithout h
        ∧ ∃ x, (∀ o ∈ x, OutRecord.isNotice o = true) ∧ t.told = s.told ++ x ++ s.drainsOf h ++ report)
      ∧ ((∀ h : Handle, ¬disposed h) → t.reg.markers = s.reg.markers
        ∧ ∃ x, (∀ o ∈ x, OutRecord.isNotice o = true) ∧ t.told = s.told ++ x ++ report)
      ∧ (∀ h : Handle, s.pockets[p].pack = some h → (s.pack h).state = .restarting →
          t.pack h = { s.pack h with state := .announced, pocket := none }
          ∨ (s.run.state = .run ∧ (t.pack h).state = .opened ∧ (t.pack h).gen = (s.pack h).gen))
      ∧ ∀ kind halting, s.run.state = .starting kind halting →
          t.run.state = if last then s.startedState kind halting else s.run.state
    let running := s.pockets[p].state = .purging ∧ s.pockets[p].purge = .running
    (¬running → exec (.purgeDone p) s = .next s ∧ exec (.purgeTimeout p) s = .next s)
    ∧ (running →
        (∃ t, exec (.purgeDone p) s = .next t ∧ s.surrounds t ∧ s.keepsBins t []
          ∧ (t.pockets[p] = { s.pockets[p] with
                state := .empty, pack := none, sheets := 0, thickness := 0, volume := 0, purge := .none
                cause := .none, offset := false }
            ∨ (t.run.state = .run ∧ t.pockets[p].state = .collating)) ∧ ended t)
        ∧ (elapsed s.now s.pockets[p].purgeStart < (s.pockets[p].purgeAllowance : Int) →
            exec (.purgeTimeout p) s = .next s)
        ∧ ((s.pockets[p].purgeAllowance : Int) ≤ elapsed s.now s.pockets[p].purgeStart →
            ∃ t, exec (.purgeTimeout p) s = .next t ∧ s.surrounds t ∧ s.keepsBins t []
              ∧ t.pockets[p] = { s.pockets[p] with
                  state := .outOfService, pack := none, purge := .none, cause := .fault, offset := false }
              ∧ t.latched .mechFault = true ∧ ended t))

/-- The end of a volume operation (R97 to R100, R102, R103): STAPLE_DONE moves the work record to the next volume,
which is started at once, or found short, and after the last volume finishes the pack, READY and out of the staple
queue; where the pack is no longer STAPLING in the record's generation the record is dropped and the next pack taken
up. The allowance passing makes the Stapler FAULTED with MECH_FAULT latched. With no operation in flight neither does
anything. The moment at which an allowance has passed is the model's reading (assumption 7). -/
def Obligations.VolumeOperationsEnd : Prop :=
  ∀ s : State, s.stapleQueueSound → s.pocketsAgree →
    (s.volumeInFlight = none → exec .stapleDone s = .next s ∧ exec .stapleTimeout s = .next s)
    ∧ ∀ k : WorkRec, s.volumeInFlight = some k →
        (∃ t, exec .stapleDone s = .next t ∧ s.surrounds t ∧ s.keepsPacks t ∧ s.keepsBins t []
          ∧ (s.stillStapling k = true → k.volume < (s.pack k.handle).volumes →
              (s.starting = true → s.anyPurging = true) →
              s.goesOn t (some { k with volume := k.volume + 1, stapled := k.stapled + 1, op := .none })
                s.stapler.remaining)
          ∧ (s.stillStapling k = true → (s.pack k.handle).volumes ≤ k.volume →
              ((t.pack k.handle).state = .ready ∨ (t.pack k.handle).state = .delivering)
              ∧ (t.pack k.handle).flags = (s.pack k.handle).flags ∧ k.handle ∉ t.stapler.queue)
          ∧ (s.stillStapling k = false → (s.starting = true → s.anyPurging = true) →
              s.goesOn t none s.stapler.remaining))
        ∧ (elapsed s.now k.start < (k.allowance : Int) → exec .stapleTimeout s = .next s)
        ∧ ((k.allowance : Int) ≤ elapsed s.now k.start → s.starting = false →
            ∃ t, exec .stapleTimeout s = .next t ∧ s.surrounds t ∧ s.keepsPacks t ∧ s.keepsBins t []
              ∧ t.latched .mechFault = true
              ∧ t.stapler = { s.stapler with
                  state := .faulted, command := none
                  work := if s.stillStapling k then some { k with op := .none } else none })

/-- A cartridge fitted sets staples remaining to CARTRIDGE_SIZE in every stapler state and run state, and latches
STAPLES_LOW where that is at or below the setting; a Stapler that is IDLE or was WAITING_CARTRIDGE goes on as R97
allows, the volume it starts taking its staples from the new count or being short of them (R104, R105). CLEAR STAPLER
makes a FAULTED Stapler IDLE, to go on as R97 allows, and is refused in any other state (R101). -/
def Obligations.CartridgeAndClearStapler : Prop :=
  (∀ s : State, s.stapleQueueSound → s.pocketsAgree → ∃ t, exec .cartridgeFitted s = .next t ∧ s.surrounds t ∧ s.keepsPacks t ∧ s.keepsBins t []
    ∧ t.stapler.remaining ≤ s.tables.settings.cartridgeSize
    ∧ (s.tables.settings.cartridgeSize ≤ s.tables.settings.staplesLow → t.latched .staplesLow = true)
    ∧ (s.starting = false → s.stapler.state = .stapling ∨ s.stapler.state = .faulted →
        t.stapler = { s.stapler with remaining := s.tables.settings.cartridgeSize })
    ∧ (s.halted = true → s.stapler.state = .waitingCartridge →
        t.stapler = { s.stapler with remaining := s.tables.settings.cartridgeSize, state := .idle })
    ∧ (s.stapler.state = .idle ∨ s.stapler.state = .waitingCartridge → s.stapler.command = none →
        (s.starting = true → s.anyPurging = true) → s.goesOn t s.stapler.work s.tables.settings.cartridgeSize))
  ∧ ∀ (a : Byte) (s : State), s.takesCommand (.clearStapler false a) →
      (s.stapler.state ≠ .faulted → s.attentionFollows → ∃ t, exec (.clearStapler false a) s = .next t
        ∧ (s.takenFor (.clearStapler false a)).onlyTells t (.result kindControl .wrongState {} []))
      ∧ (s.stapler.state = .faulted → s.stapleQueueSound → s.pocketsAgree → ∃ t, exec (.clearStapler false a) s = .next t
        ∧ (s.takenFor (.clearStapler false a)).surrounds t ∧ s.keepsPacks t ∧ s.keepsBins t []
        ∧ s.tells t (.result kindControl .accepted {} []) ∧ t.stapler.state ≠ .faulted
        ∧ s.goesOn t s.stapler.work s.stapler.remaining)

/-- The end of a delivery (R13, R25, R117, R118): EJECT_DONE raises the bin's fill by the pack's bin units, starts the
flash of an AUTO lamp, leaves the pocket EMPTY (R79; a release in the same step may take it), frees the pack out of its
class queue, which finishes the drain markers that watched it alone, and sends Pack Delivered, the Drain Completes
behind it; the allowance passing makes the Return Unit FAULTED with its record kept and MECH_FAULT latched. With no
delivery in flight neither does anything. The moment at which an allowance has passed is the model's reading
(assumption 7). -/
def Obligations.DeliveriesEnd : Prop :=
  ∀ s : State,
    (s.deliveryInFlight = none → exec .ejectDone s = .next s ∧ exec .ejectTimeout s = .next s)
    ∧ ∀ d : DeliveryRec, s.deliveryInFlight = some d →
        (∃ t, exec .ejectDone s = .next t ∧ s.surrounds t ∧ s.keepsBins t [d.bin]
          ∧ t.ret.bins[d.bin].unlit = BinRec.unlit { s.ret.bins[d.bin] with
              fill := s.ret.bins[d.bin].fill + d.units
              flash := if s.ret.bins[d.bin].lampMode = .auto then some s.now else s.ret.bins[d.bin].flash }
          ∧ (s.stapleQueueSound → s.pocketsAgree → s.returnAgrees →
              t.pockets[d.pocket] = { s.pockets[d.pocket] with
                state := .empty, pack := none, sheets := 0, thickness := 0, volume := 0, purge := .none
                cause := .none, offset := false }
              ∨ (t.run.state = .run ∧ t.pockets[d.pocket].state = .collating))
          ∧ ((s.pack d.handle).state = .delivering → (s.pack d.handle).gen = d.gen →
              t.pack d.handle = PackRec.cleared
              ∧ (∀ c : ClassId, t.classQueue c = if c = (s.pack d.handle).cls then
                    (s.classQueue c).filter fun k => decide (k ≠ d.handle) else s.classQueue c)
              ∧ t.reg.markers = s.markersWithout d.handle
              ∧ (s.starting = false → ∃ x, (∀ o ∈ x, OutRecord.isNotice o = true)
                  ∧ t.told = s.told ++ x ++ s.drainsOf d.handle)
              ∧ s.notifies t
                  (.packDelivered d.handle d.bin (s.pack d.handle).flags (s.pack d.handle).volumes)))
        ∧ (elapsed s.now d.start < (d.allowance : Int) → exec .ejectTimeout s = .next s)
        ∧ ((d.allowance : Int) ≤ elapsed s.now d.start → s.starting = false →
            ∃ t, exec .ejectTimeout s = .next t ∧ s.surrounds t ∧ s.keepsPacks t ∧ s.keepsBins t []
              ∧ t.latched .mechFault = true ∧ t.ret.state = .faulted ∧ t.ret.delivery = some d
              ∧ t.ret.command = none)

/-- CLEAR RETURN (R119): refused unless the Return Unit is FAULTED, whatever the outcome, and then refused for an
outcome that is neither DELIVERED nor LOST; DELIVERED completes the delivery kept in the record, and LOST sends its
pack a restart request with cause LOST and raises no fill; either leaves the pocket EMPTY (R79), which a release in the
same step may take. A pack that goes FREE finishes the drain markers that watched it alone (R25). -/
def Obligations.ClearReturnSettlesTheDelivery : Prop :=
  ∀ (outcome : Byte) (s : State), s.takesCommand (.clearReturn false outcome) →
    let refused (status : Status) : Prop := ∃ t, exec (.clearReturn false outcome) s = .next t
      ∧ (s.takenFor (.clearReturn false outcome)).onlyTells t (.result kindControl status {} [])
    (s.ret.state ≠ .faulted → s.attentionFollows → refused .wrongState)
    ∧ ∀ d : DeliveryRec, s.ret.state = .faulted → s.ret.delivery = some d →
        (outcome ≠ 1 → outcome ≠ 2 → s.attentionFollows → refused .badValue)
        ∧ (outcome = 1 ∨ outcome = 2 → ∃ t, exec (.clearReturn false outcome) s = .next t
            ∧ (s.takenFor (.clearReturn false outcome)).surrounds t
            ∧ s.tells t (.result kindControl .accepted {} []) ∧ t.ret.state ≠ .faulted
            ∧ (s.stapleQueueSound → s.pocketsAgree → s.returnAgrees →
                t.pockets[d.pocket] = { s.pockets[d.pocket] with
                  state := .empty, pack := none, sheets := 0, thickness := 0, volume := 0, purge := .none
                  cause := .none, offset := false }
                ∨ (t.run.state = .run ∧ t.pockets[d.pocket].state = .collating))
            ∧ (outcome = 1 → s.keepsBins t [d.bin]
                ∧ t.ret.bins[d.bin].fill = s.ret.bins[d.bin].fill + d.units
                ∧ ((s.pack d.handle).state = .delivering → (s.pack d.handle).gen = d.gen →
                    t.pack d.handle = PackRec.cleared ∧ d.handle ∉ t.classQueue (s.pack d.handle).cls
                    ∧ t.reg.markers = s.markersWithout d.handle
                    ∧ s.notifies t
                        (.packDelivered d.handle d.bin (s.pack d.handle).flags (s.pack d.handle).volumes)))
            ∧ (outcome = 2 → s.keepsBins t []
                ∧ ((s.pack d.handle).state = .delivering → (s.pack d.handle).gen = d.gen →
                    ((s.pack d.handle).gen < s.tables.settings.restartLimit →
                      (t.pack d.handle).fixed = (s.pack d.handle).fixed
                      ∧ (t.pack d.handle).gen = (s.pack d.handle).gen + 1
                      ∧ ((t.pack d.handle).state = .announced
                        ∨ (t.run.state = .run ∧ (t.pack d.handle).state = .opened))
                      ∧ s.notifies t (.reprintRequest d.handle ((s.pack d.handle).gen + 1) .lost))
                    ∧ (s.tables.settings.restartLimit ≤ (s.pack d.handle).gen →
                      t.pack d.handle = PackRec.cleared ∧ t.reg.markers = s.markersWithout d.handle
                      ∧ s.notifies t (.packAbandoned d.handle .lost)))))

/-- A bin's cleared input sets its fill to 0 in every run state (R122); the end of a flash, 400 ms after its start,
makes the lamp show its condition again and changes nothing else, and no flash ends before that (R125). The moment at
which 400 ms have passed is the model's reading (assumption 7). -/
def Obligations.BinsAreClearedAndFlashesEnd : Prop :=
  ∀ (b : BinId) (s : State),
    (∃ t, exec (.binCleared b) s = .next t ∧ s.surrounds t ∧ s.keepsPacks t ∧ s.keepsBins t [b]
      ∧ t.ret.bins[b].unlit = BinRec.unlit { s.ret.bins[b] with fill := 0 })
    ∧ (s.ret.bins[b].flash = none → exec (.flashEnd b) s = .next s)
    ∧ ∀ start, s.ret.bins[b].flash = some start →
        (elapsed s.now start < 400 → exec (.flashEnd b) s = .next s)
        ∧ (400 ≤ elapsed s.now start → s.attentionFollows → exec (.flashEnd b) s = .next { s with
            ret := { s.ret with bins := s.ret.bins.set b { s.ret.bins[b] with flash := none } }
            link := s.link.boundary })


/-! ### The tables -/

/-- A Table Read (R156): refused for a bank outside 1 to 10 and for a first index that names no entry; otherwise it
carries the entries from the first index on as they stand, as many as the count asks, as the bank has left and as the
Result has room for, ACCEPTED where the count was reached and PARTIAL where it was not. Nothing changes. -/
def Obligations.TableReadCarriesTheEntries : Prop :=
  ∀ (bank count : Byte) (index : Half) (s : State), s.takesCommand (.tableRead false bank index count) →
    s.attentionFollows →
    let answers (status : Status) (data : List Byte) : Prop := ∃ t, exec (.tableRead false bank index count) s = .next t
      ∧ (s.takenFor (.tableRead false bank index count)).onlyTells t (.result kindTableRead status {} data)
    let after := bankFirst bank.toNat + bankCount bank.toNat
    (bank = 0 ∨ 10 < bank.toNat → answers .badValue [])
    ∧ (1 ≤ bank.toNat → bank.toNat ≤ 10 →
        (index.toNat < bankFirst bank.toNat ∨ after ≤ index.toNat → answers .badIndex [])
        ∧ (bankFirst bank.toNat ≤ index.toNat → index.toNat < after →
            let n := min count.toNat (min (bankReadLimit bank.toNat) (after - index.toNat))
            answers (if n = count.toNat then .accepted else .partialRun)
              ([bank, lowByte index, highByte index, byteOf n]
                ++ (List.range n).flatMap fun i =>
                    ((refAt bank.toNat (index.toNat + i)).map s.entryBytes).getD [])))

/-- A Table Write is refused, and changes nothing, by the first check that fails (R154): the bank, the Pack bank, the
index, the number of entries, and then the apply class, the codes and the work checks of the entries within the bank,
each check made for every entry before the next. A broadcast one is refused without a Result. The three checks are
spelled out: the apply class rule of R146, the codes of R147 to R153 and R197, and the work checks of R91, R92, R121
and R152. That a refusal carries no note is the model's choice (assumption 32), and that unchanged values are checked
its reading (assumption 12). -/
def Obligations.TableWriteIsRefusedInOrder : Prop :=
  (∀ (s : State) (w : Staged), s.run.state = .standby → s.meetsApplyClass w = true)
  ∧ (∀ (s : State) (i : Nat), s.run.state ≠ .standby →
      (∀ m t, s.meetsApplyClass ⟨.media m, i, .media t⟩ = false)
      ∧ (∀ p x, s.meetsApplyClass ⟨.pocket p, i, .pocket x⟩ = false)
      ∧ (∀ f st travel, s.meetsApplyClass ⟨.feed f, i, .feed st travel⟩ = true ↔ travel = s.tables.travel[f])
      ∧ (∀ v : Settings, s.meetsApplyClass ⟨.settings, i, .settings v⟩ = true
          ↔ let u := s.tables.settings
            v.stapleMax = u.stapleMax ∧ v.pocketMax = u.pocketMax ∧ v.pitch = u.pitch ∧ v.lateTol = u.lateTol
            ∧ v.restartLimit = u.restartLimit ∧ v.pocketsInService = u.pocketsInService
            ∧ v.cartridgeSize = u.cartridgeSize ∧ v.mechTimeout = u.mechTimeout)
      ∧ (∀ j e, s.meetsApplyClass ⟨.job j, i, .job e⟩ = true) ∧ (∀ c e, s.meetsApplyClass ⟨.cls c, i, .cls e⟩ = true)
      ∧ (∀ x c, s.meetsApplyClass ⟨.roster x, i, .roster c⟩ = true)
      ∧ (∀ b n x m, s.meetsApplyClass ⟨.bin b, i, .bin n x m⟩ = true)
      ∧ ∀ m, s.meetsApplyClass ⟨.mask, i, .mask m⟩ = true)
  ∧ (∀ (i : Nat) (e : EntryRef) (l : List Byte), (writeItem i e l).defined = true ↔ match e with
      | .job _ => byteAt l 0 ≤ 1 ∧ byteAt l 1 ≤ 7 ∧ byteAt l 2 ≤ 7 ∧ byteAt l 3 ≤ 2 ∧ byteAt l 4 ≤ 2 ∧ byteAt l 5 ≤ 1
      | .cls _ => byteAt l 0 ≤ 24 ∧ byteAt l 1 ≤ 1
      | .roster _ => byteAt l 0 ≤ 48
      | .feed _ => byteAt l 0 ≤ 1
      | .bin _ => byteAt l 2 ≤ 1 ∧ byteAt l 3 ≤ 3
      | .mask => ∀ n, n < 15 → byteAt l n ≤ 1
      | .pocket _ => byteAt l 7 ≤ 1
      | _ => True)
  ∧ (∀ (s : State) (i : Nat),
      (∀ v : Settings, s.passesWork ⟨.settings, i, .settings v⟩ = true
        ↔ (∀ h : Handle, (s.pack h).state ≠ .free → (s.pack h).gen ≤ v.restartLimit)
          ∧ ∀ p : PocketId, v.pocketsInService < p.val + 1 → s.pockets[p].state = .empty)
      ∧ (∀ (p : PocketId) x, s.passesWork ⟨.pocket p, i, .pocket x⟩ = true
        ↔ x = true ∨ s.pockets[p].state = .empty ∨ s.pockets[p].state = .outOfService)
      ∧ (∀ (b : BinId) n x m, s.passesWork ⟨.bin b, i, .bin n x m⟩ = true
        ↔ ∀ d, s.ret.delivery = some d → d.bin = b → s.ret.bins[b].fill + d.units ≤ n)
      ∧ (∀ j e, s.passesWork ⟨.job j, i, .job e⟩ = true) ∧ (∀ c e, s.passesWork ⟨.cls c, i, .cls e⟩ = true)
      ∧ (∀ x c, s.passesWork ⟨.roster x, i, .roster c⟩ = true) ∧ (∀ m t, s.passesWork ⟨.media m, i, .media t⟩ = true)
      ∧ (∀ f st n, s.passesWork ⟨.feed f, i, .feed st n⟩ = true) ∧ ∀ m, s.passesWork ⟨.mask, i, .mask m⟩ = true)
  ∧ ∀ (bcast : Bool) (bank : Byte) (index : Half) (entries : List Byte) (s : State) (r : Record),
    recordOf (.tableWrite bcast bank index entries) = some r → s.takes r → s.link.loopback = false →
    s.attentionFollows →
    let n := entries.length / bankEntrySize bank.toNat
    let items := writeItems bank.toNat index.toNat n entries
    let refused (status : Status) (data : List Byte) : Prop :=
      ∃ t, exec (.tableWrite bcast bank index entries) s = .next t
        ∧ (bcast = true → t = { s.taken r with link := (s.taken r).link.boundary })
        ∧ (bcast = false → (s.taken r).onlyTells t (.result kindTableWrite status {} data))
    (bank = 0 ∨ 10 < bank.toNat → refused .badValue [])
    ∧ (bank = 9 → refused .readOnly [])
    ∧ (1 ≤ bank.toNat → bank.toNat ≤ 10 → bank ≠ 9 →
        (isIndex bank.toNat index.toNat = false → refused .badIndex [])
        ∧ (isIndex bank.toNat index.toNat = true →
            (n = 0 ∨ bankWriteLimit bank.toNat < n ∨ entries.length % bankEntrySize bank.toNat ≠ 0 →
                refused .badValue [])
            ∧ (1 ≤ n → n ≤ bankWriteLimit bank.toNat → entries.length % bankEntrySize bank.toNat = 0 →
                (∀ before x after, items = before ++ x :: after →
                    (∀ y ∈ before, s.meetsApplyClass y.write = true) → s.meetsApplyClass x.write = false →
                    refused .wrongState (bytesOf x.write.index))
                ∧ ((∀ y ∈ items, s.meetsApplyClass y.write = true) →
                    (∀ before x after, items = before ++ x :: after → (∀ y ∈ before, y.defined = true) →
                        x.defined = false → refused .badValue (bytesOf x.write.index))
                    ∧ ((∀ y ∈ items, y.defined = true) →
                        ∀ i, firstInUse s (items.map WriteItem.write) = some i → refused .inUse (bytesOf i))))))

/-- A Table Write that passes every check (R154, R155, R160): with no group open, or broadcast, it is written in one
step, each entry then holding the fields given, clamped (R145, R147 to R153), and its Result carries the number of
entries written and their previous contents, PARTIAL where some ran past the bank's end; with a group open it is staged
at the tail of the list where there is room for all of it, and nothing else changes. -/
def Obligations.TableWriteIsWrittenOrStaged : Prop :=
  ∀ (bcast : Bool) (bank : Byte) (index : Half) (entries : List Byte) (s : State) (r : Record),
    recordOf (.tableWrite bcast bank index entries) = some r → s.takes r → s.link.loopback = false →
    s.stapleQueueSound → s.pocketsAgree → 1 ≤ bank.toNat → bank.toNat ≤ 10 → bank ≠ 9 →
    isIndex bank.toNat index.toNat = true → countSuits bank.toNat entries = true →
    let n := entries.length / bankEntrySize bank.toNat
    let items := writeItems bank.toNat index.toNat n entries
    let ws := items.map WriteItem.write
    s.refuses items = none →
    let u := s.taken r
    let status : Status := if items.length < n then .partialRun else .accepted
    let data := byteOf ws.length :: ws.flatMap fun x => s.entryBytes x.ref
    let clamped := items.any WriteItem.clamped
    ∃ t, exec (.tableWrite bcast bank index entries) s = .next t
      ∧ (bcast = true ∨ s.tables.group = none → u.writes t ws
          ∧ ∀ i < items.length, ∀ e, refAt bank.toNat (index.toNat + i) = some e →
              t.holds e ((entries.drop (i * bankEntrySize bank.toNat)).take (bankEntrySize bank.toNat)))
      ∧ (bcast = true → ∃ x, t.told = s.told ++ x ∧ ∀ o ∈ x, OutRecord.isNotice o = true)
      ∧ (bcast = false → s.tables.group = none →
          s.tells t (.result kindTableWrite status { clamped := clamped } data))
      ∧ ∀ staged, bcast = false → s.tables.group = some staged → s.attentionFollows →
          (16 < staged.length + ws.length → u.onlyTells t (.result kindTableWrite .groupFull {} []))
          ∧ (staged.length + ws.length ≤ 16 →
              State.onlyTells { u with tables := { u.tables with group := some (staged ++ ws) } } t
                (.result kindTableWrite status { clamped := clamped, staged := true } data))

/-- The mark (R157, R159): a Table Mark sets it on its entry and carries the entry as it stands; a Marked Write is
refused with MARK_LOST unless the mark is on its entry, and then by the checks of a Table Write of one entry; one that
passes is written, a group open or not, with the previous contents in its Result. The mark is cleared whatever the
outcome. A Marked Write to an unknown bank reaching the Table Store is the model's reading (assumption 21), and that a
refusal carries no note its choice (assumption 32). -/
def Obligations.MarkGuardsOneWrite : Prop :=
  (∀ (bank : Byte) (index : Half) (s : State), s.takesCommand (.tableMark false bank index) → s.attentionFollows →
    let u := s.takenFor (.tableMark false bank index)
    ∃ t, exec (.tableMark false bank index) s = .next t
      ∧ (bank = 0 ∨ 10 < bank.toNat → u.onlyTells t (.result kindTableMark .badValue {} []))
      ∧ (1 ≤ bank.toNat → bank.toNat ≤ 10 →
          (isIndex bank.toNat index.toNat = false → u.onlyTells t (.result kindTableMark .badIndex {} []))
          ∧ ∀ e, refAt bank.toNat index.toNat = some e →
              State.onlyTells { u with tables := { u.tables with mark := some e } } t
                (.result kindTableMark .accepted {} ([bank, lowByte index, highByte index] ++ s.entryBytes e))))
  ∧ ∀ (bank : Byte) (index : Half) (entry : List Byte) (s : State),
      s.takesCommand (.markedWrite false bank index entry) → s.attentionFollows →
      let u := s.takenFor (.markedWrite false bank index entry)
      ∃ t, exec (.markedWrite false bank index entry) s = .next t ∧ t.tables.mark = none
        ∧ let refused (status : Status) (data : List Byte) : Prop :=
            State.onlyTells { u with tables := { u.tables with mark := none } } t
              (.result kindMarkedWrite status {} data)
          (bank = 0 ∨ 10 < bank.toNat → refused .badValue [])
          ∧ (bank = 9 → refused .readOnly [])
          ∧ (1 ≤ bank.toNat → bank.toNat ≤ 10 → bank ≠ 9 →
              (isIndex bank.toNat index.toNat = false → refused .badIndex [])
              ∧ ∀ e, refAt bank.toNat index.toNat = some e →
                  let item := writeItem index.toNat e entry
                  (s.tables.mark ≠ some e → refused .markLost [])
                  ∧ (s.tables.mark = some e →
                      (∀ status i, s.refuses [item] = some (status, i) → refused status (bytesOf i))
                      ∧ (s.refuses [item] = none → s.stapleQueueSound → s.pocketsAgree →
                          u.writes t [item.write] ∧ (entry.length = bankEntrySize bank.toNat → t.holds e entry)
                          ∧ s.tells t
                              (.result kindMarkedWrite .accepted { clamped := item.clamped } (s.entryBytes e)))))

/-- The edit group (R160, R161, R162): GROUP OPEN opens an empty group where none is open; GROUP DISCARD drops the
staged writes; GROUP CLOSE checks every staged write again, each earlier one taken as applied, and applies them all in
one step or, where one fails, none, with the failing write's position and index. Both close the group, and with none
open both are refused. -/
def Obligations.EditGroupIsAppliedWhole : Prop :=
  ∀ s : State, s.attentionFollows →
    let set (u : State) (g : Option (List Staged)) : State := { u with tables := { u.tables with group := g } }
    (s.takesCommand (.groupOpen false) → ∃ t, exec (.groupOpen false) s = .next t
      ∧ let u := s.takenFor (.groupOpen false)
        (s.tables.group ≠ none → u.onlyTells t (.result kindGroup .wrongState {} []))
        ∧ (s.tables.group = none → (set u (some [])).onlyTells t (.result kindGroup .accepted {} [])))
    ∧ (s.takesCommand (.groupDiscard false) → ∃ t, exec (.groupDiscard false) s = .next t
      ∧ let u := s.takenFor (.groupDiscard false)
        (s.tables.group = none → u.onlyTells t (.result kindGroup .noGroup {} []))
        ∧ ∀ ws, s.tables.group = some ws →
            (set u none).onlyTells t (.result kindGroup .accepted {} [byteOf ws.length]))
    ∧ (s.takesCommand (.groupClose false) → s.stapleQueueSound → s.pocketsAgree →
      ∃ t, exec (.groupClose false) s = .next t
      ∧ let u := s.takenFor (.groupClose false)
        (s.tables.group = none → u.onlyTells t (.result kindGroup .noGroup {} []))
        ∧ ∀ ws, s.tables.group = some ws →
            let passes (x : State) (w : Staged) : Bool := x.meetsApplyClass w && x.passesWork w
            ((∀ before w after, ws = before ++ w :: after → passes (s.writeAll before) w = true) →
                (set u none).writes t ws ∧ s.tells t (.result kindGroup .accepted {} [byteOf ws.length]))
            ∧ ∀ before w after, ws = before ++ w :: after →
                (∀ b x a, before = b ++ x :: a → passes (s.writeAll b) x = true) →
                passes (s.writeAll before) w = false →
                (set u none).onlyTells t (.result kindGroup
                  (if (s.writeAll before).meetsApplyClass w = false then .wrongState else .inUse) {}
                  (byteOf (before.length + 1) :: bytesOf w.index)))

/-! ### Run states -/

/-- RUN, PAUSE, STANDBY and BYPASS (R185, R186, R189): each is refused from every run state but those of its row;
taken, it gives its run state in the step and its Result reports the state then entered. RUN makes every release that
is due and starts the waits; PAUSE and STANDBY release nothing; STANDBY goes through STOPPING to STANDBY in the step
where the device is at rest; BYPASS empties the feeds' queues. -/
def Obligations.RunStateActionsAreTaken : Prop :=
  ∀ (a : Byte) (s : State),
    let refused (c : Instr) : Prop := s.attentionFollows → ∃ t, exec c s = .next t
      ∧ (s.takenFor c).onlyTells t (.result kindControl .wrongState {} [])
    let entered (c : Instr) (then' : State → Prop) : Prop := ∃ t, exec c s = .next t ∧ (s.takenFor c).surrounds t
      ∧ s.keepsPacks t ∧ s.keepsBins t []
      ∧ s.tells t (.result kindControl .accepted {} [runCode (runCodeOf t.run.state)]) ∧ then' t
    (s.takesCommand (.run false a) →
      if s.run.state = .standby ∨ s.run.state = .pause then
        entered (.run false a) fun t => t.run.state = .run ∧ t.choose = none
          ∧ ∀ f : FeedId, t.waitHolds f = true → t.feeds[f].discard = false →
              t.feeds[f].wait = some (s.feeds[f].wait.getD s.now)
      else refused (.run false a))
    ∧ (s.takesCommand (.pause false a) →
      if s.run.state = .run then
        entered (.pause false a) fun t => t.run.state = .pause ∧ t.arb.inFlight = s.arb.inFlight
          ∧ t.arb.blockTimer = none ∧ ∀ f : FeedId, t.feeds[f].wait = none ∧ t.feeds[f].queue = s.feeds[f].queue
      else refused (.pause false a))
    ∧ (s.takesCommand (.standby false a) →
      let stops (origin : StoppingOrigin) : Prop := entered (.standby false a) fun t =>
        t.run.state = (if t.atRest then .standby else .stopping origin) ∧ t.arb.inFlight = s.arb.inFlight
          ∧ ∀ f : FeedId, t.feeds[f].queue = s.feeds[f].queue
      match s.run.state with
      | .run => stops .run
      | .pause => stops .pause
      | .bypass => stops .bypass
      | _ => refused (.standby false a))
    ∧ (s.takesCommand (.bypass false a) →
      if s.run.state = .standby then
        entered (.bypass false a) fun t => t.run.state = .bypass
          ∧ ∀ f : FeedId, t.feeds[f].queue = [] ∧ t.feeds[f].discard = false ∧ t.feeds[f].wait = none
              ∧ t.feeds[f].state = s.feeds[f].state
      else refused (.bypass false a))

/-- The entry to HALT and the return from it (R90, R108, R126, R142, R144, R165, R187, R188, R190). A STOP character or
a fall of the STOP input latches STOP and, outside HALT and STARTING, enters HALT with cause STOP: the in-flight list
is held, and the volume operation, the delivery and the running purges are cut off. RESUME is refused outside HALT and
while the STOP input is low; taken, it flushes the in-flight list, restarting the pack of each COLLATE entry, reissues
what was cut off (a volume with its staples deducted and checked again, so that it may be found short, R109), and
enters the resume target. A rise of the STOP input changes no state but the input's own level (R187); that a fall while
the input is low and a rise while it is high leave the state as it is, is the model's own convention for an input that
goes to the level it has (assumption 6). -/
def Obligations.StopHaltsAndResumeReturns : Prop :=
  (∀ (base : State) (c : Instr), c = .stopCharacter ∨ (c = .stopInputFall ∧ base.pins.stopHigh = true) →
      ∃ t, exec c base = .next t ∧
      let s : State := if c = .stopCharacter
        then { base with link := { base.link with
          receiver := .waiting
          echoes := if base.link.loopback = true ∧ base.link.echoes.length < 32
            then base.link.echoes ++ [⟨true, 0xE5⟩] else base.link.echoes } }
        else { base with pins := { base.pins with stopHigh := false } }
      s.surrounds t ∧ s.keepsPacks t ∧ s.keepsBins t [] ∧ t.latched .stop = true
      ∧ (∀ kind halting, s.run.state = .starting kind halting → s.anyPurging = true →
          t.run.state = .starting kind true)
      ∧ (s.halted = true → t.run.state = s.run.state)
      ∧ ∀ target, resumeTargetOf s.run.state = some target →
          t.run.state = .halt .stop target ∧ t.arb.inFlight = s.arb.inFlight
          ∧ t.stapler = (match s.volumeInFlight with
            | none => s.stapler
            | some k => { s.stapler with state := .idle, work := some { k with op := .cutOff }, command := none })
          ∧ t.ret.state = s.ret.state
          ∧ t.ret.delivery = (match s.deliveryInFlight with
            | none => s.ret.delivery
            | some d => some { d with op := .cutOff })
          ∧ ∀ p : PocketId, t.pockets[p] = (if s.pockets[p].purge = .running
              then { s.pockets[p] with purge := .pending } else s.pockets[p]))
  ∧ (∀ s : State,
      (s.pins.stopHigh = false → exec .stopInputFall s = .next s)
      ∧ (s.pins.stopHigh = true → exec .stopInputRise s = .next s)
      ∧ (s.pins.stopHigh = false → s.attentionFollows → exec .stopInputRise s = .next { s with
          pins := { s.pins with stopHigh := true }, link := s.link.boundary }))
  ∧ ∀ (a : Byte) (s : State), s.takesCommand (.resume false a) →
      (s.halted = false ∨ s.pins.stopHigh = false → s.attentionFollows → ∃ t, exec (.resume false a) s = .next t
        ∧ (s.takenFor (.resume false a)).onlyTells t (.result kindControl .wrongState {} []))
      ∧ ∀ cause target, s.run.state = .halt cause target → s.pins.stopHigh = true →
          ∃ t, exec (.resume false a) s = .next t ∧ (s.takenFor (.resume false a)).surrounds t ∧ s.keepsBins t []
            ∧ t.run.state = target.state
            ∧ s.tells t (.result kindControl .accepted {} [runCode (runCodeOf target.state)])
            ∧ (∀ x ∈ t.arb.inFlight, t.releasing = true ∧ x.arrival = later s.now s.tables.travel[x.feed])
            ∧ (∀ h : Handle, (∃ e ∈ s.arb.inFlight, e.disp = .collate ∧ e.handle = some h) →
                (∀ e ∈ s.arb.inFlight, e.disp = .collate → e.handle = some h → e.gen = (s.pack h).gen) →
                s.takesRestart h (s.pack h).gen = true →
                s.remakes t h
                ∧ ((s.link.outbound.filter OutRecord.isNotice).length + s.arb.inFlight.length ≤ 20 →
                    s.link.outbound.length + s.arb.inFlight.length ≤ 24 →
                    s.tells t (s.restartNotice h .resumeFlush)))
            ∧ (∀ (k : WorkRec) (p : PocketId), s.stapler.state = .idle → s.stapler.work = some k → k.op = .cutOff →
                s.stapler.queue.head? = some k.handle → s.stillStapling k = true →
                (∀ e ∈ s.arb.inFlight, e.handle ≠ some k.handle) → (s.pack k.handle).pocket = some p →
                patternCount (s.pack k.handle).snap.pattern ≤ s.stapler.remaining →
                t.stapler.state = .stapling
                ∧ t.stapler.work = some { k with
                    op := .inFlight, start := s.now, allowance := s.tables.settings.mechTimeout }
                ∧ t.stapler.command = some (p, patternCount (s.pack k.handle).snap.pattern)
                ∧ t.stapler.remaining = s.stapler.remaining - patternCount (s.pack k.handle).snap.pattern)
            ∧ (∀ k : WorkRec, s.stapleQueueSound → s.pocketsAgree → s.stapler.state = .idle →
                s.stapler.work = some k → k.op = .cutOff → s.stapler.queue.head? = some k.handle →
                s.stillStapling k = true →
                (∀ e ∈ s.arb.inFlight, e.disp = .collate → ∀ h ∈ s.stapler.queue, e.handle = some h →
                  s.takesRestart h e.gen = false) →
                s.takesUp t k s.stapler.remaining)
            ∧ ∀ d : DeliveryRec, s.ret.state = .ejecting → s.ret.delivery = some d → d.op = .cutOff →
                t.ret.delivery = some { d with
                  op := .inFlight, start := s.now, allowance := s.tables.settings.mechTimeout }
                ∧ t.ret.command = some (d.pocket, d.bin)
end

