-- ==== Sys2Proof/Laws/Sparse.lean ====
section
/-! SUPPORT. Sparse tables: what a read gives after a write, and that a write keeps the canonical form. -/

namespace Sys2Proof.Machine

variable {n : Nat} {α : Type}

@[simp] theorem Sparse.get_nil (d : α) (k : Fin n) : Sparse.get d [] k = d := rfl

theorem Sparse.get_erase_self (d : α) (t : List (Fin n × α)) (k : Fin n) :
    Sparse.get d (Sparse.erase t k) k = d := by
  induction t with
  | nil => rfl
  | cons p t ih =>
    by_cases hp : p.1 = k
    · simpa [Sparse.erase, hp] using ih
    · simpa [Sparse.erase, Sparse.get, hp] using ih

theorem Sparse.get_erase_ne (d : α) (t : List (Fin n × α)) {k j : Fin n} (h : j ≠ k) :
    Sparse.get d (Sparse.erase t k) j = Sparse.get d t j := by
  induction t with
  | nil => rfl
  | cons p t ih =>
    by_cases hp : p.1 = k
    · have : p.1 ≠ j := fun e => h (e.symm.trans hp)
      simpa [Sparse.erase, Sparse.get, hp, h.symm] using ih
    · by_cases hj : p.1 = j
      · simp [Sparse.erase, Sparse.get, hj, h]
      · simpa [Sparse.erase, Sparse.get, hp, hj] using ih

theorem Sparse.get_insert_self (d : α) (t : List (Fin n × α)) (k : Fin n) (v : α)
    (h : Sparse.get d t k = d) (hv : ∀ p ∈ t, p.1 ≠ k) : Sparse.get d (Sparse.insert k v t) k = v := by
  induction t with
  | nil => simp [Sparse.insert, Sparse.get]
  | cons p t ih =>
    have hp : p.1 ≠ k := hv p (by simp)
    by_cases hl : k < p.1
    · simp [Sparse.insert, Sparse.get, hl]
    · have ht : Sparse.get d t k = d := by simpa [Sparse.get, hp] using h
      simpa [Sparse.insert, Sparse.get, hl, hp] using ih ht fun q hq => hv q (by simp [hq])

theorem Sparse.get_insert_ne (d : α) (t : List (Fin n × α)) {k j : Fin n} (v : α) (h : j ≠ k) :
    Sparse.get d (Sparse.insert k v t) j = Sparse.get d t j := by
  induction t with
  | nil => simp [Sparse.insert, Sparse.get, h.symm]
  | cons p t ih =>
    by_cases hl : k < p.1
    · simp [Sparse.insert, Sparse.get, hl, h.symm]
    · by_cases hj : p.1 = j
      · have : ¬k < j := hj ▸ hl
        simp [Sparse.insert, Sparse.get, hj, this]
      · simpa [Sparse.insert, Sparse.get, hl, hj] using ih

theorem Sparse.mem_erase {t : List (Fin n × α)} {k : Fin n} {p : Fin n × α} (h : p ∈ Sparse.erase t k) :
    p ∈ t ∧ p.1 ≠ k := by
  induction t with
  | nil => simp [Sparse.erase] at h
  | cons q t ih =>
    by_cases hq : q.1 = k
    · simp only [Sparse.erase, hq, if_true] at h
      exact ⟨List.mem_cons_of_mem _ (ih h).1, (ih h).2⟩
    · simp only [Sparse.erase, hq, if_false, List.mem_cons] at h
      rcases h with rfl | h
      · exact ⟨by simp, hq⟩
      · exact ⟨List.mem_cons_of_mem _ (ih h).1, (ih h).2⟩

/-- A read after a write of the same entry gives the value written. -/
@[simp] theorem Sparse.get_put_self [DecidableEq α] (d : α) (t : List (Fin n × α)) (k : Fin n) (v : α) :
    Sparse.get d (Sparse.put d t k v) k = v := by
  by_cases h : v = d
  · simp [Sparse.put, h, Sparse.get_erase_self]
  · simp only [Sparse.put, h, if_false]
    exact Sparse.get_insert_self d _ k v (Sparse.get_erase_self d t k) fun p hp => (Sparse.mem_erase hp).2

/-- A write leaves every other entry alone. -/
theorem Sparse.get_put_ne [DecidableEq α] (d : α) (t : List (Fin n × α)) {k j : Fin n} (v : α) (h : j ≠ k) :
    Sparse.get d (Sparse.put d t k v) j = Sparse.get d t j := by
  by_cases hv : v = d
  · simp [Sparse.put, hv, Sparse.get_erase_ne d t h]
  · simp [Sparse.put, hv, Sparse.get_insert_ne d _ v h, Sparse.get_erase_ne d t h]

/-! ### The canonical form -/

/-- The canonical form as a proposition: numbers rising, no default listed. -/
theorem Sparse.wf_iff [DecidableEq α] (d : α) (t : List (Fin n × α)) :
    Sparse.wf d t = true ↔ (∀ p ∈ t, p.2 ≠ d) ∧ t.Pairwise fun p q => p.1 < q.1 := by
  induction t with
  | nil => simp [Sparse.wf]
  | cons p t ih =>
    cases t with
    | nil => simp [Sparse.wf]
    | cons q t =>
      simp only [Sparse.wf, Bool.and_eq_true, decide_eq_true_eq, ih, List.mem_cons, List.pairwise_cons]
      constructor
      · rintro ⟨⟨h1, h2⟩, h3, h4, h5⟩
        refine ⟨?_, ?_, h4, h5⟩
        · rintro x (rfl | hx)
          · exact h1
          · exact h3 x hx
        · rintro x (rfl | hx)
          · exact h2
          · exact lt_trans h2 (h4 x hx)
      · rintro ⟨h1, h2, h4, h5⟩
        exact ⟨⟨h1 p (Or.inl rfl), h2 q (Or.inl rfl)⟩, fun x hx => h1 x (Or.inr hx), h4, h5⟩

theorem Sparse.erase_eq_filter (t : List (Fin n × α)) (k : Fin n) :
    Sparse.erase t k = t.filter fun p => decide (p.1 ≠ k) := by
  induction t with
  | nil => rfl
  | cons p t ih => by_cases h : p.1 = k <;> simp [Sparse.erase, h, ih]

theorem Sparse.mem_insert {k : Fin n} {v : α} {t : List (Fin n × α)} {p : Fin n × α}
    (h : p ∈ Sparse.insert k v t) : p = (k, v) ∨ p ∈ t := by
  induction t with
  | nil => simpa [Sparse.insert] using h
  | cons q t ih =>
    by_cases hl : k < q.1
    · simpa [Sparse.insert, hl] using h
    · simp only [Sparse.insert, hl, if_false, List.mem_cons] at h
      rcases h with h | h
      · exact Or.inr (by simp [h])
      · exact (ih h).imp id fun x => List.mem_cons_of_mem _ x

theorem Sparse.insert_rising {k : Fin n} {v : α} {t : List (Fin n × α)}
    (hp : t.Pairwise fun p q => p.1 < q.1) (hk : ∀ p ∈ t, p.1 ≠ k) :
    (Sparse.insert k v t).Pairwise fun p q => p.1 < q.1 := by
  induction t with
  | nil => simp [Sparse.insert]
  | cons q t ih =>
    rw [List.pairwise_cons] at hp
    by_cases hl : k < q.1
    · simp only [Sparse.insert, hl, if_true, List.pairwise_cons]
      refine ⟨?_, hp⟩
      rintro x hx
      rcases List.mem_cons.1 hx with rfl | hx
      · exact hl
      · exact lt_trans hl (hp.1 x hx)
    · simp only [Sparse.insert, hl, if_false, List.pairwise_cons]
      refine ⟨?_, ih hp.2 fun p h => hk p (List.mem_cons_of_mem _ h)⟩
      intro x hx
      rcases Sparse.mem_insert hx with rfl | hx
      · exact lt_of_le_of_ne (not_lt.1 hl) (hk q (by simp))
      · exact hp.1 x hx

/-- A write keeps the canonical form. -/
theorem Sparse.put_wf [DecidableEq α] (d : α) (t : List (Fin n × α)) (k : Fin n) (v : α)
    (h : Sparse.wf d t = true) : Sparse.wf d (Sparse.put d t k v) = true := by
  rw [Sparse.wf_iff] at h ⊢
  have hs : ∀ p ∈ Sparse.erase t k, p.2 ≠ d := fun p hp => h.1 p (Sparse.mem_erase hp).1
  have hr : (Sparse.erase t k).Pairwise fun p q => p.1 < q.1 := by
    rw [Sparse.erase_eq_filter]; exact h.2.filter _
  by_cases hv : v = d
  · simp only [Sparse.put, hv, if_true]; exact ⟨hs, hr⟩
  · simp only [Sparse.put, hv, if_false]
    refine ⟨fun p hp => ?_, Sparse.insert_rising hr fun p hp => (Sparse.mem_erase hp).2⟩
    rcases Sparse.mem_insert hp with rfl | hp
    · exact hv
    · exact hs p hp

end Sys2Proof.Machine
end

