-- ==== Sys2Proof/Laws/State.lean ====
section
/-! SUPPORT. One lemma per field per update of the state inside a step, each true by definition, so that no later proof
unfolds a record update. -/

namespace Sys2Proof.Machine

variable (w : Work)

/-! ### setReg -/

@[simp] theorem Work.setReg_now (r : PackRegister) : (w.setReg r).now = w.now := rfl
@[simp] theorem Work.setReg_pins (r : PackRegister) : (w.setReg r).pins = w.pins := rfl
@[simp] theorem Work.setReg_link (r : PackRegister) : (w.setReg r).link = w.link := rfl
@[simp] theorem Work.setReg_tables (r : PackRegister) : (w.setReg r).tables = w.tables := rfl
@[simp] theorem Work.setReg_reg (r : PackRegister) : (w.setReg r).reg = r := rfl
@[simp] theorem Work.setReg_feeds (r : PackRegister) : (w.setReg r).feeds = w.feeds := rfl
@[simp] theorem Work.setReg_arb (r : PackRegister) : (w.setReg r).arb = w.arb := rfl
@[simp] theorem Work.setReg_pockets (r : PackRegister) : (w.setReg r).pockets = w.pockets := rfl
@[simp] theorem Work.setReg_stapler (r : PackRegister) : (w.setReg r).stapler = w.stapler := rfl
@[simp] theorem Work.setReg_ret (r : PackRegister) : (w.setReg r).ret = w.ret := rfl
@[simp] theorem Work.setReg_attn (r : PackRegister) : (w.setReg r).attn = w.attn := rfl
@[simp] theorem Work.setReg_run (r : PackRegister) : (w.setReg r).run = w.run := rfl
@[simp] theorem Work.setReg_releasePulses (r : PackRegister) : (w.setReg r).releasePulses = w.releasePulses := rfl
@[simp] theorem Work.setReg_choices (r : PackRegister) : (w.setReg r).choices = w.choices := rfl
@[simp] theorem Work.setReg_pending (r : PackRegister) : (w.setReg r).pending = w.pending := rfl
@[simp] theorem Work.setReg_notices (r : PackRegister) : (w.setReg r).notices = w.notices := rfl
@[simp] theorem Work.setReg_drains (r : PackRegister) : (w.setReg r).drains = w.drains := rfl
@[simp] theorem Work.setReg_report (r : PackRegister) : (w.setReg r).report = w.report := rfl
@[simp] theorem Work.setReg_reply (r : PackRegister) : (w.setReg r).reply = w.reply := rfl
@[simp] theorem Work.setReg_occasion (r : PackRegister) : (w.setReg r).occasion = w.occasion := rfl
@[simp] theorem Work.setReg_progress (r : PackRegister) : (w.setReg r).progress = w.progress := rfl

/-! ### setArb -/

@[simp] theorem Work.setArb_now (r : MergeArbiter) : (w.setArb r).now = w.now := rfl
@[simp] theorem Work.setArb_pins (r : MergeArbiter) : (w.setArb r).pins = w.pins := rfl
@[simp] theorem Work.setArb_link (r : MergeArbiter) : (w.setArb r).link = w.link := rfl
@[simp] theorem Work.setArb_tables (r : MergeArbiter) : (w.setArb r).tables = w.tables := rfl
@[simp] theorem Work.setArb_reg (r : MergeArbiter) : (w.setArb r).reg = w.reg := rfl
@[simp] theorem Work.setArb_feeds (r : MergeArbiter) : (w.setArb r).feeds = w.feeds := rfl
@[simp] theorem Work.setArb_arb (r : MergeArbiter) : (w.setArb r).arb = r := rfl
@[simp] theorem Work.setArb_pockets (r : MergeArbiter) : (w.setArb r).pockets = w.pockets := rfl
@[simp] theorem Work.setArb_stapler (r : MergeArbiter) : (w.setArb r).stapler = w.stapler := rfl
@[simp] theorem Work.setArb_ret (r : MergeArbiter) : (w.setArb r).ret = w.ret := rfl
@[simp] theorem Work.setArb_attn (r : MergeArbiter) : (w.setArb r).attn = w.attn := rfl
@[simp] theorem Work.setArb_run (r : MergeArbiter) : (w.setArb r).run = w.run := rfl
@[simp] theorem Work.setArb_releasePulses (r : MergeArbiter) : (w.setArb r).releasePulses = w.releasePulses := rfl
@[simp] theorem Work.setArb_choices (r : MergeArbiter) : (w.setArb r).choices = w.choices := rfl
@[simp] theorem Work.setArb_pending (r : MergeArbiter) : (w.setArb r).pending = w.pending := rfl
@[simp] theorem Work.setArb_notices (r : MergeArbiter) : (w.setArb r).notices = w.notices := rfl
@[simp] theorem Work.setArb_drains (r : MergeArbiter) : (w.setArb r).drains = w.drains := rfl
@[simp] theorem Work.setArb_report (r : MergeArbiter) : (w.setArb r).report = w.report := rfl
@[simp] theorem Work.setArb_reply (r : MergeArbiter) : (w.setArb r).reply = w.reply := rfl
@[simp] theorem Work.setArb_occasion (r : MergeArbiter) : (w.setArb r).occasion = w.occasion := rfl
@[simp] theorem Work.setArb_progress (r : MergeArbiter) : (w.setArb r).progress = w.progress := rfl

/-! ### setStaplerRec -/

@[simp] theorem Work.setStaplerRec_now (r : Stapler) : (w.setStaplerRec r).now = w.now := rfl
@[simp] theorem Work.setStaplerRec_pins (r : Stapler) : (w.setStaplerRec r).pins = w.pins := rfl
@[simp] theorem Work.setStaplerRec_link (r : Stapler) : (w.setStaplerRec r).link = w.link := rfl
@[simp] theorem Work.setStaplerRec_tables (r : Stapler) : (w.setStaplerRec r).tables = w.tables := rfl
@[simp] theorem Work.setStaplerRec_reg (r : Stapler) : (w.setStaplerRec r).reg = w.reg := rfl
@[simp] theorem Work.setStaplerRec_feeds (r : Stapler) : (w.setStaplerRec r).feeds = w.feeds := rfl
@[simp] theorem Work.setStaplerRec_arb (r : Stapler) : (w.setStaplerRec r).arb = w.arb := rfl
@[simp] theorem Work.setStaplerRec_pockets (r : Stapler) : (w.setStaplerRec r).pockets = w.pockets := rfl
@[simp] theorem Work.setStaplerRec_stapler (r : Stapler) : (w.setStaplerRec r).stapler = r := rfl
@[simp] theorem Work.setStaplerRec_ret (r : Stapler) : (w.setStaplerRec r).ret = w.ret := rfl
@[simp] theorem Work.setStaplerRec_attn (r : Stapler) : (w.setStaplerRec r).attn = w.attn := rfl
@[simp] theorem Work.setStaplerRec_run (r : Stapler) : (w.setStaplerRec r).run = w.run := rfl
@[simp] theorem Work.setStaplerRec_releasePulses (r : Stapler) : (w.setStaplerRec r).releasePulses = w.releasePulses := rfl
@[simp] theorem Work.setStaplerRec_choices (r : Stapler) : (w.setStaplerRec r).choices = w.choices := rfl
@[simp] theorem Work.setStaplerRec_pending (r : Stapler) : (w.setStaplerRec r).pending = w.pending := rfl
@[simp] theorem Work.setStaplerRec_notices (r : Stapler) : (w.setStaplerRec r).notices = w.notices := rfl
@[simp] theorem Work.setStaplerRec_drains (r : Stapler) : (w.setStaplerRec r).drains = w.drains := rfl
@[simp] theorem Work.setStaplerRec_report (r : Stapler) : (w.setStaplerRec r).report = w.report := rfl
@[simp] theorem Work.setStaplerRec_reply (r : Stapler) : (w.setStaplerRec r).reply = w.reply := rfl
@[simp] theorem Work.setStaplerRec_occasion (r : Stapler) : (w.setStaplerRec r).occasion = w.occasion := rfl
@[simp] theorem Work.setStaplerRec_progress (r : Stapler) : (w.setStaplerRec r).progress = w.progress := rfl

/-! ### setRet -/

@[simp] theorem Work.setRet_now (r : ReturnUnit) : (w.setRet r).now = w.now := rfl
@[simp] theorem Work.setRet_pins (r : ReturnUnit) : (w.setRet r).pins = w.pins := rfl
@[simp] theorem Work.setRet_link (r : ReturnUnit) : (w.setRet r).link = w.link := rfl
@[simp] theorem Work.setRet_tables (r : ReturnUnit) : (w.setRet r).tables = w.tables := rfl
@[simp] theorem Work.setRet_reg (r : ReturnUnit) : (w.setRet r).reg = w.reg := rfl
@[simp] theorem Work.setRet_feeds (r : ReturnUnit) : (w.setRet r).feeds = w.feeds := rfl
@[simp] theorem Work.setRet_arb (r : ReturnUnit) : (w.setRet r).arb = w.arb := rfl
@[simp] theorem Work.setRet_pockets (r : ReturnUnit) : (w.setRet r).pockets = w.pockets := rfl
@[simp] theorem Work.setRet_stapler (r : ReturnUnit) : (w.setRet r).stapler = w.stapler := rfl
@[simp] theorem Work.setRet_ret (r : ReturnUnit) : (w.setRet r).ret = r := rfl
@[simp] theorem Work.setRet_attn (r : ReturnUnit) : (w.setRet r).attn = w.attn := rfl
@[simp] theorem Work.setRet_run (r : ReturnUnit) : (w.setRet r).run = w.run := rfl
@[simp] theorem Work.setRet_releasePulses (r : ReturnUnit) : (w.setRet r).releasePulses = w.releasePulses := rfl
@[simp] theorem Work.setRet_choices (r : ReturnUnit) : (w.setRet r).choices = w.choices := rfl
@[simp] theorem Work.setRet_pending (r : ReturnUnit) : (w.setRet r).pending = w.pending := rfl
@[simp] theorem Work.setRet_notices (r : ReturnUnit) : (w.setRet r).notices = w.notices := rfl
@[simp] theorem Work.setRet_drains (r : ReturnUnit) : (w.setRet r).drains = w.drains := rfl
@[simp] theorem Work.setRet_report (r : ReturnUnit) : (w.setRet r).report = w.report := rfl
@[simp] theorem Work.setRet_reply (r : ReturnUnit) : (w.setRet r).reply = w.reply := rfl
@[simp] theorem Work.setRet_occasion (r : ReturnUnit) : (w.setRet r).occasion = w.occasion := rfl
@[simp] theorem Work.setRet_progress (r : ReturnUnit) : (w.setRet r).progress = w.progress := rfl

/-! ### addDrains -/

@[simp] theorem Work.addDrains_now (ids : List Byte) : (w.addDrains ids).now = w.now := rfl
@[simp] theorem Work.addDrains_pins (ids : List Byte) : (w.addDrains ids).pins = w.pins := rfl
@[simp] theorem Work.addDrains_link (ids : List Byte) : (w.addDrains ids).link = w.link := rfl
@[simp] theorem Work.addDrains_tables (ids : List Byte) : (w.addDrains ids).tables = w.tables := rfl
@[simp] theorem Work.addDrains_reg (ids : List Byte) : (w.addDrains ids).reg = w.reg := rfl
@[simp] theorem Work.addDrains_feeds (ids : List Byte) : (w.addDrains ids).feeds = w.feeds := rfl
@[simp] theorem Work.addDrains_arb (ids : List Byte) : (w.addDrains ids).arb = w.arb := rfl
@[simp] theorem Work.addDrains_pockets (ids : List Byte) : (w.addDrains ids).pockets = w.pockets := rfl
@[simp] theorem Work.addDrains_stapler (ids : List Byte) : (w.addDrains ids).stapler = w.stapler := rfl
@[simp] theorem Work.addDrains_ret (ids : List Byte) : (w.addDrains ids).ret = w.ret := rfl
@[simp] theorem Work.addDrains_attn (ids : List Byte) : (w.addDrains ids).attn = w.attn := rfl
@[simp] theorem Work.addDrains_run (ids : List Byte) : (w.addDrains ids).run = w.run := rfl
@[simp] theorem Work.addDrains_releasePulses (ids : List Byte) : (w.addDrains ids).releasePulses = w.releasePulses := rfl
@[simp] theorem Work.addDrains_choices (ids : List Byte) : (w.addDrains ids).choices = w.choices := rfl
@[simp] theorem Work.addDrains_pending (ids : List Byte) : (w.addDrains ids).pending = w.pending := rfl
@[simp] theorem Work.addDrains_notices (ids : List Byte) : (w.addDrains ids).notices = w.notices := rfl
@[simp] theorem Work.addDrains_drains (ids : List Byte) : (w.addDrains ids).drains = w.drains ++ ids := rfl
@[simp] theorem Work.addDrains_report (ids : List Byte) : (w.addDrains ids).report = w.report := rfl
@[simp] theorem Work.addDrains_reply (ids : List Byte) : (w.addDrains ids).reply = w.reply := rfl
@[simp] theorem Work.addDrains_occasion (ids : List Byte) : (w.addDrains ids).occasion = w.occasion := rfl
@[simp] theorem Work.addDrains_progress (ids : List Byte) : (w.addDrains ids).progress = w.progress := rfl

/-! ### setReport -/

@[simp] theorem Work.setReport_now (r : Report) : (w.setReport r).now = w.now := rfl
@[simp] theorem Work.setReport_pins (r : Report) : (w.setReport r).pins = w.pins := rfl
@[simp] theorem Work.setReport_link (r : Report) : (w.setReport r).link = w.link := rfl
@[simp] theorem Work.setReport_tables (r : Report) : (w.setReport r).tables = w.tables := rfl
@[simp] theorem Work.setReport_reg (r : Report) : (w.setReport r).reg = w.reg := rfl
@[simp] theorem Work.setReport_feeds (r : Report) : (w.setReport r).feeds = w.feeds := rfl
@[simp] theorem Work.setReport_arb (r : Report) : (w.setReport r).arb = w.arb := rfl
@[simp] theorem Work.setReport_pockets (r : Report) : (w.setReport r).pockets = w.pockets := rfl
@[simp] theorem Work.setReport_stapler (r : Report) : (w.setReport r).stapler = w.stapler := rfl
@[simp] theorem Work.setReport_ret (r : Report) : (w.setReport r).ret = w.ret := rfl
@[simp] theorem Work.setReport_attn (r : Report) : (w.setReport r).attn = w.attn := rfl
@[simp] theorem Work.setReport_run (r : Report) : (w.setReport r).run = w.run := rfl
@[simp] theorem Work.setReport_releasePulses (r : Report) : (w.setReport r).releasePulses = w.releasePulses := rfl
@[simp] theorem Work.setReport_choices (r : Report) : (w.setReport r).choices = w.choices := rfl
@[simp] theorem Work.setReport_pending (r : Report) : (w.setReport r).pending = w.pending := rfl
@[simp] theorem Work.setReport_notices (r : Report) : (w.setReport r).notices = w.notices := rfl
@[simp] theorem Work.setReport_drains (r : Report) : (w.setReport r).drains = w.drains := rfl
@[simp] theorem Work.setReport_report (r : Report) : (w.setReport r).report = some r := rfl
@[simp] theorem Work.setReport_reply (r : Report) : (w.setReport r).reply = w.reply := rfl
@[simp] theorem Work.setReport_occasion (r : Report) : (w.setReport r).occasion = w.occasion := rfl
@[simp] theorem Work.setReport_progress (r : Report) : (w.setReport r).progress = w.progress := rfl

/-! ### notify -/

@[simp] theorem Work.notify_now (r : OutRecord) : (w.notify r).now = w.now := rfl
@[simp] theorem Work.notify_pins (r : OutRecord) : (w.notify r).pins = w.pins := rfl
@[simp] theorem Work.notify_link (r : OutRecord) : (w.notify r).link = w.link := rfl
@[simp] theorem Work.notify_tables (r : OutRecord) : (w.notify r).tables = w.tables := rfl
@[simp] theorem Work.notify_reg (r : OutRecord) : (w.notify r).reg = w.reg := rfl
@[simp] theorem Work.notify_feeds (r : OutRecord) : (w.notify r).feeds = w.feeds := rfl
@[simp] theorem Work.notify_arb (r : OutRecord) : (w.notify r).arb = w.arb := rfl
@[simp] theorem Work.notify_pockets (r : OutRecord) : (w.notify r).pockets = w.pockets := rfl
@[simp] theorem Work.notify_stapler (r : OutRecord) : (w.notify r).stapler = w.stapler := rfl
@[simp] theorem Work.notify_ret (r : OutRecord) : (w.notify r).ret = w.ret := rfl
@[simp] theorem Work.notify_attn (r : OutRecord) : (w.notify r).attn = w.attn := rfl
@[simp] theorem Work.notify_run (r : OutRecord) : (w.notify r).run = w.run := rfl
@[simp] theorem Work.notify_releasePulses (r : OutRecord) : (w.notify r).releasePulses = w.releasePulses := rfl
@[simp] theorem Work.notify_choices (r : OutRecord) : (w.notify r).choices = w.choices := rfl
@[simp] theorem Work.notify_pending (r : OutRecord) : (w.notify r).pending = w.pending := rfl
@[simp] theorem Work.notify_notices (r : OutRecord) : (w.notify r).notices = w.notices ++ [r] := rfl
@[simp] theorem Work.notify_drains (r : OutRecord) : (w.notify r).drains = w.drains := rfl
@[simp] theorem Work.notify_report (r : OutRecord) : (w.notify r).report = w.report := rfl
@[simp] theorem Work.notify_reply (r : OutRecord) : (w.notify r).reply = w.reply := rfl
@[simp] theorem Work.notify_occasion (r : OutRecord) : (w.notify r).occasion = w.occasion := rfl
@[simp] theorem Work.notify_progress (r : OutRecord) : (w.notify r).progress = w.progress := rfl

/-! ### restartTimer -/

@[simp] theorem Work.restartTimer_now : (w.restartTimer).now = w.now := rfl
@[simp] theorem Work.restartTimer_pins : (w.restartTimer).pins = w.pins := rfl
@[simp] theorem Work.restartTimer_link : (w.restartTimer).link = w.link := rfl
@[simp] theorem Work.restartTimer_tables : (w.restartTimer).tables = w.tables := rfl
@[simp] theorem Work.restartTimer_reg : (w.restartTimer).reg = w.reg := rfl
@[simp] theorem Work.restartTimer_feeds : (w.restartTimer).feeds = w.feeds := rfl
@[simp] theorem Work.restartTimer_arb : (w.restartTimer).arb = w.arb := rfl
@[simp] theorem Work.restartTimer_pockets : (w.restartTimer).pockets = w.pockets := rfl
@[simp] theorem Work.restartTimer_stapler : (w.restartTimer).stapler = w.stapler := rfl
@[simp] theorem Work.restartTimer_ret : (w.restartTimer).ret = w.ret := rfl
@[simp] theorem Work.restartTimer_attn : (w.restartTimer).attn = w.attn := rfl
@[simp] theorem Work.restartTimer_run : (w.restartTimer).run = w.run := rfl
@[simp] theorem Work.restartTimer_releasePulses : (w.restartTimer).releasePulses = w.releasePulses := rfl
@[simp] theorem Work.restartTimer_choices : (w.restartTimer).choices = w.choices := rfl
@[simp] theorem Work.restartTimer_pending : (w.restartTimer).pending = w.pending := rfl
@[simp] theorem Work.restartTimer_notices : (w.restartTimer).notices = w.notices := rfl
@[simp] theorem Work.restartTimer_drains : (w.restartTimer).drains = w.drains := rfl
@[simp] theorem Work.restartTimer_report : (w.restartTimer).report = w.report := rfl
@[simp] theorem Work.restartTimer_reply : (w.restartTimer).reply = w.reply := rfl
@[simp] theorem Work.restartTimer_occasion : (w.restartTimer).occasion = w.occasion := rfl
@[simp] theorem Work.restartTimer_progress : (w.restartTimer).progress = true := rfl

/-! ### occasionIf -/

@[simp] theorem Work.occasionIf_now (b : Bool) : (w.occasionIf b).now = w.now := rfl
@[simp] theorem Work.occasionIf_pins (b : Bool) : (w.occasionIf b).pins = w.pins := rfl
@[simp] theorem Work.occasionIf_link (b : Bool) : (w.occasionIf b).link = w.link := rfl
@[simp] theorem Work.occasionIf_tables (b : Bool) : (w.occasionIf b).tables = w.tables := rfl
@[simp] theorem Work.occasionIf_reg (b : Bool) : (w.occasionIf b).reg = w.reg := rfl
@[simp] theorem Work.occasionIf_feeds (b : Bool) : (w.occasionIf b).feeds = w.feeds := rfl
@[simp] theorem Work.occasionIf_arb (b : Bool) : (w.occasionIf b).arb = w.arb := rfl
@[simp] theorem Work.occasionIf_pockets (b : Bool) : (w.occasionIf b).pockets = w.pockets := rfl
@[simp] theorem Work.occasionIf_stapler (b : Bool) : (w.occasionIf b).stapler = w.stapler := rfl
@[simp] theorem Work.occasionIf_ret (b : Bool) : (w.occasionIf b).ret = w.ret := rfl
@[simp] theorem Work.occasionIf_attn (b : Bool) : (w.occasionIf b).attn = w.attn := rfl
@[simp] theorem Work.occasionIf_run (b : Bool) : (w.occasionIf b).run = w.run := rfl
@[simp] theorem Work.occasionIf_releasePulses (b : Bool) : (w.occasionIf b).releasePulses = w.releasePulses := rfl
@[simp] theorem Work.occasionIf_choices (b : Bool) : (w.occasionIf b).choices = w.choices := rfl
@[simp] theorem Work.occasionIf_pending (b : Bool) : (w.occasionIf b).pending = w.pending := rfl
@[simp] theorem Work.occasionIf_notices (b : Bool) : (w.occasionIf b).notices = w.notices := rfl
@[simp] theorem Work.occasionIf_drains (b : Bool) : (w.occasionIf b).drains = w.drains := rfl
@[simp] theorem Work.occasionIf_report (b : Bool) : (w.occasionIf b).report = w.report := rfl
@[simp] theorem Work.occasionIf_reply (b : Bool) : (w.occasionIf b).reply = w.reply := rfl
@[simp] theorem Work.occasionIf_occasion (b : Bool) : (w.occasionIf b).occasion = (w.occasion || b) := rfl
@[simp] theorem Work.occasionIf_progress (b : Bool) : (w.occasionIf b).progress = w.progress := rfl

/-! ### latch -/

@[simp] theorem Work.latch_now (c : Cause) : (w.latch c).now = w.now := rfl
@[simp] theorem Work.latch_pins (c : Cause) : (w.latch c).pins = w.pins := rfl
@[simp] theorem Work.latch_link (c : Cause) : (w.latch c).link = w.link := rfl
@[simp] theorem Work.latch_tables (c : Cause) : (w.latch c).tables = w.tables := rfl
@[simp] theorem Work.latch_reg (c : Cause) : (w.latch c).reg = w.reg := rfl
@[simp] theorem Work.latch_feeds (c : Cause) : (w.latch c).feeds = w.feeds := rfl
@[simp] theorem Work.latch_arb (c : Cause) : (w.latch c).arb = w.arb := rfl
@[simp] theorem Work.latch_pockets (c : Cause) : (w.latch c).pockets = w.pockets := rfl
@[simp] theorem Work.latch_stapler (c : Cause) : (w.latch c).stapler = w.stapler := rfl
@[simp] theorem Work.latch_ret (c : Cause) : (w.latch c).ret = w.ret := rfl
@[simp] theorem Work.latch_attn (c : Cause) : (w.latch c).attn = { w.attn with latches := w.attn.latches.set (causeIndex c) true } := rfl
@[simp] theorem Work.latch_run (c : Cause) : (w.latch c).run = w.run := rfl
@[simp] theorem Work.latch_releasePulses (c : Cause) : (w.latch c).releasePulses = w.releasePulses := rfl
@[simp] theorem Work.latch_choices (c : Cause) : (w.latch c).choices = w.choices := rfl
@[simp] theorem Work.latch_pending (c : Cause) : (w.latch c).pending = w.pending := rfl
@[simp] theorem Work.latch_notices (c : Cause) : (w.latch c).notices = w.notices := rfl
@[simp] theorem Work.latch_drains (c : Cause) : (w.latch c).drains = w.drains := rfl
@[simp] theorem Work.latch_report (c : Cause) : (w.latch c).report = w.report := rfl
@[simp] theorem Work.latch_reply (c : Cause) : (w.latch c).reply = w.reply := rfl
@[simp] theorem Work.latch_occasion (c : Cause) : (w.latch c).occasion = w.occasion := rfl
@[simp] theorem Work.latch_progress (c : Cause) : (w.latch c).progress = w.progress := rfl

/-! ### answer -/

@[simp] theorem Work.answer_now (k : Byte) (st : Status) (d : List Byte) (n : Notes) : (w.answer k st d n).now = w.now := rfl
@[simp] theorem Work.answer_pins (k : Byte) (st : Status) (d : List Byte) (n : Notes) : (w.answer k st d n).pins = w.pins := rfl
@[simp] theorem Work.answer_link (k : Byte) (st : Status) (d : List Byte) (n : Notes) : (w.answer k st d n).link = w.link := rfl
@[simp] theorem Work.answer_tables (k : Byte) (st : Status) (d : List Byte) (n : Notes) : (w.answer k st d n).tables = w.tables := rfl
@[simp] theorem Work.answer_reg (k : Byte) (st : Status) (d : List Byte) (n : Notes) : (w.answer k st d n).reg = w.reg := rfl
@[simp] theorem Work.answer_feeds (k : Byte) (st : Status) (d : List Byte) (n : Notes) : (w.answer k st d n).feeds = w.feeds := rfl
@[simp] theorem Work.answer_arb (k : Byte) (st : Status) (d : List Byte) (n : Notes) : (w.answer k st d n).arb = w.arb := rfl
@[simp] theorem Work.answer_pockets (k : Byte) (st : Status) (d : List Byte) (n : Notes) : (w.answer k st d n).pockets = w.pockets := rfl
@[simp] theorem Work.answer_stapler (k : Byte) (st : Status) (d : List Byte) (n : Notes) : (w.answer k st d n).stapler = w.stapler := rfl
@[simp] theorem Work.answer_ret (k : Byte) (st : Status) (d : List Byte) (n : Notes) : (w.answer k st d n).ret = w.ret := rfl
@[simp] theorem Work.answer_attn (k : Byte) (st : Status) (d : List Byte) (n : Notes) : (w.answer k st d n).attn = w.attn := rfl
@[simp] theorem Work.answer_run (k : Byte) (st : Status) (d : List Byte) (n : Notes) : (w.answer k st d n).run = w.run := rfl
@[simp] theorem Work.answer_releasePulses (k : Byte) (st : Status) (d : List Byte) (n : Notes) : (w.answer k st d n).releasePulses = w.releasePulses := rfl
@[simp] theorem Work.answer_choices (k : Byte) (st : Status) (d : List Byte) (n : Notes) : (w.answer k st d n).choices = w.choices := rfl
@[simp] theorem Work.answer_pending (k : Byte) (st : Status) (d : List Byte) (n : Notes) : (w.answer k st d n).pending = w.pending := rfl
@[simp] theorem Work.answer_notices (k : Byte) (st : Status) (d : List Byte) (n : Notes) : (w.answer k st d n).notices = w.notices := rfl
@[simp] theorem Work.answer_drains (k : Byte) (st : Status) (d : List Byte) (n : Notes) : (w.answer k st d n).drains = w.drains := rfl
@[simp] theorem Work.answer_report (k : Byte) (st : Status) (d : List Byte) (n : Notes) : (w.answer k st d n).report = w.report := rfl
@[simp] theorem Work.answer_reply (k : Byte) (st : Status) (d : List Byte) (n : Notes) : (w.answer k st d n).reply = some ⟨k, st, n, d⟩ := rfl
@[simp] theorem Work.answer_occasion (k : Byte) (st : Status) (d : List Byte) (n : Notes) : (w.answer k st d n).occasion = w.occasion := rfl
@[simp] theorem Work.answer_progress (k : Byte) (st : Status) (d : List Byte) (n : Notes) : (w.answer k st d n).progress = w.progress := rfl

/-! ### The state before a step -/

@[simp] theorem Work.of_toState (s : State) : (Work.of s).toState = s := rfl
@[simp] theorem Work.of_notices (s : State) : (Work.of s).notices = [] := rfl
@[simp] theorem Work.of_drains (s : State) : (Work.of s).drains = [] := rfl
@[simp] theorem Work.of_report (s : State) : (Work.of s).report = none := rfl
@[simp] theorem Work.of_reply (s : State) : (Work.of s).reply = none := rfl
@[simp] theorem Work.of_occasion (s : State) : (Work.of s).occasion = false := rfl
@[simp] theorem Work.of_progress (s : State) : (Work.of s).progress = false := rfl

/-! ### The queue of commands and the time base -/

@[simp] theorem State.tick_now (s : State) : (s.tick).now = s.now + 1 := rfl
@[simp] theorem State.tick_pins (s : State) : (s.tick).pins = s.pins := rfl
@[simp] theorem State.tick_link (s : State) : (s.tick).link = s.link := rfl
@[simp] theorem State.tick_tables (s : State) : (s.tick).tables = s.tables := rfl
@[simp] theorem State.tick_reg (s : State) : (s.tick).reg = s.reg := rfl
@[simp] theorem State.tick_feeds (s : State) : (s.tick).feeds = s.feeds := rfl
@[simp] theorem State.tick_arb (s : State) :
    (s.tick).arb = { s.arb with aLast := boundedALast (s.now + 1) s.arb.aLast } := rfl
@[simp] theorem State.tick_pockets (s : State) : (s.tick).pockets = s.pockets := rfl
@[simp] theorem State.tick_stapler (s : State) : (s.tick).stapler = s.stapler := rfl
@[simp] theorem State.tick_ret (s : State) : (s.tick).ret = s.ret := rfl
@[simp] theorem State.tick_attn (s : State) : (s.tick).attn = s.attn := rfl
@[simp] theorem State.tick_run (s : State) : (s.tick).run = s.run := rfl
@[simp] theorem State.tick_releasePulses (s : State) : (s.tick).releasePulses = s.releasePulses := rfl
@[simp] theorem State.tick_choices (s : State) : (s.tick).choices = s.choices := rfl
@[simp] theorem State.tick_pending (s : State) : (s.tick).pending = s.pending := rfl
@[simp] theorem State.chosen_now (s : State) : (s.chosen).now = s.now := rfl
@[simp] theorem State.chosen_pins (s : State) : (s.chosen).pins = s.pins := rfl
@[simp] theorem State.chosen_link (s : State) : (s.chosen).link = s.link := rfl
@[simp] theorem State.chosen_tables (s : State) : (s.chosen).tables = s.tables := rfl
@[simp] theorem State.chosen_reg (s : State) : (s.chosen).reg = s.reg := rfl
@[simp] theorem State.chosen_feeds (s : State) : (s.chosen).feeds = s.feeds := rfl
@[simp] theorem State.chosen_arb (s : State) : (s.chosen).arb = s.arb := rfl
@[simp] theorem State.chosen_pockets (s : State) : (s.chosen).pockets = s.pockets := rfl
@[simp] theorem State.chosen_stapler (s : State) : (s.chosen).stapler = s.stapler := rfl
@[simp] theorem State.chosen_ret (s : State) : (s.chosen).ret = s.ret := rfl
@[simp] theorem State.chosen_attn (s : State) : (s.chosen).attn = s.attn := rfl
@[simp] theorem State.chosen_run (s : State) : (s.chosen).run = s.run := rfl
@[simp] theorem State.chosen_releasePulses (s : State) : (s.chosen).releasePulses = s.releasePulses := rfl
@[simp] theorem State.chosen_choices (s : State) : (s.chosen).choices = s.choices + 1 := rfl
@[simp] theorem State.chosen_pending (s : State) : (s.chosen).pending = s.pending := rfl
@[simp] theorem State.withPending_now (s : State) (q : List Instr) : (s.withPending q).now = s.now := rfl
@[simp] theorem State.withPending_pins (s : State) (q : List Instr) : (s.withPending q).pins = s.pins := rfl
@[simp] theorem State.withPending_link (s : State) (q : List Instr) : (s.withPending q).link = s.link := rfl
@[simp] theorem State.withPending_tables (s : State) (q : List Instr) : (s.withPending q).tables = s.tables := rfl
@[simp] theorem State.withPending_reg (s : State) (q : List Instr) : (s.withPending q).reg = s.reg := rfl
@[simp] theorem State.withPending_feeds (s : State) (q : List Instr) : (s.withPending q).feeds = s.feeds := rfl
@[simp] theorem State.withPending_arb (s : State) (q : List Instr) : (s.withPending q).arb = s.arb := rfl
@[simp] theorem State.withPending_pockets (s : State) (q : List Instr) : (s.withPending q).pockets = s.pockets := rfl
@[simp] theorem State.withPending_stapler (s : State) (q : List Instr) : (s.withPending q).stapler = s.stapler := rfl
@[simp] theorem State.withPending_ret (s : State) (q : List Instr) : (s.withPending q).ret = s.ret := rfl
@[simp] theorem State.withPending_attn (s : State) (q : List Instr) : (s.withPending q).attn = s.attn := rfl
@[simp] theorem State.withPending_run (s : State) (q : List Instr) : (s.withPending q).run = s.run := rfl
@[simp] theorem State.withPending_releasePulses (s : State) (q : List Instr) : (s.withPending q).releasePulses = s.releasePulses := rfl
@[simp] theorem State.withPending_choices (s : State) (q : List Instr) : (s.withPending q).choices = s.choices := rfl
@[simp] theorem State.withPending_pending (s : State) (q : List Instr) : (s.withPending q).pending = q := rfl

/-! ### A record just completed -/

@[simp] theorem State.completed_now (s : State) (r : Record) : (s.completed r).now = s.now := rfl
@[simp] theorem State.completed_pins (s : State) (r : Record) : (s.completed r).pins = s.pins := rfl
@[simp] theorem State.completed_tables (s : State) (r : Record) : (s.completed r).tables = s.tables := rfl
@[simp] theorem State.completed_reg (s : State) (r : Record) : (s.completed r).reg = s.reg := rfl
@[simp] theorem State.completed_feeds (s : State) (r : Record) : (s.completed r).feeds = s.feeds := rfl
@[simp] theorem State.completed_arb (s : State) (r : Record) : (s.completed r).arb = s.arb := rfl
@[simp] theorem State.completed_pockets (s : State) (r : Record) : (s.completed r).pockets = s.pockets := rfl
@[simp] theorem State.completed_stapler (s : State) (r : Record) : (s.completed r).stapler = s.stapler := rfl
@[simp] theorem State.completed_ret (s : State) (r : Record) : (s.completed r).ret = s.ret := rfl
@[simp] theorem State.completed_attn (s : State) (r : Record) : (s.completed r).attn = s.attn := rfl
@[simp] theorem State.completed_run (s : State) (r : Record) : (s.completed r).run = s.run := rfl
@[simp] theorem State.completed_releasePulses (s : State) (r : Record) : (s.completed r).releasePulses = s.releasePulses := rfl
@[simp] theorem State.completed_choices (s : State) (r : Record) : (s.completed r).choices = s.choices := rfl
@[simp] theorem State.completed_pending (s : State) (r : Record) : (s.completed r).pending = s.pending := rfl
@[simp] theorem State.completed_receiver (s : State) (r : Record) : (s.completed r).link.receiver = .waiting := rfl

/-- An echo joins those waiting, or finds 32 there (R175). -/
theorem LinkPort.echo_echoes (l : LinkPort) (c : LineChar) :
    (l.echo c).echoes = if l.loopback = true ∧ l.echoes.length < 32 then l.echoes ++ [c] else l.echoes := by
  unfold LinkPort.echo Config.echoLimit
  cases l.loopback <;> by_cases h : l.echoes.length < 32 <;> simp [h]

/-- An echo changes nothing but the echoes waiting. -/
theorem LinkPort.echo_eq (l : LinkPort) (c : LineChar) : l.echo c = { l with echoes := (l.echo c).echoes } := by
  unfold LinkPort.echo; split <;> rfl

@[simp] theorem LinkPort.echo_receiver (l : LinkPort) (c : LineChar) : (l.echo c).receiver = l.receiver := by
  rw [l.echo_eq c]
@[simp] theorem LinkPort.echo_inbound (l : LinkPort) (c : LineChar) : (l.echo c).inbound = l.inbound := by
  rw [l.echo_eq c]
@[simp] theorem LinkPort.echo_outbound (l : LinkPort) (c : LineChar) : (l.echo c).outbound = l.outbound := by
  rw [l.echo_eq c]
@[simp] theorem LinkPort.echo_sending (l : LinkPort) (c : LineChar) : (l.echo c).sending = l.sending := by
  rw [l.echo_eq c]
@[simp] theorem LinkPort.echo_held (l : LinkPort) (c : LineChar) : (l.echo c).held = l.held := by
  rw [l.echo_eq c]
@[simp] theorem LinkPort.echo_hold (l : LinkPort) (c : LineChar) : (l.echo c).hold = l.hold := by
  rw [l.echo_eq c]
@[simp] theorem LinkPort.echo_pacing (l : LinkPort) (c : LineChar) : (l.echo c).pacing = l.pacing := by
  rw [l.echo_eq c]
@[simp] theorem LinkPort.echo_loopback (l : LinkPort) (c : LineChar) : (l.echo c).loopback = l.loopback := by
  rw [l.echo_eq c]
@[simp] theorem LinkPort.echo_line (l : LinkPort) (c : LineChar) : (l.echo c).line = l.line := by
  rw [l.echo_eq c]
@[simp] theorem LinkPort.echo_stalled (l : LinkPort) (c : LineChar) : (l.echo c).stalled = l.stalled := by
  rw [l.echo_eq c]
@[simp] theorem LinkPort.echo_boundaries (l : LinkPort) (c : LineChar) : (l.echo c).boundaries = l.boundaries := by
  rw [l.echo_eq c]
@[simp] theorem State.completed_link_inbound (s : State) (r : Record) : (s.completed r).link.inbound = s.link.inbound := by
  simp [State.completed]
@[simp] theorem State.completed_link_outbound (s : State) (r : Record) : (s.completed r).link.outbound = s.link.outbound := by
  simp [State.completed]
@[simp] theorem State.completed_link_sending (s : State) (r : Record) : (s.completed r).link.sending = s.link.sending := by
  simp [State.completed]
@[simp] theorem State.completed_link_held (s : State) (r : Record) : (s.completed r).link.held = s.link.held := by
  simp [State.completed]
@[simp] theorem State.completed_link_hold (s : State) (r : Record) : (s.completed r).link.hold = s.link.hold := by
  simp [State.completed]
@[simp] theorem State.completed_link_pacing (s : State) (r : Record) : (s.completed r).link.pacing = s.link.pacing := by
  simp [State.completed]
@[simp] theorem State.completed_link_loopback (s : State) (r : Record) : (s.completed r).link.loopback = s.link.loopback := by
  simp [State.completed]
@[simp] theorem State.completed_link_line (s : State) (r : Record) : (s.completed r).link.line = s.link.line := by
  simp [State.completed]
@[simp] theorem State.completed_link_stalled (s : State) (r : Record) : (s.completed r).link.stalled = s.link.stalled := by
  simp [State.completed]
@[simp] theorem State.completed_link_boundaries (s : State) (r : Record) : (s.completed r).link.boundaries = s.link.boundaries := by
  simp [State.completed]
@[simp] theorem LinkPort.boundary_receiver (l : LinkPort) : (l.boundary).receiver = l.receiver := by
  unfold LinkPort.boundary; split <;> rfl
@[simp] theorem LinkPort.boundary_inbound (l : LinkPort) : (l.boundary).inbound = l.inbound := by
  unfold LinkPort.boundary; split <;> rfl
@[simp] theorem LinkPort.boundary_outbound (l : LinkPort) : (l.boundary).outbound = l.outbound := by
  unfold LinkPort.boundary; split <;> rfl
@[simp] theorem LinkPort.boundary_held (l : LinkPort) : (l.boundary).held = l.held := by
  unfold LinkPort.boundary; split <;> rfl
@[simp] theorem LinkPort.boundary_hold (l : LinkPort) : (l.boundary).hold = l.hold := by
  unfold LinkPort.boundary; split <;> rfl
@[simp] theorem LinkPort.boundary_pacing (l : LinkPort) : (l.boundary).pacing = l.pacing := by
  unfold LinkPort.boundary; split <;> rfl
@[simp] theorem LinkPort.boundary_loopback (l : LinkPort) : (l.boundary).loopback = l.loopback := by
  unfold LinkPort.boundary; split <;> rfl
@[simp] theorem LinkPort.boundary_echoes (l : LinkPort) : (l.boundary).echoes = l.echoes := by
  unfold LinkPort.boundary; split <;> rfl
@[simp] theorem LinkPort.boundary_line (l : LinkPort) : (l.boundary).line = l.line := by
  unfold LinkPort.boundary; split <;> rfl
@[simp] theorem LinkPort.boundary_boundaries (l : LinkPort) : (l.boundary).boundaries = l.boundaries := by
  unfold LinkPort.boundary; split <;> rfl

/-! ### A character aside -/

@[simp] theorem LinkPort.sendAside_receiver (l : LinkPort) (st : Fin 4) (now : Time) (c : LineChar) :
    (l.sendAside st now c).receiver = l.receiver := rfl
@[simp] theorem LinkPort.sendAside_inbound (l : LinkPort) (st : Fin 4) (now : Time) (c : LineChar) :
    (l.sendAside st now c).inbound = l.inbound := rfl
@[simp] theorem LinkPort.sendAside_outbound (l : LinkPort) (st : Fin 4) (now : Time) (c : LineChar) :
    (l.sendAside st now c).outbound = l.outbound := rfl
@[simp] theorem LinkPort.sendAside_held (l : LinkPort) (st : Fin 4) (now : Time) (c : LineChar) :
    (l.sendAside st now c).held = l.held := rfl
@[simp] theorem LinkPort.sendAside_hold (l : LinkPort) (st : Fin 4) (now : Time) (c : LineChar) :
    (l.sendAside st now c).hold = l.hold := rfl
@[simp] theorem LinkPort.sendAside_pacing (l : LinkPort) (st : Fin 4) (now : Time) (c : LineChar) :
    (l.sendAside st now c).pacing = l.pacing := rfl
@[simp] theorem LinkPort.sendAside_loopback (l : LinkPort) (st : Fin 4) (now : Time) (c : LineChar) :
    (l.sendAside st now c).loopback = l.loopback := rfl
@[simp] theorem LinkPort.sendAside_echoes (l : LinkPort) (st : Fin 4) (now : Time) (c : LineChar) :
    (l.sendAside st now c).echoes = l.echoes := rfl

end Sys2Proof.Machine
end

