-- ==== Sys2Proof/Laws/Evolve.lean ====
section
/-! SUPPORT. What a step's operations can do to the packs, the latches and the notices (`Evolves`): a pack record moves only
by `PackStep`s, the sparse tables stay canonical, latches are only set, notices are only added. One lemma per operation,
in the form "whatever evolved to `w` evolved to the operation on `w`". -/

namespace Sys2Proof.Machine

/-! ### One change of a pack record -/

/-- One change of a pack record other than an announcement: it is cleared, or keeps what its announcement fixed while
its generation does not fall; a cleared record stays cleared; a record goes FREE only by being cleared; its counters
stay sound. -/
structure PackStep (r r' : PackRec) : Prop where
  kept : r' = PackRec.cleared ∨ (r'.fixed = r.fixed ∧ r.gen ≤ r'.gen)
  stays : r = PackRec.cleared → r' = PackRec.cleared
  freed : r'.state = .free → r' = PackRec.cleared ∨ r.state = .free
  counted : r.counted → r'.counted

/-- Any number of changes of a pack record. -/
abbrev PackTrace : PackRec → PackRec → Prop := Relation.ReflTransGen PackStep

theorem PackStep.cleared (r : PackRec) : PackStep r PackRec.cleared :=
  ⟨.inl rfl, fun _ => rfl, fun _ => .inl rfl, fun _ => by decide⟩

/-- A record that is not FREE is not a cleared one. -/
theorem PackRec.not_cleared {r : PackRec} (h : r.state ≠ .free) : r ≠ PackRec.cleared := by
  rintro rfl; exact h rfl

/-- A change that keeps the counters, the generation and what the announcement fixed, to a state that does not wait for
page 1. -/
theorem PackStep.move {r r' : PackRec} (hl : r ≠ PackRec.cleared) (hf : r'.fixed = r.fixed) (hg : r'.gen = r.gen) (h1 : r'.released = r.released)
    (h2 : r'.received = r.received) (hp : r'.pages = r.pages) (hn : r'.state ≠ .free ∨ r'.state = r.state)
    (hs : (r'.state ≠ .announced ∧ r'.state ≠ .restarting) ∨ r'.state = r.state ∨ r.state = .restarting) :
    PackStep r r' where
  kept := .inr ⟨hf, hg.ge⟩
  stays h := absurd h hl
  freed h := hn.elim (fun x => absurd h x) fun x => .inr (x ▸ h)
  counted := by
    rintro ⟨a, b, c⟩
    refine ⟨by omega, by omega, fun h => ?_⟩
    rcases hs with ⟨x, y⟩ | x | x
    · exact absurd h (by simp [x, y])
    · rw [h1, h2]; exact c (x ▸ h)
    · rw [h1, h2]; exact c (.inr x)

theorem PackStep.restarted {r : PackRec} (hl : r ≠ PackRec.cleared) : PackStep r r.restarted where
  kept := .inr ⟨rfl, by simp [PackRec.restarted]⟩
  stays h := absurd h hl
  freed h := by cases hp : r.pocket <;> simp [PackRec.restarted, hp] at h
  counted _ := by simp [PackRec.restarted, PackRec.counted]

/-! ### What the operations of a step can do -/

/-- `w'` follows from `w` by operations of a step. -/
structure Evolves (w w' : Work) : Prop where
  packs : ∀ h, PackTrace (w.pack h) (w'.pack h)
  packsWf : Sparse.wf PackRec.cleared w.reg.packs = true → Sparse.wf PackRec.cleared w'.reg.packs = true
  queuesWf : Sparse.wf [] w.reg.queues = true → Sparse.wf [] w'.reg.queues = true
  latched : ∀ c, w.latched c = true → w'.latched c = true
  output : w'.attn.output = w.attn.output
  notices : w.notices <+: w'.notices

theorem Evolves.refl (w : Work) : Evolves w w :=
  ⟨fun _ => .refl, id, id, fun _ => id, rfl, List.prefix_refl _⟩

theorem Evolves.trans {a b c : Work} (h : Evolves a b) (k : Evolves b c) : Evolves a c :=
  ⟨fun x => (h.packs x).trans (k.packs x), k.packsWf ∘ h.packsWf, k.queuesWf ∘ h.queuesWf,
   fun x y => k.latched x (h.latched x y), k.output.trans h.output, h.notices.trans k.notices⟩

/-- A change that leaves the Pack Register, the latches and the notices alone. -/
theorem Evolves.same {a w w' : Work} (h : Evolves a w) (hr : w'.reg = w.reg) (ha : w'.attn = w.attn)
    (hn : w'.notices = w.notices) : Evolves a w' := by
  refine h.trans ⟨fun x => ?_, ?_, ?_, fun c => ?_, ?_, ?_⟩
  · simp only [State.pack, hr]; exact .refl
  · rw [hr]; exact id
  · rw [hr]; exact id
  · simp only [State.latched, ha]; exact id
  · rw [ha]
  · rw [hn]

variable {a w : Work}

theorem Evolves.touch (h : Evolves a w) (e : EntryRef) : Evolves a (w.touch e) := by
  unfold Work.touch
  split
  · exact h.same rfl rfl rfl
  · exact h

theorem Evolves.touchIf (h : Evolves a w) (b : Bool) (e : EntryRef) : Evolves a (w.touchIf b e) := by
  unfold Work.touchIf
  split
  · exact h.touch e
  · exact h

theorem Evolves.occasionIf (h : Evolves a w) (b : Bool) : Evolves a (w.occasionIf b) := h.same rfl rfl rfl
theorem Evolves.restartTimer (h : Evolves a w) : Evolves a w.restartTimer := h.same rfl rfl rfl
theorem Evolves.setArb (h : Evolves a w) (r : MergeArbiter) : Evolves a (w.setArb r) := h.same rfl rfl rfl
theorem Evolves.setStaplerRec (h : Evolves a w) (r : Stapler) : Evolves a (w.setStaplerRec r) := h.same rfl rfl rfl
theorem Evolves.setRet (h : Evolves a w) (r : ReturnUnit) : Evolves a (w.setRet r) := h.same rfl rfl rfl
theorem Evolves.addDrains (h : Evolves a w) (l : List Byte) : Evolves a (w.addDrains l) := h.same rfl rfl rfl
theorem Evolves.setReport (h : Evolves a w) (r : Report) : Evolves a (w.setReport r) := h.same rfl rfl rfl
theorem Evolves.pulse (h : Evolves a w) (f : FeedId) : Evolves a (w.pulse f) := h.same rfl rfl rfl

theorem Evolves.notify (h : Evolves a w) (r : OutRecord) : Evolves a (w.notify r) :=
  h.trans ⟨fun _ => .refl, id, id, fun _ => id, rfl, List.prefix_append _ _⟩

theorem Evolves.latch (h : Evolves a w) (c : Cause) : Evolves a (w.latch c) := by
  refine h.trans ⟨fun _ => .refl, id, id, fun d hd => ?_, rfl, List.prefix_refl _⟩
  simp only [State.latched, Work.latch_attn, Fin.getElem_fin, Vector.getElem_set] at hd ⊢
  split
  · rfl
  · exact hd

/-- The Pack Register's record changes in its markers and its counter alone. -/
theorem Evolves.setReg (h : Evolves a w) {r : PackRegister} (hp : r.packs = w.reg.packs)
    (hq : r.queues = w.reg.queues) : Evolves a (w.setReg r) := by
  refine h.trans ⟨fun x => ?_, ?_, ?_, fun _ => id, rfl, List.prefix_refl _⟩
  · simp only [State.pack, Work.setReg_reg, hp]; exact .refl
  · simp [hp]
  · simp [hq]

theorem Evolves.setPack (h : Evolves a w) {k : Handle} {r : PackRec} (hs : PackStep (w.pack k) r) :
    Evolves a (w.setPack k r) := by
  unfold Work.setPack
  refine Evolves.touchIf (Evolves.touchIf (Evolves.touchIf (Evolves.occasionIf ?_ _) _ _) _ _) _ _
  refine h.trans ⟨fun x => ?_, fun hw => Sparse.put_wf _ _ _ _ hw, id, fun _ => id, rfl, List.prefix_refl _⟩
  by_cases hx : x = k
  · subst hx
    simp only [State.pack, Sparse.get_put_self]
    exact .single hs
  · simp only [State.pack, Sparse.get_put_ne _ _ _ hx]
    exact .refl

theorem Evolves.setClassQueue (h : Evolves a w) (c : ClassId) (q : List Handle) : Evolves a (w.setClassQueue c q) := by
  unfold Work.setClassQueue
  refine Evolves.touchIf (Evolves.occasionIf ?_ _) _ _
  exact h.trans ⟨fun _ => .refl, id, fun hw => Sparse.put_wf _ _ _ _ hw, fun _ => id, rfl, List.prefix_refl _⟩

theorem Evolves.setFeed (h : Evolves a w) (f : FeedId) (r : FeedRec) : Evolves a (w.setFeed f r) := by
  unfold Work.setFeed
  refine Evolves.touchIf (Evolves.occasionIf ?_ _) _ _
  exact h.same rfl rfl rfl

theorem Evolves.setPocket (h : Evolves a w) (p : PocketId) (r : PocketRec) : Evolves a (w.setPocket p r) := by
  unfold Work.setPocket
  refine Evolves.touchIf (Evolves.occasionIf ?_ _) _ _
  exact h.same rfl rfl rfl

theorem Evolves.setBin (h : Evolves a w) (b : BinId) (r : BinRec) : Evolves a (w.setBin b r) := by
  unfold Work.setBin
  refine Evolves.touchIf ?_ _ _
  exact h.same rfl rfl rfl

theorem Evolves.setRunState (h : Evolves a w) (st : RunState) : Evolves a (w.setRunState st) := by
  unfold Work.setRunState
  refine Evolves.occasionIf ?_ _
  exact h.same rfl rfl rfl

theorem Evolves.each {α : Type} (h : Evolves a w) (f : Work → α → Work) (l : List α)
    (hf : ∀ x y, Evolves a x → Evolves a (f x y)) : Evolves a (w.each f l) := by
  induction l generalizing w with
  | nil => exact h
  | cons y l ih => exact ih (hf w y h)

/-! ### The pack records through the other setters -/

@[simp] theorem Work.pack_touch (w : Work) (e : EntryRef) (k : Handle) : (w.touch e).pack k = w.pack k := by
  unfold Work.touch; split <;> rfl

@[simp] theorem Work.pack_touchIf (w : Work) (b : Bool) (e : EntryRef) (k : Handle) :
    (w.touchIf b e).pack k = w.pack k := by
  unfold Work.touchIf; split <;> simp

@[simp] theorem Work.pack_occasionIf (w : Work) (b : Bool) (k : Handle) : (w.occasionIf b).pack k = w.pack k := rfl
@[simp] theorem Work.pack_notify (w : Work) (r : OutRecord) (k : Handle) : (w.notify r).pack k = w.pack k := rfl
@[simp] theorem Work.pack_latch (w : Work) (c : Cause) (k : Handle) : (w.latch c).pack k = w.pack k := rfl
@[simp] theorem Work.pack_setArb (w : Work) (r : MergeArbiter) (k : Handle) : (w.setArb r).pack k = w.pack k := rfl
@[simp] theorem Work.pack_setStaplerRec (w : Work) (r : Stapler) (k : Handle) :
    (w.setStaplerRec r).pack k = w.pack k := rfl
@[simp] theorem Work.pack_setRet (w : Work) (r : ReturnUnit) (k : Handle) : (w.setRet r).pack k = w.pack k := rfl

@[simp] theorem Work.pack_setFeed (w : Work) (f : FeedId) (r : FeedRec) (k : Handle) :
    (w.setFeed f r).pack k = w.pack k := by
  simp only [Work.setFeed, Work.pack_touchIf, Work.pack_occasionIf]; rfl

@[simp] theorem Work.pack_setPocket (w : Work) (p : PocketId) (r : PocketRec) (k : Handle) :
    (w.setPocket p r).pack k = w.pack k := by
  simp only [Work.setPocket, Work.pack_touchIf, Work.pack_occasionIf]; rfl

@[simp] theorem Work.pack_setBin (w : Work) (b : BinId) (r : BinRec) (k : Handle) :
    (w.setBin b r).pack k = w.pack k := by
  simp only [Work.setBin, Work.pack_touchIf]; rfl

@[simp] theorem Work.pack_setClassQueue (w : Work) (c : ClassId) (q : List Handle) (k : Handle) :
    (w.setClassQueue c q).pack k = w.pack k := by
  simp only [Work.setClassQueue, Work.pack_touchIf, Work.pack_occasionIf]; rfl

/-- The record written is the record read. -/
@[simp] theorem Work.pack_setPack_self (w : Work) (k : Handle) (r : PackRec) : (w.setPack k r).pack k = r := by
  unfold Work.setPack
  simp only [Work.pack_touchIf, Work.pack_occasionIf]
  exact Sparse.get_put_self _ _ _ _

/-- The other records are as they were. -/
theorem Work.pack_setPack_ne (w : Work) {k j : Handle} (r : PackRec) (h : j ≠ k) :
    (w.setPack k r).pack j = w.pack j := by
  unfold Work.setPack
  simp only [Work.pack_touchIf, Work.pack_occasionIf]
  exact Sparse.get_put_ne _ _ _ h

/-! ### The operations -/

theorem Evolves.judge (h : Evolves a w) : Evolves a w.judge := h.setRet _

theorem Evolves.judgeStaples (h : Evolves a w) : Evolves a w.judgeStaples := by
  unfold Work.judgeStaples
  split
  · exact h.latch _
  · exact h

theorem Evolves.openPocket (h : Evolves a w) (p : PocketId) (k : Handle) : Evolves a (w.openPocket p k) :=
  h.setPocket _ _

theorem Evolves.presentVolume (h : Evolves a w) (p : PocketId) (v : Nat) : Evolves a (w.presentVolume p v) :=
  h.setPocket _ _

theorem Evolves.holdPocket (h : Evolves a w) (p : PocketId) (v : Nat) : Evolves a (w.holdPocket p v) :=
  h.setPocket _ _

theorem Evolves.requestPurge (h : Evolves a w) (p : PocketId) : Evolves a (w.requestPurge p) := by
  unfold Work.requestPurge
  dsimp only
  split <;> first | exact h | exact h.setPocket _ _

theorem Evolves.startPurge (h : Evolves a w) (p : PocketId) : Evolves a (w.startPurge p) := by
  unfold Work.startPurge
  dsimp only
  split
  · exact h.setPocket _ _
  · exact h

theorem Evolves.startPurges (h : Evolves a w) : Evolves a w.startPurges :=
  h.each _ _ fun _ p hx => hx.startPurge p

theorem Evolves.cutOffPurge (h : Evolves a w) (p : PocketId) : Evolves a (w.cutOffPurge p) := by
  unfold Work.cutOffPurge
  dsimp only
  split
  · exact h.setPocket _ _
  · exact h

theorem Evolves.freePack (h : Evolves a w) (k : Handle) : Evolves a (w.freePack k) := by
  unfold Work.freePack
  refine Evolves.addDrains (Evolves.setReg (h.setPack (PackStep.cleared _)) ?_ ?_) _ <;> rfl

theorem Evolves.leaveClassQueue (h : Evolves a w) (k : Handle) : Evolves a (w.leaveClassQueue k) :=
  h.setClassQueue _ _

theorem Evolves.leaveStapleQueue (h : Evolves a w) (k : Handle) : Evolves a (w.leaveStapleQueue k) :=
  h.setStaplerRec _

theorem Evolves.leaveDeliveryQueue (h : Evolves a w) (k : Handle) : Evolves a (w.leaveDeliveryQueue k) :=
  h.setRet _

theorem Evolves.purgeHeld (h : Evolves a w) (p : Option PocketId) : Evolves a (w.purgeHeld p) := by
  cases p with
  | none => exact h
  | some p => exact h.requestPurge p

theorem Evolves.restartPack (h : Evolves a w) (k : Handle) (c : RestartCause) (hl : (w.pack k).state ≠ .free) :
    Evolves a (w.restartPack k c) :=
  (((((h.setPack (PackStep.restarted (PackRec.not_cleared hl))).leaveStapleQueue k).leaveDeliveryQueue k).purgeHeld _).notify _).latch _

@[simp] theorem Work.pack_leaveClassQueue (w : Work) (j k : Handle) : (w.leaveClassQueue j).pack k = w.pack k := by
  simp [Work.leaveClassQueue]

@[simp] theorem Work.pack_leaveStapleQueue (w : Work) (j k : Handle) :
    (w.leaveStapleQueue j).pack k = w.pack k := rfl

@[simp] theorem Work.pack_leaveDeliveryQueue (w : Work) (j k : Handle) :
    (w.leaveDeliveryQueue j).pack k = w.pack k := rfl

/-- A record goes DISPOSING with all else as it was. -/
theorem PackStep.disposing {r : PackRec} (hl : r ≠ PackRec.cleared) : PackStep r { r with state := .disposing } :=
  .move hl rfl rfl rfl rfl rfl (.inl (by simp)) (.inl (by simp))

theorem Evolves.abandonPack (h : Evolves a w) (k : Handle) (c : RestartCause) : Evolves a (w.abandonPack k c) := by
  unfold Work.abandonPack
  have h1 := ((((h.leaveClassQueue k).leaveStapleQueue k).leaveDeliveryQueue k).notify
    (.packAbandoned k c)).latch .abandon
  dsimp only
  split
  · exact h1.freePack k
  · rename_i hp
    refine (h1.setPack ?_).requestPurge _
    simpa using PackStep.disposing (r := w.pack k) (by intro hc; rw [hc] at hp; cases hp)

theorem Evolves.requestRestart (h : Evolves a w) (k : Handle) (g : Nat) (c : RestartCause) :
    Evolves a (w.requestRestart k g c) := by
  unfold Work.requestRestart
  split
  · rename_i ht
    have hl : (w.pack k).state ≠ .free := by
      simp only [State.takesRestart, Bool.and_eq_true, decide_eq_true_eq] at ht; exact ht.1.1
    split
    · exact (h.restartPack k c hl).judge
    · exact (h.abandonPack k c).judge
  · exact h

theorem Evolves.purgeEnded (h : Evolves a w) (k : Handle) : Evolves a (w.purgeEnded k) := by
  unfold Work.purgeEnded
  dsimp only
  split
  case h_1 hr => exact h.setPack (.move (PackRec.not_cleared (by simp [hr]))
      rfl rfl rfl rfl rfl (.inl (by simp)) (.inr (.inr hr)))
  case h_2 => exact h.freePack k
  case h_3 => exact h

theorem Evolves.goReady (h : Evolves a w) (k : Handle) (f : PackFlags) (hl : w.pack k ≠ PackRec.cleared) :
    Evolves a (w.goReady k f) := by
  unfold Work.goReady
  refine Evolves.judge (Evolves.setPack h ?_)
  exact .move hl rfl rfl rfl rfl rfl (.inl (by simp)) (.inl (by simp))

theorem Evolves.deliveredPack (h : Evolves a w) (k : Handle) : Evolves a (w.deliveredPack k) :=
  (h.leaveClassQueue k).freePack k

theorem Evolves.withdrawPack (h : Evolves a w) (k : Handle) (hl : (w.pack k).state ≠ .free) :
    Evolves a (w.withdrawPack k) := by
  unfold Work.withdrawPack
  have h1 := ((h.leaveClassQueue k).leaveStapleQueue k).leaveDeliveryQueue k
  dsimp only
  split
  · exact h1.freePack k
  · refine (h1.setPack ?_).purgeHeld _
    simpa using PackStep.disposing (PackRec.not_cleared hl)

theorem Evolves.setRemaining (h : Evolves a w) (n : Nat) : Evolves a (w.setRemaining n) :=
  ((h.setStaplerRec _).touchIf _ _).judgeStaples

theorem Evolves.setStapler (h : Evolves a w) (st : StaplerState) (k : Option WorkRec) (c : Option (PocketId × Nat)) :
    Evolves a (w.setStapler st k c) := h.setStaplerRec _

@[simp] theorem Work.pack_holdPocket (w : Work) (p : PocketId) (v : Nat) (k : Handle) :
    (w.holdPocket p v).pack k = w.pack k := by simp [Work.holdPocket]

theorem Evolves.finishPack (h : Evolves a w) (k : Handle) (f : PackFlags) (hl : w.pack k ≠ PackRec.cleared) :
    Evolves a (w.finishPack k f) := by
  unfold Work.finishPack
  dsimp only
  split
  · exact (h.setStaplerRec _).goReady k f (by simpa using hl)
  · exact ((h.setStaplerRec _).holdPocket _ _).goReady k f (by simpa using hl)

theorem Evolves.shortVolume (h : Evolves a w) (k : WorkRec) : Evolves a (w.shortVolume k) := by
  unfold Work.shortVolume
  dsimp only
  split
  · exact (h.latch _).setStapler _ _ _
  · rename_i hd
    refine (h.latch _).finishPack _ _ ?_
    rw [Work.pack_latch]
    intro hc
    rw [hc] at hd
    cases hd

@[simp] theorem Work.pack_judgeStaples (w : Work) (k : Handle) : w.judgeStaples.pack k = w.pack k := by
  unfold Work.judgeStaples; split <;> rfl

@[simp] theorem Work.pack_setRemaining (w : Work) (n : Nat) (k : Handle) : (w.setRemaining n).pack k = w.pack k := by
  simp [Work.setRemaining]

theorem Evolves.startVolume (h : Evolves a w) (k : WorkRec) : Evolves a (w.startVolume k) := by
  unfold Work.startVolume
  dsimp only
  split
  · exact h.shortVolume k
  · have h1 := h.setRemaining (w.stapler.remaining - patternCount (w.pack k.handle).snap.pattern)
    have hs : (w.pack k.handle).state = .complete →
        PackStep (w.pack k.handle) { w.pack k.handle with state := .stapling } := fun hc =>
      .move (PackRec.not_cleared (by simp [hc])) rfl rfl rfl rfl rfl (.inl (by simp)) (.inl (by simp))
    refine Evolves.setStapler ?_ _ _ _
    split <;> split
    case isTrue hk => exact h1.setPack (by simpa using hs hk.2)
    · exact h1
    case isTrue hk => exact (h1.setPack (by simpa using hs hk.2)).presentVolume _ _
    · exact h1.presentVolume _ _

theorem Evolves.takeUp (h : Evolves a w) (n : Nat) : Evolves a (Work.takeUp n w) := by
  induction n generalizing w with
  | zero => exact h
  | succ n ih =>
    unfold Work.takeUp
    split
    · exact h
    · split
      · exact ih (h.startVolume _)
      · exact h

theorem Evolves.staple (h : Evolves a w) : Evolves a w.staple := h.takeUp _

theorem State.stillStapling_not_cleared {s : State} {k : WorkRec} (h : s.stillStapling k = true) :
    s.pack k.handle ≠ PackRec.cleared := by
  simp only [State.stillStapling, decide_eq_true_eq] at h
  exact PackRec.not_cleared (by simp [h.1])

theorem Evolves.volumeDone (h : Evolves a w) (k : WorkRec) : Evolves a (w.volumeDone k) := by
  unfold Work.volumeDone
  dsimp only
  split
  · rename_i hs
    split
    · exact h.setStapler _ _ _
    · exact h.finishPack _ _ (State.stillStapling_not_cleared hs)
  · exact h.setStapler _ _ _

theorem Evolves.volumeTimedOut (h : Evolves a w) (k : WorkRec) : Evolves a (w.volumeTimedOut k) :=
  (h.setStapler _ _ _).latch _

theorem Evolves.cutOffVolume (h : Evolves a w) : Evolves a w.cutOffVolume := by
  unfold Work.cutOffVolume
  split
  · exact h
  · exact h.setStapler _ _ _

theorem Evolves.reissueVolume (h : Evolves a w) : Evolves a w.reissueVolume := by
  unfold Work.reissueVolume
  split
  · exact h
  · split
    · split
      · exact h.startVolume _
      · exact h.setStapler _ _ _
    · exact h

theorem Evolves.fitCartridge (h : Evolves a w) : Evolves a w.fitCartridge := by
  unfold Work.fitCartridge
  dsimp only
  split
  · exact (h.setRemaining _).setStapler _ _ _
  · exact h.setRemaining _

/-- An eligible pack is READY (R114). -/
theorem State.eligible_ready {s : State} {k : Handle} (h : s.eligible k = true) : (s.pack k).state = .ready := by
  simp only [State.eligible, State.inTurn, Bool.and_eq_true, decide_eq_true_eq] at h
  exact h.1.1

theorem Evolves.beginDelivery (h : Evolves a w) (k : Handle) (p : PocketId) (b : BinId)
    (hl : (w.pack k).state = .ready) : Evolves a (w.beginDelivery k p b) := by
  unfold Work.beginDelivery
  refine Evolves.setRet (Evolves.setPocket (Evolves.setPack (h.leaveDeliveryQueue k) ?_) _ _) _
  exact .move (PackRec.not_cleared (by simp [hl])) rfl rfl rfl rfl rfl (.inl (by simp)) (.inl (by simp))

theorem Evolves.startDelivery (h : Evolves a w) : Evolves a w.startDelivery := by
  unfold Work.startDelivery
  split
  · split
    · exact h
    · rename_i hf
      split
      · exact h.beginDelivery _ _ _ (State.eligible_ready (List.find?_some hf))
      · exact h
  · exact h

theorem Evolves.dropDelivery (h : Evolves a w) : Evolves a w.dropDelivery := h.setRet _

theorem Evolves.completeDelivery (h : Evolves a w) (d : DeliveryRec) : Evolves a (w.completeDelivery d) := by
  unfold Work.completeDelivery
  dsimp only
  refine Evolves.judge ?_
  split
  · exact ((((h.setBin _ _).dropDelivery).setPocket _ _).deliveredPack _).notify _
  · exact ((h.setBin _ _).dropDelivery).setPocket _ _

theorem Evolves.loseDelivery (h : Evolves a w) (d : DeliveryRec) : Evolves a (w.loseDelivery d) := by
  unfold Work.loseDelivery
  refine Evolves.requestRestart (Evolves.dropDelivery (Evolves.setPack (h.setPocket _ _) ?_)) _ _ _
  exact ⟨.inr ⟨rfl, le_rfl⟩, fun hc => by rw [hc]; rfl, fun hf => .inr hf, id⟩

theorem Evolves.deliveryTimedOut (h : Evolves a w) : Evolves a w.deliveryTimedOut := (h.setRet _).latch _

theorem Evolves.cutOffDelivery (h : Evolves a w) : Evolves a w.cutOffDelivery := by
  unfold Work.cutOffDelivery
  split
  · exact h
  · exact h.setRet _

theorem Evolves.reissueDelivery (h : Evolves a w) : Evolves a w.reissueDelivery := by
  unfold Work.reissueDelivery
  split
  · exact h
  · split
    · exact h.setRet _
    · exact h

theorem Evolves.judgeBinFull (h : Evolves a w) (s : State) : Evolves a (w.judgeBinFull s) := by
  unfold Work.judgeBinFull
  split
  · exact h.latch _
  · exact h

theorem Evolves.driveLamp (h : Evolves a w) (b : BinId) : Evolves a (w.driveLamp b) := by
  unfold Work.driveLamp
  dsimp only
  split
  · exact h
  · exact h.setRet _

theorem Evolves.driveLamps (h : Evolves a w) : Evolves a w.driveLamps := h.each _ _ fun _ b hx => hx.driveLamp b

/-! ### The arbiter -/

theorem Evolves.boundALast (h : Evolves a w) : Evolves a w.boundALast := h.setArb _

theorem Evolves.dropPick (h : Evolves a w) : Evolves a w.dropPick := by
  unfold Work.dropPick
  split
  · exact h
  · split
    · exact h
    · exact h.setArb _

theorem Evolves.appendInFlight (h : Evolves a w) (f : FeedId) (k : Option Handle) (p g : Nat) (t : EntryTag)
    (d : Disposition) : Evolves a (w.appendInFlight f k p g t d) := h.setArb _

theorem Evolves.releaseBare (h : Evolves a w) (f : FeedId) (t : EntryTag) (d : Disposition) :
    Evolves a (w.releaseBare f t d) := (h.setFeed _ _).appendInFlight _ _ _ _ _ _

theorem Evolves.releaseHead (h : Evolves a w) (f : FeedId) (e : StagingEntry) (d : Disposition) :
    Evolves a (w.releaseHead f e d) := (h.setFeed _ _).appendInFlight _ _ _ _ _ _

@[simp] theorem Work.pack_releaseHead (w : Work) (f : FeedId) (e : StagingEntry) (d : Disposition) (k : Handle) :
    (w.releaseHead f e d).pack k = w.pack k := by simp [Work.releaseHead, Work.appendInFlight]

@[simp] theorem Work.pack_restartTimer (w : Work) (k : Handle) : w.restartTimer.pack k = w.pack k := rfl
@[simp] theorem Work.pack_pulse (w : Work) (f : FeedId) (k : Handle) : (w.pulse f).pack k = w.pack k := rfl

@[simp] theorem Work.pack_openPocket (w : Work) (p : PocketId) (j k : Handle) :
    (w.openPocket p j).pack k = w.pack k := by simp [Work.openPocket]

theorem Evolves.openPack (h : Evolves a w) (k : Handle) (p : PocketId) (ha : (w.pack k).state = .announced)
    (hp : 1 ≤ (w.pack k).pages) : Evolves a (w.openPack k p) := by
  unfold Work.openPack
  have hs : PackStep (w.pack k) { w.pack k with
      state := .opened, pocket := some p, released := 1,
      flags := { (w.pack k).flags with
        outOfTurn := (w.pack k).flags.outOfTurn || decide (w.arb.pick.map Prod.snd = some k) } } :=
    ⟨.inr ⟨rfl, le_rfl⟩, fun hc => by simp [hc, PackRec.cleared] at ha, by simp,
      fun hc => ⟨by have := hc.2.2 (.inl ha); simp [this.2], hp, by simp⟩⟩
  dsimp only
  split
  · refine Evolves.latch (Evolves.notify (Evolves.setArb (Evolves.setPack (h.openPocket p k) ?_) _) _) _
    rw [Work.pack_openPocket]
    exact hs
  · refine Evolves.setPack (h.openPocket p k) ?_
    rw [Work.pack_openPocket]
    exact hs

theorem Evolves.pageReleased (h : Evolves a w) (k : Handle) (ho : (w.pack k).state = .opened)
    (hp : (w.pack k).released + 1 ≤ (w.pack k).pages) : Evolves a (w.pageReleased k) :=
  h.setPack ⟨.inr ⟨rfl, le_rfl⟩, fun hc => by simp [hc, PackRec.cleared] at ho, by simp [ho], fun hc => ⟨by have := hc.1; simp; omega, hp, by simp [ho]⟩⟩

/-- A COLLATE verdict with a pocket is for page 1 of an ANNOUNCED pack (R50). -/
theorem State.judgeEntry_open {s : State} {e : StagingEntry} {p : PocketId}
    (h : s.judgeEntry e = .collate (some p)) :
    (s.pack e.handle).state = .announced ∧ e.page = 1 ∧ 1 ≤ (s.pack e.handle).pages := by
  unfold State.judgeEntry at h
  dsimp only at h
  split at h; · cases h
  split at h; · cases h
  split at h; · cases h
  split at h; · cases h
  rename_i hp
  split at h; · simp at h
  split at h
  · rename_i hq
    exact ⟨hq.1, hq.2, by omega⟩
  · cases h

/-- A COLLATE verdict without a pocket is for the next page of an OPEN pack (R49). -/
theorem State.judgeEntry_next {s : State} {e : StagingEntry} (h : s.judgeEntry e = .collate none) :
    (s.pack e.handle).state = .opened ∧ e.page = (s.pack e.handle).released + 1
      ∧ (s.pack e.handle).released + 1 ≤ (s.pack e.handle).pages := by
  unfold State.judgeEntry at h
  dsimp only at h
  repeat' split at h
  all_goals first | (simp at h; done) | skip
  rename_i _ _ _ hp hq
  exact ⟨hq.1, hq.2, by omega⟩

/-- A COLLATE verdict is the verdict on the head entry. -/
theorem State.verdict_collate {s : State} {f : FeedId} {e : StagingEntry} {rest : List StagingEntry}
    {p : Option PocketId} (h : s.verdict f = .collate p) (hq : s.feeds[f].queue = e :: rest) :
    s.judgeEntry e = .collate p := by
  unfold State.verdict at h
  split at h
  · simp at h
  · split at h
    · simp at h
    · rw [hq] at h
      exact h

theorem Evolves.release (h : Evolves a w) (f : FeedId) : Evolves a (w.release f) := by
  unfold Work.release
  have h1 := (h.pulse f).restartTimer
  dsimp only
  split
  · exact h
  · exact h1.releaseBare _ _ _
  · exact (h1.releaseBare _ _ _).latch _
  · exact h
  · exact h1.releaseHead _ _ _
  case h_6 hv _ hq =>
    have := State.judgeEntry_open (State.verdict_collate hv hq)
    exact (h1.releaseHead _ _ _).openPack _ _ (by simpa using this.1) (by simpa using this.2.2)
  case h_7 hv _ hq =>
    have := State.judgeEntry_next (State.verdict_collate hv hq)
    exact (h1.releaseHead _ _ _).pageReleased _ (by simpa using this.1) (by simpa using this.2.2)

theorem Evolves.decideUpTo (h : Evolves a w) (n : Nat) : Evolves a (Work.decideUpTo n w) := by
  induction n generalizing w with
  | zero => exact h
  | succ n ih =>
    unfold Work.decideUpTo
    dsimp only
    split
    · exact h.boundALast.dropPick
    · exact ih (h.boundALast.dropPick.release _)

theorem Evolves.decideReleases (h : Evolves a w) : Evolves a w.decideReleases := by
  unfold Work.decideReleases
  split
  · exact h.decideUpTo 5
  · exact h

theorem Evolves.timeWait (h : Evolves a w) (f : FeedId) : Evolves a (w.timeWait f) := by
  unfold Work.timeWait
  dsimp only
  split <;> split <;> first | exact h | exact h.setFeed _ _

theorem Evolves.timeWaits (h : Evolves a w) : Evolves a w.timeWaits := h.each _ _ fun _ f hx => hx.timeWait f

theorem Evolves.timeBlock (h : Evolves a w) : Evolves a w.timeBlock := h.setArb _

theorem Evolves.setGate (h : Evolves a w) (g : Gate) : Evolves a (w.setGate g) := h.setArb _

theorem Evolves.dropHead (h : Evolves a w) : Evolves a w.dropHead := h.setArb _

theorem Evolves.faultFeed (h : Evolves a w) (f : FeedId) : Evolves a (w.faultFeed f) := h.setFeed _ _

theorem Evolves.requestFor (h : Evolves a w) (e : InFlight) (c : RestartCause) : Evolves a (w.requestFor e c) := by
  unfold Work.requestFor
  split
  · exact h.requestRestart _ _ _
  · exact h

theorem Evolves.admitSheet (h : Evolves a w) (k : Handle) (p : PocketId) : Evolves a (w.admitSheet k p) := by
  unfold Work.admitSheet
  dsimp only
  split
  · exact h
  · rename_i hn
    have hm : ∀ st, (st = (w.pack k).state ∨ (st ≠ .free ∧ st ≠ .announced ∧ st ≠ .restarting)) →
        PackStep (w.pack k) { w.pack k with received := (w.pack k).received + 1, state := st } := fun st hst =>
      ⟨.inr ⟨rfl, le_rfl⟩, fun hc => by rw [hc] at hn; exact absurd (Nat.le_refl 0) hn,
        fun hf => .inr (hst.elim (fun x => x ▸ hf) fun x => absurd hf x.1),
        fun hc => ⟨by simp; omega, hc.2.1, fun hs => by
          rcases hst with x | x
          · have := hc.2.2 (x ▸ hs); omega
          · exact absurd hs (by simp [x.2.1, x.2.2])⟩⟩
    have h1 := h.setPocket p (w.pockets[p].admitted (w.pack k))
    split
    · split
      · exact (h1.setPack (by simpa using hm .complete (.inr (by simp)))).setStaplerRec _
      · exact (h1.setPack (by simpa using hm .ready (.inr (by simp)))).judge
    · exact h1.setPack (by simpa using hm (w.pack k).state (.inl rfl))

theorem Evolves.takeHead (h : Evolves a w) (e : InFlight) : Evolves a (w.takeHead e) := by
  unfold Work.takeHead
  dsimp only
  split
  · exact h.dropHead.setGate _
  · exact h.dropHead.setGate _
  · exact h.dropHead.setGate _
  · split
    · split
      · exact (h.dropHead.setGate _).admitSheet _ _
      · exact h.dropHead.setGate _
    · exact h.dropHead.setGate _

theorem Evolves.matchArrival (h : Evolves a w) (t : Option TagNum) : Evolves a (w.matchArrival t) := by
  unfold Work.matchArrival
  have h1 := h.restartTimer
  dsimp only
  split
  · exact (h.setGate _).latch _
  · split
    · exact h1.takeHead _
    · split
      · split
        · exact (((h1.dropHead.faultFeed _).latch _).requestFor _ _).takeHead _
        · exact (((h1.setGate _).dropHead).latch _).requestFor _ _
      · exact (((h1.setGate _).dropHead).latch _).requestFor _ _

theorem Evolves.breakDelivery (h : Evolves a w) (k : Handle) (hl : (w.pack k).state = .ready) :
    Evolves a (w.breakDelivery k) := by
  unfold Work.breakDelivery
  refine Evolves.judge (Evolves.latch (Evolves.notify (Evolves.setPack h ?_) _) _)
  exact .move (PackRec.not_cleared (by simp [hl])) rfl rfl rfl rfl rfl (.inr rfl) (.inr (.inl rfl))

/-- The first of a list under a choice is a member of it. -/
theorem firstBy_mem {α : Type} {better : α → α → Bool} {l : List α} {x : α} (h : firstBy better l = some x) : x ∈ l := by
  have key : ∀ (l : List α) (y : α), l.foldl (fun b y => if better y b then y else b) y = y
      ∨ l.foldl (fun b y => if better y b then y else b) y ∈ l := by
    intro l
    induction l with
    | nil => exact fun y => .inl rfl
    | cons z l ih =>
      intro y
      simp only [List.foldl_cons, List.mem_cons]
      split
      · exact (ih z).elim (fun e => .inr (.inl e)) fun e => .inr (.inr e)
      · exact (ih y).imp_right .inr
  cases l with
  | nil => cases h
  | cons y l =>
    simp only [firstBy, Option.some.injEq] at h
    subst h
    exact List.mem_cons.2 (key l y)

/-- A pack whose delivery may be broken out of turn is READY (R66). -/
theorem State.breakable_ready {s : State} {k : Handle} (h : s.breakable k = true) : (s.pack k).state = .ready := by
  simp only [State.breakable, Bool.and_eq_true, decide_eq_true_eq] at h
  exact h.1.1

theorem Evolves.breakBlock (h : Evolves a w) : Evolves a w.breakBlock := by
  unfold Work.breakBlock
  split
  · exact h.requestRestart _ _ _
  · split
    · exact (h.setArb _).occasionIf _
    · split
      · rename_i hb
        exact h.breakDelivery _ (State.breakable_ready (List.of_mem_filter (firstBy_mem hb)))
      · split
        · exact h.requestRestart _ _ _
        · exact h

/-! ### Run Control -/

theorem Evolves.halt (h : Evolves a w) (c : HaltCause) (t : ResumeTarget) : Evolves a (w.halt c t) :=
  (((h.setRunState _).cutOffVolume.cutOffDelivery).each _ _ fun _ p hx => hx.cutOffPurge p)

theorem Evolves.requestHalt (h : Evolves a w) (c : HaltCause) : Evolves a (w.requestHalt c) := by
  unfold Work.requestHalt
  split
  · exact h.setRunState _
  · split
    · exact h
    · exact h.halt _ _

theorem Evolves.takeStop (h : Evolves a w) : Evolves a w.takeStop := (h.latch _).requestHalt _

theorem Evolves.flushFeed (h : Evolves a w) (f : FeedId) : Evolves a (w.flushFeed f) := h.setFeed _ _

theorem Evolves.enterBypass (h : Evolves a w) : Evolves a w.enterBypass :=
  (h.setRunState _).each _ _ fun _ f hx => hx.flushFeed f

theorem Evolves.enterTarget (h : Evolves a w) (t : ResumeTarget) : Evolves a (w.enterTarget t) := by
  unfold Work.enterTarget
  split
  · exact h.enterBypass
  · exact h.setRunState _

theorem Evolves.leaveStarting (h : Evolves a w) (k : ResetKind) (b : Bool) : Evolves a (w.leaveStarting k b) := by
  unfold Work.leaveStarting
  dsimp only
  refine Evolves.setReport ?_ _
  split
  · exact h.halt _ _
  · exact h.enterTarget _

theorem Evolves.endStartUp (h : Evolves a w) : Evolves a w.endStartUp := by
  unfold Work.endStartUp
  split
  · split
    · exact h
    · exact h.leaveStarting _ _
  · exact h

theorem Evolves.endStopping (h : Evolves a w) : Evolves a w.endStopping := by
  unfold Work.endStopping
  split
  · split
    · exact h.setRunState _
    · exact h
  · exact h

/-- Whatever follows a step's own effect. -/
theorem Evolves.settle (h : Evolves a w) (s : State) : Evolves a (w.settle s) :=
  (((h.startPurges.endStartUp.judge.staple.startDelivery.endStopping).decideReleases.timeWaits.timeBlock).judgeBinFull
    s).driveLamps

theorem Evolves.flushInFlight (h : Evolves a w) : Evolves a w.flushInFlight :=
  (h.setArb _).each _ _ fun _ e hx => hx.requestFor e _

theorem Evolves.resume (h : Evolves a w) (t : ResumeTarget) : Evolves a (w.resume t) :=
  (h.flushInFlight.reissueVolume.reissueDelivery).enterTarget t

end Sys2Proof.Machine
end

