-- ==== Sys2Proof/Laws/Frame.lean ====
section
/-! SUPPORT. What every operation of a step keeps: the time base, the input levels, the tables but for the mark, the choices
made, the waiting commands, the straps, the Link Port and the Result formed (`Work.frame`). One lemma per operation, for
the operations to which a command's effect comes down, and `frame_settle` for all that follows it. -/

namespace Sys2Proof.Machine

/-- The parts of a step's state that no operation on the work changes. -/
structure Frame where
  now : Time
  pins : Pins
  tables : TableStore
  choices : Nat
  pending : List Instr
  straps : Straps
  link : LinkPort
  reply : Option Reply

/-- The frame of a step's state. -/
def Work.frame (w : Work) : Frame :=
  ⟨w.now, w.pins, { w.tables with mark := none }, w.choices, w.pending, w.run.straps, w.link, w.reply⟩

@[simp] theorem Work.frame_each {α : Type} (w : Work) (f : Work → α → Work) (l : List α)
    (h : ∀ x a, (f x a).frame = x.frame) : (w.each f l).frame = w.frame := by
  induction l generalizing w with
  | nil => rfl
  | cons a l ih => simpa [Work.each, h] using ih (f w a)

@[simp] theorem Work.frame_touch (w : Work) (e : EntryRef) : (w.touch e).frame = w.frame := by
  unfold Work.touch; split <;> rfl

@[simp] theorem Work.frame_touchIf (w : Work) (b : Bool) (e : EntryRef) : (w.touchIf b e).frame = w.frame := by
  unfold Work.touchIf; split <;> simp

@[simp] theorem Work.frame_occasionIf (w : Work) (b : Bool) : (w.occasionIf b).frame = w.frame := by
  simp only [Work.occasionIf]; rfl

@[simp] theorem Work.frame_restartTimer (w : Work) : w.restartTimer.frame = w.frame := by
  simp only [Work.restartTimer]; rfl

@[simp] theorem Work.frame_notify (w : Work) (r : OutRecord) : (w.notify r).frame = w.frame := by
  simp only [Work.notify]; rfl

@[simp] theorem Work.frame_latch (w : Work) (c : Cause) : (w.latch c).frame = w.frame := by
  simp only [Work.latch]; rfl

@[simp] theorem Work.frame_setReg (w : Work) (r : PackRegister) : (w.setReg r).frame = w.frame := by
  simp only [Work.setReg]; rfl

@[simp] theorem Work.frame_setArb (w : Work) (r : MergeArbiter) : (w.setArb r).frame = w.frame := by
  simp only [Work.setArb]; rfl

@[simp] theorem Work.frame_setStaplerRec (w : Work) (r : Stapler) : (w.setStaplerRec r).frame = w.frame := by
  simp only [Work.setStaplerRec]; rfl

@[simp] theorem Work.frame_setRet (w : Work) (r : ReturnUnit) : (w.setRet r).frame = w.frame := by
  simp only [Work.setRet]; rfl

@[simp] theorem Work.frame_addDrains (w : Work) (l : List Byte) : (w.addDrains l).frame = w.frame := by
  simp only [Work.addDrains]; rfl

@[simp] theorem Work.frame_setReport (w : Work) (r : Report) : (w.setReport r).frame = w.frame := by
  simp only [Work.setReport]; rfl

@[simp] theorem Work.frame_setPack (w : Work) (h : Handle) (r : PackRec) : (w.setPack h r).frame = w.frame := by
  simp [Work.setPack]; rfl

@[simp] theorem Work.frame_setClassQueue (w : Work) (c : ClassId) (q : List Handle) :
    (w.setClassQueue c q).frame = w.frame := by
  simp [Work.setClassQueue]; rfl

@[simp] theorem Work.frame_setFeed (w : Work) (f : FeedId) (r : FeedRec) : (w.setFeed f r).frame = w.frame := by
  simp [Work.setFeed]; rfl

@[simp] theorem Work.frame_setPocket (w : Work) (p : PocketId) (r : PocketRec) :
    (w.setPocket p r).frame = w.frame := by
  simp [Work.setPocket]; rfl

@[simp] theorem Work.frame_setBin (w : Work) (b : BinId) (r : BinRec) : (w.setBin b r).frame = w.frame := by
  simp [Work.setBin]; rfl

@[simp] theorem Work.frame_setRunState (w : Work) (st : RunState) : (w.setRunState st).frame = w.frame := by
  simp only [Work.setRunState]; rfl

@[simp] theorem Work.frame_judge (w : Work) : w.judge.frame = w.frame := by simp only [Work.judge]; rfl

@[simp] theorem Work.frame_clearLatches (w : Work) : w.clearLatches.frame = w.frame := by
  simp only [Work.clearLatches]; rfl

@[simp] theorem Work.frame_judgeStaples (w : Work) : w.judgeStaples.frame = w.frame := by
  unfold Work.judgeStaples; split <;> rfl

@[simp] theorem Work.frame_openPocket (w : Work) (p : PocketId) (h : Handle) :
    (w.openPocket p h).frame = w.frame := by
  simp [Work.openPocket]

@[simp] theorem Work.frame_presentVolume (w : Work) (p : PocketId) (v : Nat) :
    (w.presentVolume p v).frame = w.frame := by
  simp [Work.presentVolume]

@[simp] theorem Work.frame_holdPocket (w : Work) (p : PocketId) (v : Nat) :
    (w.holdPocket p v).frame = w.frame := by
  simp [Work.holdPocket]

@[simp] theorem Work.frame_requestPurge (w : Work) (p : PocketId) : (w.requestPurge p).frame = w.frame := by
  unfold Work.requestPurge; dsimp only; split <;> simp

@[simp] theorem Work.frame_startPurge (w : Work) (p : PocketId) : (w.startPurge p).frame = w.frame := by
  unfold Work.startPurge; dsimp only; split <;> simp

@[simp] theorem Work.frame_startPurges (w : Work) : w.startPurges.frame = w.frame := by simp [Work.startPurges]

@[simp] theorem Work.frame_cutOffPurge (w : Work) (p : PocketId) : (w.cutOffPurge p).frame = w.frame := by
  unfold Work.cutOffPurge; dsimp only; split <;> simp

@[simp] theorem Work.frame_freePack (w : Work) (h : Handle) : (w.freePack h).frame = w.frame := by
  simp [Work.freePack]

@[simp] theorem Work.frame_leaveClassQueue (w : Work) (h : Handle) : (w.leaveClassQueue h).frame = w.frame := by
  simp [Work.leaveClassQueue]

@[simp] theorem Work.frame_leaveStapleQueue (w : Work) (h : Handle) : (w.leaveStapleQueue h).frame = w.frame := by
  simp only [Work.leaveStapleQueue]; rfl

@[simp] theorem Work.frame_leaveDeliveryQueue (w : Work) (h : Handle) :
    (w.leaveDeliveryQueue h).frame = w.frame := by
  simp only [Work.leaveDeliveryQueue]; rfl

@[simp] theorem Work.frame_purgeHeld (w : Work) (p : Option PocketId) : (w.purgeHeld p).frame = w.frame := by
  unfold Work.purgeHeld; split <;> simp

@[simp] theorem Work.frame_restartPack (w : Work) (h : Handle) (c : RestartCause) :
    (w.restartPack h c).frame = w.frame := by
  simp [Work.restartPack]

@[simp] theorem Work.frame_abandonPack (w : Work) (h : Handle) (c : RestartCause) :
    (w.abandonPack h c).frame = w.frame := by
  unfold Work.abandonPack; dsimp only; split <;> simp

@[simp] theorem Work.frame_requestRestart (w : Work) (h : Handle) (g : Nat) (c : RestartCause) :
    (w.requestRestart h g c).frame = w.frame := by
  unfold Work.requestRestart; split <;> (try split) <;> simp

@[simp] theorem Work.frame_purgeEnded (w : Work) (h : Handle) : (w.purgeEnded h).frame = w.frame := by
  unfold Work.purgeEnded; dsimp only; split <;> simp

@[simp] theorem Work.frame_goReady (w : Work) (h : Handle) (f : PackFlags) : (w.goReady h f).frame = w.frame := by
  simp [Work.goReady]

@[simp] theorem Work.frame_deliveredPack (w : Work) (h : Handle) : (w.deliveredPack h).frame = w.frame := by
  simp [Work.deliveredPack]

@[simp] theorem Work.frame_withdrawPack (w : Work) (h : Handle) : (w.withdrawPack h).frame = w.frame := by
  unfold Work.withdrawPack; dsimp only; split <;> simp

@[simp] theorem Work.frame_setRemaining (w : Work) (n : Nat) : (w.setRemaining n).frame = w.frame := by
  simp [Work.setRemaining]

@[simp] theorem Work.frame_setStapler (w : Work) (a : StaplerState) (b : Option WorkRec) (c : Option (PocketId × Nat)) :
    (w.setStapler a b c).frame = w.frame := by
  simp only [Work.setStapler]; rfl

@[simp] theorem Work.frame_finishPack (w : Work) (h : Handle) (f : PackFlags) :
    (w.finishPack h f).frame = w.frame := by
  unfold Work.finishPack; dsimp only; split <;> simp

@[simp] theorem Work.frame_shortVolume (w : Work) (k : WorkRec) : (w.shortVolume k).frame = w.frame := by
  unfold Work.shortVolume; dsimp only; split <;> simp

@[simp] theorem Work.frame_startVolume (w : Work) (k : WorkRec) : (w.startVolume k).frame = w.frame := by
  unfold Work.startVolume; dsimp only; (repeat' split) <;> simp

@[simp] theorem Work.frame_takeUp (n : Nat) (w : Work) : (Work.takeUp n w).frame = w.frame := by
  induction n generalizing w with
  | zero => rfl
  | succ n ih =>
    unfold Work.takeUp
    split
    · rfl
    · split <;> simp [ih]

@[simp] theorem Work.frame_staple (w : Work) : w.staple.frame = w.frame := by simp [Work.staple]

@[simp] theorem Work.frame_volumeDone (w : Work) (k : WorkRec) : (w.volumeDone k).frame = w.frame := by
  unfold Work.volumeDone; dsimp only; (repeat' split) <;> simp

@[simp] theorem Work.frame_volumeTimedOut (w : Work) (k : WorkRec) : (w.volumeTimedOut k).frame = w.frame := by
  simp only [Work.volumeTimedOut]; rfl

@[simp] theorem Work.frame_cutOffVolume (w : Work) : w.cutOffVolume.frame = w.frame := by
  unfold Work.cutOffVolume; split <;> rfl

@[simp] theorem Work.frame_reissueVolume (w : Work) : w.reissueVolume.frame = w.frame := by
  unfold Work.reissueVolume; (repeat' split) <;> first | rfl | simp

@[simp] theorem Work.frame_fitCartridge (w : Work) : w.fitCartridge.frame = w.frame := by
  unfold Work.fitCartridge; split <;> simp

@[simp] theorem Work.frame_beginDelivery (w : Work) (h : Handle) (p : PocketId) (b : BinId) :
    (w.beginDelivery h p b).frame = w.frame := by
  simp [Work.beginDelivery]

@[simp] theorem Work.frame_startDelivery (w : Work) : w.startDelivery.frame = w.frame := by
  unfold Work.startDelivery
  split
  · split
    · rfl
    · split <;> simp
  · rfl

@[simp] theorem Work.frame_dropDelivery (w : Work) : w.dropDelivery.frame = w.frame := by
  simp only [Work.dropDelivery]; rfl

@[simp] theorem Work.frame_completeDelivery (w : Work) (d : DeliveryRec) :
    (w.completeDelivery d).frame = w.frame := by
  unfold Work.completeDelivery; dsimp only; split <;> simp

@[simp] theorem Work.frame_loseDelivery (w : Work) (d : DeliveryRec) : (w.loseDelivery d).frame = w.frame := by
  simp [Work.loseDelivery]

@[simp] theorem Work.frame_deliveryTimedOut (w : Work) : w.deliveryTimedOut.frame = w.frame := by
  simp only [Work.deliveryTimedOut]; rfl

@[simp] theorem Work.frame_cutOffDelivery (w : Work) : w.cutOffDelivery.frame = w.frame := by
  unfold Work.cutOffDelivery; split <;> rfl

@[simp] theorem Work.frame_reissueDelivery (w : Work) : w.reissueDelivery.frame = w.frame := by
  unfold Work.reissueDelivery; split <;> (try split) <;> simp

@[simp] theorem Work.frame_judgeBinFull (w : Work) (b : State) : (w.judgeBinFull b).frame = w.frame := by
  unfold Work.judgeBinFull; split <;> rfl

@[simp] theorem Work.frame_driveLamp (w : Work) (b : BinId) : (w.driveLamp b).frame = w.frame := by
  unfold Work.driveLamp; dsimp only; split <;> simp

@[simp] theorem Work.frame_driveLamps (w : Work) : w.driveLamps.frame = w.frame := by simp [Work.driveLamps]

@[simp] theorem Work.frame_boundALast (w : Work) : w.boundALast.frame = w.frame := rfl

@[simp] theorem Work.frame_dropPick (w : Work) : w.dropPick.frame = w.frame := by
  unfold Work.dropPick; split <;> (try split) <;> simp

@[simp] theorem Work.frame_appendInFlight (w : Work) (f : FeedId) (h : Option Handle) (p g : Nat) (t : EntryTag) (d : Disposition) :
    (w.appendInFlight f h p g t d).frame = w.frame := by
  simp only [Work.appendInFlight]; rfl

@[simp] theorem Work.frame_pulse (w : Work) (f : FeedId) : (w.pulse f).frame = w.frame := by
  simp only [Work.pulse]; rfl

@[simp] theorem Work.frame_openPack (w : Work) (h : Handle) (p : PocketId) : (w.openPack h p).frame = w.frame := by
  unfold Work.openPack; dsimp only; split <;> simp

@[simp] theorem Work.frame_pageReleased (w : Work) (h : Handle) : (w.pageReleased h).frame = w.frame := by
  simp [Work.pageReleased]

@[simp] theorem Work.frame_releaseBare (w : Work) (f : FeedId) (t : EntryTag) (d : Disposition) :
    (w.releaseBare f t d).frame = w.frame := by
  simp [Work.releaseBare]

@[simp] theorem Work.frame_releaseHead (w : Work) (f : FeedId) (e : StagingEntry) (d : Disposition) :
    (w.releaseHead f e d).frame = w.frame := by
  simp [Work.releaseHead]

@[simp] theorem Work.frame_release (w : Work) (f : FeedId) : (w.release f).frame = w.frame := by
  unfold Work.release; split <;> simp

@[simp] theorem Work.frame_decideUpTo (n : Nat) (w : Work) : (Work.decideUpTo n w).frame = w.frame := by
  induction n generalizing w with
  | zero => rfl
  | succ n ih => unfold Work.decideUpTo; dsimp only; split <;> simp [ih]

@[simp] theorem Work.frame_decideReleases (w : Work) : w.decideReleases.frame = w.frame := by
  unfold Work.decideReleases; split <;> simp

@[simp] theorem Work.frame_timeWait (w : Work) (f : FeedId) : (w.timeWait f).frame = w.frame := by
  unfold Work.timeWait; dsimp only; split <;> split <;> simp

@[simp] theorem Work.frame_timeWaits (w : Work) : w.timeWaits.frame = w.frame := by simp [Work.timeWaits]

@[simp] theorem Work.frame_timeBlock (w : Work) : w.timeBlock.frame = w.frame := by simp only [Work.timeBlock]; rfl

@[simp] theorem Work.frame_setGate (w : Work) (g : Gate) : (w.setGate g).frame = w.frame := by
  simp only [Work.setGate]; rfl

@[simp] theorem Work.frame_dropHead (w : Work) : w.dropHead.frame = w.frame := by simp only [Work.dropHead]; rfl

@[simp] theorem Work.frame_faultFeed (w : Work) (f : FeedId) : (w.faultFeed f).frame = w.frame := by
  simp [Work.faultFeed]

@[simp] theorem Work.frame_requestFor (w : Work) (e : InFlight) (c : RestartCause) :
    (w.requestFor e c).frame = w.frame := by
  unfold Work.requestFor; split <;> simp

@[simp] theorem Work.frame_admitSheet (w : Work) (h : Handle) (p : PocketId) :
    (w.admitSheet h p).frame = w.frame := by
  unfold Work.admitSheet; dsimp only; (repeat' split) <;> simp

@[simp] theorem Work.frame_takeHead (w : Work) (e : InFlight) : (w.takeHead e).frame = w.frame := by
  unfold Work.takeHead; dsimp only; (repeat' split) <;> simp

@[simp] theorem Work.frame_matchArrival (w : Work) (t : Option TagNum) : (w.matchArrival t).frame = w.frame := by
  unfold Work.matchArrival; dsimp only; (repeat' split) <;> simp

@[simp] theorem Work.frame_breakDelivery (w : Work) (h : Handle) : (w.breakDelivery h).frame = w.frame := by
  simp [Work.breakDelivery]

@[simp] theorem Work.frame_breakBlock (w : Work) : w.breakBlock.frame = w.frame := by
  unfold Work.breakBlock; dsimp only; (repeat' split) <;> simp

@[simp] theorem Work.frame_halt (w : Work) (c : HaltCause) (t : ResumeTarget) : (w.halt c t).frame = w.frame := by
  simp [Work.halt]

@[simp] theorem Work.frame_requestHalt (w : Work) (c : HaltCause) : (w.requestHalt c).frame = w.frame := by
  unfold Work.requestHalt; split <;> (try split) <;> simp

@[simp] theorem Work.frame_takeStop (w : Work) : w.takeStop.frame = w.frame := by simp [Work.takeStop]

@[simp] theorem Work.frame_flushFeed (w : Work) (f : FeedId) : (w.flushFeed f).frame = w.frame := by
  simp [Work.flushFeed]

@[simp] theorem Work.frame_enterBypass (w : Work) : w.enterBypass.frame = w.frame := by simp [Work.enterBypass]

@[simp] theorem Work.frame_enterTarget (w : Work) (t : ResumeTarget) : (w.enterTarget t).frame = w.frame := by
  unfold Work.enterTarget; split <;> simp

@[simp] theorem Work.frame_leaveStarting (w : Work) (k : ResetKind) (b : Bool) :
    (w.leaveStarting k b).frame = w.frame := by
  unfold Work.leaveStarting; split <;> simp

@[simp] theorem Work.frame_endStartUp (w : Work) : w.endStartUp.frame = w.frame := by
  unfold Work.endStartUp; split <;> (try split) <;> simp

@[simp] theorem Work.frame_endStopping (w : Work) : w.endStopping.frame = w.frame := by
  unfold Work.endStopping; split <;> (try split) <;> simp

@[simp] theorem Work.frame_settle (w : Work) (b : State) : (w.settle b).frame = w.frame := by simp [Work.settle]

@[simp] theorem Work.frame_flushInFlight (w : Work) : w.flushInFlight.frame = w.frame := by
  simp [Work.flushInFlight]

@[simp] theorem Work.frame_resume (w : Work) (t : ResumeTarget) : (w.resume t).frame = w.frame := by
  simp [Work.resume]

end Sys2Proof.Machine
end

