-- ==== Sys2Proof/Laws/Link.lean ====
section
/-! SUPPORT. The end of a step (`Work.finish`) and the handling of a record (`State.takeRecord`): what each changes, what
each leaves, and that the Result formed is queued. -/

namespace Sys2Proof.Machine

/-! ### Queueing -/

theorem State.sameWork.refl (s : State) : s.sameWork s := rfl

theorem State.sameWork.trans {s t u : State} (h : s.sameWork t) (k : t.sameWork u) : s.sameWork u := by
  unfold State.sameWork at *
  rw [h] at k
  exact k

/-- The Link Port has only queued records for the reply line, in order, and keeps its bounds. -/
structure LinkPort.Queues (l m : LinkPort) : Prop where
  receiver : m.receiver = l.receiver
  inbound : m.inbound = l.inbound
  hold : m.hold = l.hold
  pacing : m.pacing = l.pacing
  loopback : m.loopback = l.loopback
  echoes : m.echoes = l.echoes
  line : m.line = l.line
  boundaries : m.boundaries = l.boundaries
  order : ∃ new, m.outbound ++ m.held = l.outbound ++ l.held ++ new

theorem LinkPort.Queues.refl (l : LinkPort) : l.Queues l := ⟨rfl, rfl, rfl, rfl, rfl, rfl, rfl, rfl, [], by simp⟩

theorem LinkPort.Queues.trans {l m n : LinkPort} (h : l.Queues m) (k : m.Queues n) : l.Queues n := by
  obtain ⟨x, hx⟩ := h.order
  obtain ⟨y, hy⟩ := k.order
  exact ⟨k.receiver.trans h.receiver, k.inbound.trans h.inbound, k.hold.trans h.hold, k.pacing.trans h.pacing,
    k.loopback.trans h.loopback, k.echoes.trans h.echoes, k.line.trans h.line, k.boundaries.trans h.boundaries, x ++ y, by rw [hy, hx, List.append_assoc]⟩

theorem LinkPort.keep_queues (l : LinkPort) (r : OutRecord) : l.Queues (l.keep r) := by
  unfold LinkPort.keep
  split
  · rename_i h
    have : l.held = [] := by simpa using (Bool.and_eq_true_iff.1 h).2
    exact ⟨rfl, rfl, rfl, rfl, rfl, rfl, rfl, rfl, [r], by simp [this]⟩
  · exact ⟨rfl, rfl, rfl, rfl, rfl, rfl, rfl, rfl, [r], by simp⟩

/-- A kept record is queued behind all that was queued. -/
theorem LinkPort.keep_order (l : LinkPort) (r : OutRecord) :
    (l.keep r).outbound ++ (l.keep r).held = l.outbound ++ l.held ++ [r] := by
  unfold LinkPort.keep
  split
  · rename_i h
    have : l.held = [] := by simpa using (Bool.and_eq_true_iff.1 h).2
    simp [this]
  · simp

theorem LinkPort.boundary_queues (l : LinkPort) : l.Queues l.boundary := by
  unfold LinkPort.boundary
  split <;> exact ⟨rfl, rfl, rfl, rfl, rfl, rfl, rfl, rfl, [], by simp⟩

/-- A part of the end of a step: the work stands, latches are only set, records are only queued. -/
structure Work.Ends (w v : Work) : Prop where
  work : w.toState.sameWork v.toState
  queues : w.link.Queues v.link
  latched : ∀ c, w.latched c = true → v.latched c = true
  only : ∀ c, v.latched c = true → w.latched c = true ∨ c = .noticeOverflow
  rest : v.reply = w.reply ∧ v.drains = w.drains ∧ v.report = w.report ∧ v.notices = w.notices

theorem Work.Ends.refl (w : Work) : w.Ends w :=
  ⟨rfl, .refl _, fun _ => id, fun _ => .inl, rfl, rfl, rfl, rfl⟩

theorem Work.Ends.trans {u v w : Work} (h : u.Ends v) (k : v.Ends w) : u.Ends w :=
  ⟨h.work.trans k.work, h.queues.trans k.queues, fun c x => k.latched c (h.latched c x),
    fun c x => (k.only c x).elim (h.only c) .inr, k.rest.1.trans h.rest.1, k.rest.2.1.trans h.rest.2.1,
    k.rest.2.2.1.trans h.rest.2.2.1, k.rest.2.2.2.trans h.rest.2.2.2⟩

/-- A latch after another is set. -/
theorem Work.latched_latch (w : Work) (c d : Cause) :
    (w.latch c).latched d = (decide (causeIndex c = causeIndex d) || w.latched d) := by
  simp only [State.latched, Work.latch_attn, Fin.getElem_fin, Vector.getElem_set, Fin.val_inj]
  split <;> simp [*]

theorem causeIndex_injective {c d : Cause} (h : causeIndex c = causeIndex d) : c = d := by
  revert h; cases c <;> cases d <;> decide

theorem Work.sendNotice_ends (w : Work) (r : OutRecord) : w.Ends (w.sendNotice r) := by
  unfold Work.sendNotice
  split
  · rename_i h
    have : w.link.held = [] := by
      have := (Bool.and_eq_true_iff.1 h).1
      simpa using (Bool.and_eq_true_iff.1 this).2
    exact ⟨rfl, ⟨rfl, rfl, rfl, rfl, rfl, rfl, rfl, rfl, [r], by simp [this]⟩, fun _ => id, fun _ => .inl, rfl, rfl, rfl, rfl⟩
  · refine ⟨rfl, .refl _, fun c h => by simp [Work.latched_latch, h], fun c h => ?_, rfl, rfl, rfl, rfl⟩
    simp only [Work.latched_latch, Bool.or_eq_true, decide_eq_true_eq] at h
    exact h.elim (fun x => .inr (causeIndex_injective x).symm) .inl

theorem Work.foldNotices_ends (l : List OutRecord) (w : Work) : w.Ends (l.foldl Work.sendNotice w) := by
  induction l generalizing w with
  | nil => exact .refl w
  | cons r l ih => exact (w.sendNotice_ends r).trans (ih _)

theorem Work.sendNotices_ends (w : Work) : w.Ends w.sendNotices := Work.foldNotices_ends _ w

theorem Work.setOutput_ends (w : Work) (b : Bool) : w.Ends (w.setOutput b) :=
  ⟨rfl, .refl _, fun _ => id, fun _ => .inl, rfl, rfl, rfl, rfl⟩

theorem Work.judgeAttention_ends (w : Work) : w.Ends w.judgeAttention := by
  unfold Work.judgeAttention
  split
  · exact (w.setOutput_ends _).trans (Work.sendNotice_ends _ _)
  · exact w.setOutput_ends _

theorem Work.keepOpt_ends (w : Work) (r : Option OutRecord) : w.Ends (w.keepOpt r) := by
  cases r with
  | none => exact .refl w
  | some r => exact ⟨rfl, LinkPort.keep_queues _ _, fun _ => id, fun _ => .inl, rfl, rfl, rfl, rfl⟩

theorem Work.foldDrains_ends (l : List Byte) (w : Work) :
    w.Ends (l.foldl (fun x id => x.keepOpt (some (.drainComplete id))) w) := by
  induction l generalizing w with
  | nil => exact .refl w
  | cons r l ih => exact (w.keepOpt_ends _).trans (ih _)

theorem Work.keepDrains_ends (w : Work) : w.Ends w.keepDrains := Work.foldDrains_ends _ w

theorem Work.queued_ends (w : Work) : w.Ends w.queued :=
  (((w.sendNotices_ends.trans (Work.judgeAttention_ends _)).trans (Work.keepOpt_ends _ _)).trans
    (Work.keepDrains_ends _)).trans (Work.keepOpt_ends _ _)

/-- The end of a step leaves the work alone. -/
theorem Work.finish_sameWork (w : Work) : w.toState.sameWork w.finish :=
  State.sameWork.trans w.queued_ends.work (u := w.finish) rfl

/-- The end of a step queues records behind those queued, and leaves the rest of the Link Port alone. -/
theorem Work.finish_queues (w : Work) : w.link.Queues w.finish.link :=
  w.queued_ends.queues.trans (LinkPort.boundary_queues _)

/-- The end of a step clears no latch. -/
theorem Work.finish_latched (w : Work) (c : Cause) (h : w.latched c = true) : w.finish.latched c = true :=
  w.queued_ends.latched c h

/-- The end of a step sets no latch but NOTICE_OVERFLOW. -/
theorem Work.finish_latched_only (w : Work) (c : Cause) (h : w.finish.latched c = true) :
    w.latched c = true ∨ c = .noticeOverflow := w.queued_ends.only c h

/-! ### The ATTENTION output -/

theorem Work.sendNotice_follows (w : Work) (r : OutRecord) (hd : w.attentionDue = true) (ho : w.attn.output = true) :
    (w.sendNotice r).attentionFollows := by
  have hs := w.sendNotice_ends r
  have h1 : (w.sendNotice r).attn.output = true := by unfold Work.sendNotice; split <;> exact ho
  have h2 : (w.sendNotice r).tables = w.tables := by unfold Work.sendNotice; split <;> rfl
  simp only [State.attentionFollows, h1, State.attentionDue, List.any_eq_true, Bool.and_eq_true] at hd ⊢
  symm
  obtain ⟨c, hc, hl, hm⟩ := hd
  exact List.any_eq_true.2 ⟨c, hc, by simpa [hs.latched c hl, State.masked, h2] using hm⟩

theorem Work.judgeAttention_follows (w : Work) : w.judgeAttention.attentionFollows := by
  unfold Work.judgeAttention
  split
  · rename_i h
    exact Work.sendNotice_follows _ _ (Bool.and_eq_true_iff.1 h).1 rfl
  · rfl

theorem Work.keepOpt_follows {w : Work} (h : w.attentionFollows) (r : Option OutRecord) :
    (w.keepOpt r).attentionFollows := by
  cases r <;> exact h

theorem Work.foldDrains_follows (l : List Byte) {w : Work} (h : w.attentionFollows) :
    (l.foldl (fun x id => x.keepOpt (some (.drainComplete id))) w).attentionFollows := by
  induction l generalizing w with
  | nil => exact h
  | cons r l ih => exact ih (Work.keepOpt_follows h _)

/-- After a step the ATTENTION output follows the latches and masks (R179). -/
theorem Work.finish_follows (w : Work) : w.finish.attentionFollows :=
  Work.keepOpt_follows (w := (_ : Work).keepDrains)
    (Work.foldDrains_follows _ (Work.keepOpt_follows (Work.judgeAttention_follows _) _)) _

/-! ### The Result -/

theorem Work.keepDrains_told (w : Work) : ∃ new, w.keepDrains.told = w.told ++ new := w.keepDrains_ends.queues.order

/-- The Result a step formed stands among the records queued when it ends. -/
theorem Work.finish_reply (w : Work) {r : Reply} (h : w.reply = some r) : r.record ∈ w.finish.told := by
  have h0 := w.sendNotices_ends.trans (Work.judgeAttention_ends _)
  obtain ⟨x, hx⟩ := (Work.keepDrains_ends (w.sendNotices.judgeAttention.keepOpt (some r.record))).queues.order
  obtain ⟨y, hy⟩ := (Work.keepOpt_ends
    (w.sendNotices.judgeAttention.keepOpt (some r.record)).keepDrains (w.report.map Report.record)).queues.order
  obtain ⟨z, hz⟩ := (LinkPort.boundary_queues w.queued.link).order
  have hq : w.queued.link.outbound ++ w.queued.link.held
      = (w.sendNotices.judgeAttention.keepOpt (some r.record)).link.outbound
        ++ (w.sendNotices.judgeAttention.keepOpt (some r.record)).link.held ++ x ++ y := by
    rw [← hx, ← hy, Work.queued, h, Option.map_some]
  have hk := LinkPort.keep_order w.sendNotices.judgeAttention.link r.record
  show r.record ∈ w.queued.link.boundary.outbound ++ w.queued.link.boundary.held
  rw [hz, hq]
  simp only [Work.keepOpt, hk]
  simp

/-! ### Handling a record (R167, R171, R175) -/

/-- A record taken from the head of the inbound queue. -/
theorem State.takeRecord_head {s : State} {r : Record} (body : Work → Work) (hh : s.link.inbound.head? = some r)
    (hr : s.handlerReady = true) : s.takeRecord r body = (handleRecord r body (Work.of s.dequeue)).finish := by
  simp [State.takeRecord, hh, hr]

/-- A record left at the head while the Record Handler may take none. -/
theorem State.takeRecord_waits {s : State} {r : Record} (body : Work → Work) (hh : s.link.inbound.head? = some r)
    (hr : s.handlerReady = false) : s.takeRecord r body = s := by
  simp [State.takeRecord, hh, hr]

/-- A record completed while nothing is ahead of it and the handler may take it. -/
theorem State.takeRecord_fresh {s : State} {r : Record} (body : Work → Work) (hi : s.link.inbound = [])
    (hr : s.handlerReady = true) : s.takeRecord r body = (handleRecord r body (Work.of (s.completed r))).finish := by
  simp [State.takeRecord, hi, hr]

/-- A record completed that must wait joins the inbound queue, or is dropped. -/
theorem State.takeRecord_joins {s : State} {r : Record} (body : Work → Work) (hh : s.link.inbound.head? ≠ some r)
    (hr : s.link.inbound ≠ [] ∨ s.handlerReady = false) :
    s.takeRecord r body = ((Work.of (s.completed r)).offer r).finish := by
  rcases hr with hr | hr <;> simp [State.takeRecord, hh, hr]

/-- Whatever becomes of a record: it is handled, left, or offered to the inbound queue. -/
theorem State.takeRecord_cases (s : State) (r : Record) (body : Work → Work) :
    s.takeRecord r body = (handleRecord r body (Work.of s.dequeue)).finish ∨ s.takeRecord r body = s
      ∨ s.takeRecord r body = (handleRecord r body (Work.of (s.completed r))).finish
      ∨ s.takeRecord r body = ((Work.of (s.completed r)).offer r).finish := by
  unfold State.takeRecord
  split
  · split
    · exact .inl rfl
    · exact .inr (.inl rfl)
  · split
    · exact .inr (.inr (.inl rfl))
    · exact .inr (.inr (.inr rfl))

/-- A record taken is handled on the state from which it has been taken (`State.taken`). -/
theorem State.takeRecord_taken {s : State} {r : Record} (body : Work → Work) (h : s.takes r) :
    s.takeRecord r body = (handleRecord r body (Work.of (s.taken r))).finish := by
  obtain ⟨hr, hh | hi⟩ := h
  · rw [State.takeRecord_head body hh hr, State.taken, if_pos hh]
  · rw [State.takeRecord_fresh body hi hr, State.taken, if_neg (by simp [hi])]

/-- A record addressed to this station outside loopback is handled by its block. -/
theorem handleRecord_own {r : Record} (body : Work → Work) {w : Work} (hb : r.bcast = false)
    (hl : w.link.loopback = false) : handleRecord r body w = body w := by
  simp [handleRecord, hb, hl]

/-! ### Characters (R164) -/

/-- A character sent is sound as it is received, and carries what was sent. -/
theorem frameOf_sound (c : LineChar) : frameSound (frameOf c) = true ∧ charOf (frameOf c) = c := by
  obtain ⟨m, d⟩ := c
  revert m d
  decide +kernel

end Sys2Proof.Machine
end

