-- ==== Sys2Proof/Laws/Settle.lean ====
section
/-! SUPPORT. What follows a step's own effect (`Work.settle`) while the run state is not STARTING: it builds, staples,
delivers and releases, but restarts, frees and admits nothing (`Settles`). One lemma per operation of the settling. -/

namespace Sys2Proof.Machine

/-! ### The shapes of the setters -/

theorem Work.touch_shape (w : Work) (e : EntryRef) : ∃ m, w.touch e = { w with tables := { w.tables with mark := m } } := by
  unfold Work.touch
  split
  · exact ⟨none, rfl⟩
  · exact ⟨w.tables.mark, rfl⟩

theorem Work.touchIf_shape (w : Work) (b : Bool) (e : EntryRef) :
    ∃ m, w.touchIf b e = { w with tables := { w.tables with mark := m } } := by
  unfold Work.touchIf
  split
  · exact w.touch_shape e
  · exact ⟨w.tables.mark, rfl⟩

theorem Work.setFeed_shape (w : Work) (f : FeedId) (r : FeedRec) : ∃ m o, w.setFeed f r =
    { w with feeds := w.feeds.set f r, tables := { w.tables with mark := m }, occasion := o } := by
  unfold Work.setFeed
  dsimp only [Work.occasionIf]
  obtain ⟨m, h⟩ := Work.touchIf_shape
    { w with feeds := w.feeds.set f r, occasion := w.occasion || (decide (r.queue.head? ≠ w.feeds[f].queue.head?)
      || decide (r.shelf ≠ w.feeds[f].shelf) || decide (r.discard ≠ w.feeds[f].discard)
      || decide (r.state ≠ w.feeds[f].state)) }
    (decide (r.queue.length ≠ w.feeds[f].queue.length) || decide (r.state ≠ w.feeds[f].state)) (.feed f)
  exact ⟨m, _, h⟩

theorem Work.setPocket_shape (w : Work) (p : PocketId) (r : PocketRec) : ∃ m o, w.setPocket p r =
    { w with pockets := w.pockets.set p r, tables := { w.tables with mark := m }, occasion := o } := by
  unfold Work.setPocket
  dsimp only [Work.occasionIf]
  obtain ⟨m, h⟩ := Work.touchIf_shape
    { w with pockets := w.pockets.set p r, occasion := w.occasion || ((decide (r.state = .empty)
      && decide (w.pockets[p].state ≠ .empty))
      || (decide (r.state = .outOfService) != decide (w.pockets[p].state = .outOfService))) }
    (r.shownDiffers w.pockets[p]) (.pocket p)
  exact ⟨m, _, h⟩

theorem Work.setPack_shape (w : Work) (k : Handle) (r : PackRec) : ∃ m o, w.setPack k r =
    { w with reg := { w.reg with packs := Sparse.put PackRec.cleared w.reg.packs k r }
             tables := { w.tables with mark := m }, occasion := o } := by
  unfold Work.setPack
  dsimp only [Work.occasionIf]
  obtain ⟨m1, h1⟩ := Work.touchIf_shape
    { w with reg := { w.reg with packs := Sparse.put PackRec.cleared w.reg.packs k r }
             occasion := w.occasion || (decide (r.state ≠ (w.pack k).state)
               || decide (r.gen ≠ (w.pack k).gen) || (r.flags.outOfTurn && !(w.pack k).flags.outOfTurn)) } (decide (r ≠ w.pack k)) (.pack k)
  rw [h1]
  obtain ⟨m2, h2⟩ := Work.touchIf_shape
    { w with reg := { w.reg with packs := Sparse.put PackRec.cleared w.reg.packs k r }
             tables := { w.tables with mark := m1 }
             occasion := w.occasion || (decide (r.state ≠ (w.pack k).state)
               || decide (r.gen ≠ (w.pack k).gen) || (r.flags.outOfTurn && !(w.pack k).flags.outOfTurn)) }
    (decide ((w.pack k).state = .free) && !decide (r.state = .free)) (.job r.job)
  rw [h2]
  obtain ⟨m3, h3⟩ := Work.touchIf_shape
    { w with reg := { w.reg with packs := Sparse.put PackRec.cleared w.reg.packs k r }
             tables := { w.tables with mark := m2 }
             occasion := w.occasion || (decide (r.state ≠ (w.pack k).state)
               || decide (r.gen ≠ (w.pack k).gen) || (r.flags.outOfTurn && !(w.pack k).flags.outOfTurn)) }
    (!decide ((w.pack k).state = .free) && decide (r.state = .free)) (.job (w.pack k).job)
  rw [h3]
  exact ⟨m3, _, rfl⟩

/-! ### The relation -/

/-- The states of a pack that the settling cannot leave. -/
def PackState.fixedInSettling : PackState → Bool
  | .free => true
  | .delivering => true
  | .restarting => true
  | .disposing => true
  | .announced => false
  | .opened => false
  | .complete => false
  | .stapling => false
  | .ready => false

/-- What the settling may do to a feed record: at most one release, which takes its head and leaves it CLEARING, or
cancels its pending discard; its wait may start or stop. -/
def FeedRec.Settles (r r' : FeedRec) : Prop :=
  r'.state = r.state
    ∧ ((r'.queue = r.queue ∧ r'.shelf = r.shelf ∧ r'.discard = r.discard)
      ∨ (r.shelf = .present ∧ r'.shelf = .clearing ∧ r'.discard = false
        ∧ (r'.queue = r.queue ∨ r'.queue = r.queue.tail)))

theorem FeedRec.Settles.trans {a b c : FeedRec} (h : a.Settles b) (k : b.Settles c) : a.Settles c := by
  obtain ⟨h0, h⟩ := h
  obtain ⟨k0, k⟩ := k
  refine ⟨k0.trans h0, ?_⟩
  rcases h with ⟨a1, a2, a3⟩ | ⟨a1, a2, a3, a4⟩ <;> rcases k with ⟨b1, b2, b3⟩ | ⟨b1, b2, b3, b4⟩
  · exact .inl ⟨b1.trans a1, b2.trans a2, b3.trans a3⟩
  · exact .inr ⟨a2 ▸ b1, b2, b3, by rw [← a1]; exact b4⟩
  · exact .inr ⟨a1, b2.trans a2, b3.trans a3, by rw [b1]; exact a4⟩
  · rw [a2] at b1; cases b1

/-- `w'` follows from `w` by operations of the settling. -/
structure Settles (w w' : Work) : Prop where
  queues : w'.reg.queues = w.reg.queues
  markers : w'.reg.markers = w.reg.markers
  serial : w'.reg.serial = w.reg.serial
  drains : w'.drains = w.drains
  report : w'.report = w.report
  fixed : ∀ h, (w'.pack h).fixed = (w.pack h).fixed ∧ (w'.pack h).gen = (w.pack h).gen
    ∧ (w'.pack h).received = (w.pack h).received
  stands : ∀ h, h ∉ w.stapler.queue → (w.pack h).state.fixedInSettling = true → w'.pack h = w.pack h
  ready : ∀ h, h ∉ w.stapler.queue → (w.pack h).state = .ready →
    (w'.pack h).state = .ready ∨ (w'.pack h).state = .delivering
  opened : ∀ h, h ∉ w.stapler.queue → (w.pack h).state = .opened → (w'.pack h).state = .opened
  waits : ∀ h, h ∉ w.stapler.queue → (w.pack h).state = .announced →
    w'.pack h = w.pack h ∨ ((w'.pack h).state = .opened ∧ w.run.state = .run)
  turn : ∀ h, (w.pack h).flags.outOfTurn = true → (w'.pack h).flags.outOfTurn = true
  named : ∀ p : PocketId, w.pockets[p].state ≠ .empty → ∀ h, (w'.pack h).pocket = some p → (w.pack h).pocket = some p
  pockets : ∀ p : PocketId, w.pockets[p].state ≠ .empty → w'.pockets[p].state ≠ .empty
    ∧ w'.pockets[p].sheets = w.pockets[p].sheets ∧ w'.pockets[p].thickness = w.pockets[p].thickness
    ∧ w'.pockets[p].pack = w.pockets[p].pack
  unnamed : ∀ p : PocketId, w.pockets[p].state ≠ .empty → w.pockets[p].state ≠ .purging →
    (∀ h, (w.pack h).pocket ≠ some p) → w'.pockets[p] = w.pockets[p]
  stapleQueue : ∀ h, h ∈ w'.stapler.queue → h ∈ w.stapler.queue
  feeds : ∀ f : FeedId, w.feeds[f].Settles w'.feeds[f]
  bins : ∀ b : BinId, w'.ret.bins[b].unlit = w.ret.bins[b].unlit
  returnBusy : w.ret.state ≠ .idle →
    w'.ret.state = w.ret.state ∧ w'.ret.delivery = w.ret.delivery ∧ w'.ret.command = w.ret.command
  returnSound : w.ret.state ≠ .faulted → w'.ret.state ≠ .faulted
  staplerBusy : w.stapler.state ≠ .idle → w'.stapler = w.stapler
  staplerSound : w.stapler.state ≠ .faulted → w'.stapler.state ≠ .faulted
  remaining : w'.stapler.remaining ≤ w.stapler.remaining
  run : w'.run.state = w.run.state ∨ ((∃ o, w.run.state = .stopping o) ∧ w'.run.state = .standby)
  gate : w'.arb.gate = w.arb.gate
  inFlight : w.arb.inFlight <+: w'.arb.inFlight

theorem Settles.refl (w : Work) : Settles w w where
  queues := rfl
  markers := rfl
  serial := rfl
  drains := rfl
  report := rfl
  fixed _ := ⟨rfl, rfl, rfl⟩
  stands _ _ _ := rfl
  ready _ _ := .inl
  opened _ _ := id
  waits _ _ _ := .inl rfl
  turn _ := id
  named _ _ _ := id
  pockets _ h := ⟨h, rfl, rfl, rfl⟩
  unnamed _ _ _ _ := rfl
  stapleQueue _ := id
  feeds _ := ⟨rfl, .inl ⟨rfl, rfl, rfl⟩⟩
  bins _ := rfl
  returnBusy _ := ⟨rfl, rfl, rfl⟩
  returnSound := id
  staplerBusy _ := rfl
  staplerSound := id
  remaining := le_rfl
  run := .inl rfl
  gate := rfl
  inFlight := List.prefix_refl _

theorem Settles.trans {a b c : Work} (h : Settles a b) (k : Settles b c) : Settles a c where
  queues := k.queues.trans h.queues
  markers := k.markers.trans h.markers
  serial := k.serial.trans h.serial
  drains := k.drains.trans h.drains
  report := k.report.trans h.report
  fixed x := ⟨(k.fixed x).1.trans (h.fixed x).1, (k.fixed x).2.1.trans (h.fixed x).2.1,
    (k.fixed x).2.2.trans (h.fixed x).2.2⟩
  stands x hq hs := by
    have h1 := h.stands x hq hs
    rw [k.stands x (fun hb => hq (h.stapleQueue x hb)) (by rw [h1]; exact hs), h1]
  ready x hq hr := by
    have hq' : x ∉ b.stapler.queue := fun hb => hq (h.stapleQueue x hb)
    rcases h.ready x hq hr with h1 | h1
    · exact k.ready x hq' h1
    · rw [k.stands x hq' (by rw [h1]; rfl)]; exact .inr h1
  opened x hq hr := k.opened x (fun hb => hq (h.stapleQueue x hb)) (h.opened x hq hr)
  waits x hq hr := by
    have hq' : x ∉ b.stapler.queue := fun hb => hq (h.stapleQueue x hb)
    rcases h.waits x hq hr with h1 | ⟨h1, h2⟩
    · rcases k.waits x hq' (by rw [h1]; exact hr) with k1 | ⟨k1, k2⟩
      · exact .inl (k1.trans h1)
      · refine .inr ⟨k1, ?_⟩
        rcases h.run with h2 | ⟨_, h2⟩
        · rw [← h2]; exact k2
        · rw [h2] at k2; cases k2
    · exact .inr ⟨k.opened x hq' h1, h2⟩
  turn x := k.turn x ∘ h.turn x
  named p hp x hx := h.named p hp x (k.named p (h.pockets p hp).1 x hx)
  pockets p hp := by
    obtain ⟨a0, a1, a2, a3⟩ := h.pockets p hp
    obtain ⟨b0, b1, b2, b3⟩ := k.pockets p a0
    exact ⟨b0, b1.trans a1, b2.trans a2, b3.trans a3⟩
  unnamed p hp hu hn := by
    have h1 := h.unnamed p hp hu hn
    have h2 := k.unnamed p (by rw [h1]; exact hp) (by rw [h1]; exact hu)
      (fun x hx => hn x (h.named p hp x hx))
    exact h2.trans h1
  stapleQueue x hx := h.stapleQueue x (k.stapleQueue x hx)
  feeds f := (h.feeds f).trans (k.feeds f)
  bins x := (k.bins x).trans (h.bins x)
  returnBusy hb := by
    obtain ⟨a1, a2, a3⟩ := h.returnBusy hb
    obtain ⟨b1, b2, b3⟩ := k.returnBusy (by rw [a1]; exact hb)
    exact ⟨b1.trans a1, b2.trans a2, b3.trans a3⟩
  returnSound := k.returnSound ∘ h.returnSound
  staplerBusy hb := by
    have h1 := h.staplerBusy hb
    rw [k.staplerBusy (by rw [h1]; exact hb), h1]
  staplerSound := k.staplerSound ∘ h.staplerSound
  remaining := k.remaining.trans h.remaining
  run := by
    rcases h.run with h1 | ⟨h1, h2⟩ <;> rcases k.run with k1 | ⟨⟨o, k1⟩, k2⟩
    · exact .inl (k1.trans h1)
    · exact .inr ⟨⟨o, h1 ▸ k1⟩, k2⟩
    · exact .inr ⟨h1, k1.trans h2⟩
    · rw [h2] at k1; cases k1
  gate := k.gate.trans h.gate
  inFlight := h.inFlight.trans k.inFlight

variable {a w : Work}

/-- A change that leaves the packs, feeds, bins, stapler, deliveries and releases alone. -/
theorem Settles.same (h : Settles a w) {w' : Work} (hr : w'.reg = w.reg) (hd : w'.drains = w.drains)
    (hp : w'.report = w.report) (hs : w'.stapler = w.stapler) (hf : w'.feeds = w.feeds) (ht : w'.ret = w.ret)
    (hn : w'.run.state = w.run.state) (hg : w'.arb.gate = w.arb.gate) (hi : w'.arb.inFlight = w.arb.inFlight)
    (hk : w'.pockets = w.pockets) : Settles a w' := by
  refine h.trans ?_
  have hpk : ∀ x, w'.pack x = w.pack x := fun x => by simp only [State.pack, hr]
  exact {
    queues := by rw [hr]
    markers := by rw [hr]
    serial := by rw [hr]
    drains := hd
    report := hp
    fixed := fun x => by rw [hpk x]; exact ⟨rfl, rfl, rfl⟩
    stands := fun x _ _ => hpk x
    ready := fun x _ hx => .inl (by rw [hpk x]; exact hx)
    opened := fun x _ hx => by rw [hpk x]; exact hx
    waits := fun x _ _ => .inl (hpk x)
    turn := fun x hx => by rw [hpk x]; exact hx
    named := fun p _ x hx => by rw [← hpk x]; exact hx
    pockets := fun p hp => by rw [hk]; exact ⟨hp, rfl, rfl, rfl⟩
    unnamed := fun p _ _ _ => by rw [hk]
    stapleQueue := fun x hx => by rw [← hs]; exact hx
    feeds := fun f => by rw [hf]; exact ⟨rfl, .inl ⟨rfl, rfl, rfl⟩⟩
    bins := fun b => by rw [ht]
    returnBusy := fun _ => by rw [ht]; exact ⟨rfl, rfl, rfl⟩
    returnSound := by rw [ht]; exact id
    staplerBusy := fun _ => hs
    staplerSound := by rw [hs]; exact id
    remaining := by rw [hs]
    run := .inl hn
    gate := hg
    inFlight := by rw [hi] }

theorem Settles.latch (h : Settles a w) (c : Cause) : Settles a (w.latch c) := h.same rfl rfl rfl rfl rfl rfl rfl rfl rfl rfl
theorem Settles.notify (h : Settles a w) (r : OutRecord) : Settles a (w.notify r) :=
  h.same rfl rfl rfl rfl rfl rfl rfl rfl rfl rfl
theorem Settles.pulse (h : Settles a w) (f : FeedId) : Settles a (w.pulse f) := h.same rfl rfl rfl rfl rfl rfl rfl rfl rfl rfl
theorem Settles.restartTimer (h : Settles a w) : Settles a w.restartTimer := h.same rfl rfl rfl rfl rfl rfl rfl rfl rfl rfl

/-- A pocket that is not EMPTY keeps its counts and its pack and does not go EMPTY; one that no pack names and no purge
awaits is left alone. -/
theorem Settles.setPocket (h : Settles a w) (p : PocketId) (r : PocketRec)
    (hr : w.pockets[p].state = .empty ∨ (r.state ≠ .empty ∧ r.sheets = w.pockets[p].sheets
      ∧ r.thickness = w.pockets[p].thickness ∧ r.pack = w.pockets[p].pack))
    (hn : w.pockets[p].state = .empty ∨ w.pockets[p].state = .purging ∨ ∃ x, (w.pack x).pocket = some p) :
    Settles a (w.setPocket p r) := by
  refine h.trans ?_
  obtain ⟨m, o, e⟩ := w.setPocket_shape p r
  rw [e]
  refine { Settles.refl w with pockets := fun q hq => ?_, unnamed := fun q h1 h2 h3 => ?_ }
  · simp only [Fin.getElem_fin, Vector.getElem_set]
    split
    · rename_i hx
      have : p = q := Fin.ext hx
      subst this
      exact hr.resolve_left hq
    · exact ⟨hq, rfl, rfl, rfl⟩
  · simp only [Fin.getElem_fin, Vector.getElem_set]
    split
    · rename_i hx
      have : p = q := Fin.ext hx
      subst this
      rcases hn with hn | hn | ⟨x, hn⟩
      · exact absurd hn h1
      · exact absurd hn h2
      · exact absurd hn (h3 x)
    · rfl

/-- The arbiter's record changes but for the gate and what is in flight already. -/
theorem Settles.setArb (h : Settles a w) (r : MergeArbiter) (hg : r.gate = w.arb.gate)
    (hi : w.arb.inFlight <+: r.inFlight) : Settles a (w.setArb r) :=
  h.trans { Settles.refl w with gate := hg, inFlight := hi }

theorem Settles.setPack (h : Settles a w) (k : Handle) (r : PackRec) (hf : r.fixed = (w.pack k).fixed)
    (hg : r.gen = (w.pack k).gen) (hr : r.received = (w.pack k).received)
    (hs : k ∈ a.stapler.queue ∨ ((w.pack k).state.fixedInSettling = false
      ∧ ((w.pack k).state = .ready → r.state = .ready ∨ r.state = .delivering)
      ∧ ((w.pack k).state = .opened → r.state = .opened)
      ∧ ((w.pack k).state = .announced → r.state = .opened ∧ w.run.state = .run)))
    (ht : (w.pack k).flags.outOfTurn = true → r.flags.outOfTurn = true)
    (hp : r.pocket = (w.pack k).pocket ∨ ∃ p, r.pocket = some p ∧ a.pockets[p].state = .empty) :
    Settles a (w.setPack k r) := by
  have hk := w.pack_setPack_self k r
  have hn := fun (j : Handle) (hj : j ≠ k) => w.pack_setPack_ne (k := k) (j := j) r hj
  obtain ⟨m, o, e⟩ := w.setPack_shape k r
  rw [e] at hk hn ⊢
  refine { h with fixed := fun x => ?_, stands := fun x hq hx => ?_, ready := fun x hq hx => ?_
                  opened := fun x hq hx => ?_, waits := fun x hq hx => ?_, turn := fun x hx => ?_
                  named := fun p hx x hy => ?_ }
  · by_cases hx : x = k
    · subst hx
      rw [hk]
      exact ⟨hf.trans (h.fixed x).1, hg.trans (h.fixed x).2.1, hr.trans (h.fixed x).2.2⟩
    · rw [hn x hx]
      exact h.fixed x
  · have h1 := h.stands x hq hx
    by_cases hxk : x = k
    · subst hxk
      rcases hs with h2 | h2
      · exact absurd h2 hq
      · rw [h1, hx] at h2; cases h2.1
    · rw [hn x hxk]
      exact h1
  · have h1 := h.ready x hq hx
    by_cases hxk : x = k
    · subst hxk
      rcases hs with h2 | ⟨h2, h3, _⟩
      · exact absurd h2 hq
      · rw [hk]
        rcases h1 with h1 | h1
        · exact h3 h1
        · rw [h1] at h2; cases h2
    · rw [hn x hxk]; exact h1
  · have h1 := h.opened x hq hx
    by_cases hxk : x = k
    · subst hxk
      rcases hs with h2 | ⟨_, _, h3, _⟩
      · exact absurd h2 hq
      · rw [hk]; exact h3 h1
    · rw [hn x hxk]; exact h1
  · have h1 := h.waits x hq hx
    by_cases hxk : x = k
    · subst hxk
      rcases hs with h2 | ⟨_, _, h3, h4⟩
      · exact absurd h2 hq
      · rw [hk]
        rcases h1 with h1 | ⟨h1, h5⟩
        · have h6 := h4 (by rw [h1]; exact hx)
          refine .inr ⟨h6.1, ?_⟩
          rcases h.run with h7 | ⟨_, h7⟩
          · rw [← h7]; exact h6.2
          · rw [h7] at h6; cases h6.2
        · exact .inr ⟨h3 h1, h5⟩
    · rw [hn x hxk]; exact h1
  · have h1 := h.turn x hx
    by_cases hxk : x = k
    · subst hxk; rw [hk]; exact ht h1
    · rw [hn x hxk]; exact h1
  · by_cases hxk : x = k
    · subst hxk
      rw [hk] at hy
      rcases hp with h2 | ⟨q, h2, h3⟩
      · exact h.named p hx x (h2 ▸ hy)
      · rw [h2] at hy; cases hy; exact absurd h3 hx
    · rw [hn x hxk] at hy; exact h.named p hx x hy

theorem Settles.setFeed (h : Settles a w) (f : FeedId) (r : FeedRec) (hr : w.feeds[f].Settles r) :
    Settles a (w.setFeed f r) := by
  refine h.trans ?_
  obtain ⟨m, o, e⟩ := w.setFeed_shape f r
  rw [e]
  refine { Settles.refl w with feeds := fun g => ?_ }
  simp only [Fin.getElem_fin, Vector.getElem_set]
  split
  · rename_i hg
    have : f = g := Fin.ext hg
    subst this
    exact hr
  · exact ⟨rfl, .inl ⟨rfl, rfl, rfl⟩⟩

/-! ### The operations -/

theorem Settles.startPurges (h : Settles a w) : Settles a w.startPurges := by
  unfold Work.startPurges Work.each
  generalize allPockets = l
  induction l generalizing w with
  | nil => exact h
  | cons p l ih =>
    refine ih ?_
    unfold Work.startPurge
    dsimp only
    split
    · rename_i hp
      simp only [Bool.and_eq_true, decide_eq_true_eq] at hp
      exact h.setPocket _ _ (.inr ⟨by rw [hp.1.1.1]; simp, rfl, rfl, rfl⟩) (.inr (.inl hp.1.1.1))
    · exact h

theorem Settles.judge (h : Settles a w) : Settles a w.judge :=
  h.trans { Settles.refl w with returnBusy := fun _ => ⟨rfl, rfl, rfl⟩ }

theorem Settles.judgeStaples (h : Settles a w) : Settles a w.judgeStaples := by
  unfold Work.judgeStaples
  split
  · exact h.latch _
  · exact h

/-- The Stapler's record changes while it is IDLE: no member joins its queue, no staple is added, it does not become
FAULTED. -/
theorem Settles.setStaplerRec (h : Settles a w) (r : Stapler) (hi : w.stapler.state = .idle)
    (hq : ∀ x, x ∈ r.queue → x ∈ w.stapler.queue) (hr : r.remaining ≤ w.stapler.remaining) (hs : r.state ≠ .faulted) :
    Settles a (w.setStaplerRec r) :=
  h.trans { Settles.refl w with
    stapleQueue := hq, staplerBusy := fun hn => absurd hi hn, staplerSound := fun _ => hs, remaining := hr }

theorem Settles.setRemaining (h : Settles a w) (n : Nat) (hi : w.stapler.state = .idle) (hn : n ≤ w.stapler.remaining) :
    Settles a (w.setRemaining n) := by
  have h1 := h.setStaplerRec { w.stapler with remaining := n } hi (fun _ => id) hn (by simp [hi])
  unfold Work.setRemaining
  obtain ⟨m, e⟩ := Work.touchIf_shape (w.setStaplerRec { w.stapler with remaining := n })
    (decide (n ≠ w.stapler.remaining)) .settings
  have h2 : Settles a ((w.setStaplerRec { w.stapler with remaining := n }).touchIf
      (decide (n ≠ w.stapler.remaining)) .settings) := by
    rw [e]
    exact h1.same rfl rfl rfl rfl rfl rfl rfl rfl rfl rfl
  exact h2.judgeStaples

/-- The Stapler's other fields change while it is IDLE. -/
theorem Settles.setStapler (h : Settles a w) (st : StaplerState) (k : Option WorkRec) (c : Option (PocketId × Nat))
    (hi : w.stapler.state = .idle) (hs : st ≠ .faulted) : Settles a (w.setStapler st k c) :=
  h.setStaplerRec _ hi (fun _ => id) le_rfl hs

@[simp] theorem Work.stapler_setPocket (w : Work) (p : PocketId) (r : PocketRec) :
    (w.setPocket p r).stapler = w.stapler := by
  obtain ⟨m, o, e⟩ := w.setPocket_shape p r
  rw [e]

@[simp] theorem Work.stapler_setPack (w : Work) (k : Handle) (r : PackRec) :
    (w.setPack k r).stapler = w.stapler := by
  obtain ⟨m, o, e⟩ := w.setPack_shape k r
  rw [e]

@[simp] theorem Work.stapler_state_setRemaining (w : Work) (n : Nat) :
    (w.setRemaining n).stapler.state = w.stapler.state := by
  unfold Work.setRemaining Work.judgeStaples Work.touchIf Work.touch
  dsimp only
  split <;> split <;> (try split) <;> rfl

theorem Settles.holdPocket (h : Settles a w) (p : PocketId) (v : Nat) (hn : ∃ x, (w.pack x).pocket = some p) :
    Settles a (w.holdPocket p v) := by
  unfold Work.holdPocket
  exact h.setPocket p { w.pockets[p] with state := .held, volume := v, offset := false }
    (.inr ⟨by simp, rfl, rfl, rfl⟩) (.inr (.inr hn))

theorem Settles.presentVolume (h : Settles a w) (p : PocketId) (v : Nat) (hn : ∃ x, (w.pack x).pocket = some p) :
    Settles a (w.presentVolume p v) := by
  unfold Work.presentVolume
  exact h.setPocket p { w.pockets[p] with state := .stapling, volume := v, offset := evenVolume v }
    (.inr ⟨by simp, rfl, rfl, rfl⟩) (.inr (.inr hn))

theorem Settles.finishPack (h : Settles a w) (k : Handle) (f : PackFlags) (hi : w.stapler.state = .idle)
    (hq : k ∈ a.stapler.queue) (ht : (w.pack k).flags.outOfTurn = true → f.outOfTurn = true) :
    Settles a (w.finishPack k f) := by
  unfold Work.finishPack
  dsimp only
  have h1 := h.setStaplerRec { w.stapler with
    queue := w.stapler.queue.filter fun j => decide (j ≠ k), state := .idle, work := none, command := none } hi
    (fun x hx => (List.mem_filter.1 hx).1) le_rfl (by simp)
  split
  · exact Settles.judge (h1.setPack k _ rfl rfl rfl (.inl hq) ht (.inl rfl))
  · rename_i p hp
    refine Settles.judge ((h1.holdPocket p (w.pack k).volumes ⟨k, hp⟩).setPack k _ ?_ ?_ ?_ (.inl hq) ?_ (.inl ?_))
    all_goals first | rfl | (rw [Work.pack_holdPocket]; exact ht)

theorem Settles.shortVolume (h : Settles a w) (k : WorkRec) (hi : w.stapler.state = .idle)
    (hq : k.handle ∈ a.stapler.queue) : Settles a (w.shortVolume k) := by
  unfold Work.shortVolume
  dsimp only
  split
  · exact (h.latch _).setStapler _ _ _ hi (by simp)
  · refine (h.latch _).finishPack _ _ hi hq fun ht => ?_
    split <;> exact ht

theorem Settles.startVolume (h : Settles a w) (k : WorkRec) (hi : w.stapler.state = .idle)
    (hq : k.handle ∈ a.stapler.queue) : Settles a (w.startVolume k) := by
  unfold Work.startVolume
  dsimp only
  split
  · exact h.shortVolume k hi hq
  · have h1 := h.setRemaining (w.stapler.remaining - patternCount (w.pack k.handle).snap.pattern) hi (Nat.sub_le _ _)
    have hp := Work.pack_setRemaining w (w.stapler.remaining - patternCount (w.pack k.handle).snap.pattern) k.handle
    have h2 := h1.setPack k.handle { w.pack k.handle with state := .stapling } (by rw [hp]; rfl) (by rw [hp])
      (by rw [hp]) (.inl hq) (by rw [hp]; exact id) (.inl (by rw [hp]))
    split <;> split
    · exact h2.setStapler _ _ _ (by simpa using hi) (by simp)
    · exact h1.setStapler _ _ _ (by simpa using hi) (by simp)
    · rename_i p hk _
      exact (h2.presentVolume p _ ⟨k.handle, by rw [Work.pack_setPack_self]; exact hk⟩).setStapler _ _ _
        (by simpa [Work.presentVolume] using hi) (by simp)
    · rename_i p hk _
      exact (h1.presentVolume p _ ⟨k.handle, by rw [hp]; exact hk⟩).setStapler _ _ _
        (by simpa [Work.presentVolume] using hi) (by simp)

theorem State.workFor_handle (s : State) (h : Handle) : (s.workFor h).handle = h := by
  unfold State.workFor
  split
  · rfl
  · split
    · rename_i hk; exact hk.1
    · rfl

theorem Settles.takeUp (h : Settles a w) (n : Nat) : Settles a (Work.takeUp n w) := by
  induction n generalizing w with
  | zero => exact h
  | succ n ih =>
    unfold Work.takeUp
    split
    · exact h
    · rename_i k _ hq
      split
      · rename_i hi
        simp only [Bool.and_eq_true, decide_eq_true_eq] at hi
        refine ih (h.startVolume _ hi.1 ?_)
        rw [State.workFor_handle]
        exact h.stapleQueue _ (by rw [hq]; exact List.mem_cons_self)
      · exact h

theorem Settles.staple (h : Settles a w) : Settles a w.staple := h.takeUp _

/-- The Return Unit's record changes while it is IDLE, but for the bins; it does not become FAULTED. -/
theorem Settles.setRet (h : Settles a w) (r : ReturnUnit) (hi : w.ret.state = .idle) (hb : r.bins = w.ret.bins)
    (hs : r.state ≠ .faulted) : Settles a (w.setRet r) :=
  h.trans { Settles.refl w with
    bins := fun b => by simp [hb], returnBusy := fun hn => absurd hi hn, returnSound := fun _ => hs }

theorem Settles.leaveDeliveryQueue (h : Settles a w) (k : Handle) : Settles a (w.leaveDeliveryQueue k) :=
  h.trans { Settles.refl w with returnBusy := fun _ => ⟨rfl, rfl, rfl⟩ }

theorem Settles.beginDelivery (h : Settles a w) (k : Handle) (p : PocketId) (b : BinId) (hi : w.ret.state = .idle)
    (hl : (w.pack k).state = .ready) (hp : (w.pack k).pocket = some p) : Settles a (w.beginDelivery k p b) := by
  unfold Work.beginDelivery
  dsimp only
  have h1 := (h.leaveDeliveryQueue k).setPack k { w.pack k with state := .delivering } rfl rfl rfl
    (.inr ⟨by simp [hl, PackState.fixedInSettling], fun _ => .inr rfl, by simp [hl], by simp [hl]⟩) id (.inl rfl)
  have h2 := h1.setPocket p
    { ((w.leaveDeliveryQueue k).setPack k { w.pack k with state := .delivering }).pockets[p] with state := .ejecting }
    (.inr ⟨by simp, rfl, rfl, rfl⟩) (.inr (.inr ⟨k, by rw [Work.pack_setPack_self]; exact hp⟩))
  refine h2.setRet _ ?_ rfl (by simp)
  obtain ⟨m1, o1, e1⟩ := Work.setPocket_shape
    ((w.leaveDeliveryQueue k).setPack k { w.pack k with state := .delivering }) p
      { ((w.leaveDeliveryQueue k).setPack k { w.pack k with state := .delivering }).pockets[p] with state := .ejecting }
  obtain ⟨m2, o2, e2⟩ := (w.leaveDeliveryQueue k).setPack_shape k { w.pack k with state := .delivering }
  rw [e1, e2]
  exact hi

theorem Settles.startDelivery (h : Settles a w) : Settles a w.startDelivery := by
  unfold Work.startDelivery
  split
  · rename_i hi
    simp only [Bool.and_eq_true, decide_eq_true_eq] at hi
    split
    · exact h
    · rename_i hf
      split
      · rename_i hp _
        exact h.beginDelivery _ _ _ hi.1 (State.eligible_ready (List.find?_some hf)) hp
      · exact h
  · exact h

theorem Settles.endStopping (h : Settles a w) : Settles a w.endStopping := by
  unfold Work.endStopping
  split
  · rename_i o ho
    split
    · exact h.trans { Settles.refl w with run := .inr ⟨⟨o, ho⟩, rfl⟩ }
    · exact h
  · exact h

theorem Settles.boundALast (h : Settles a w) : Settles a w.boundALast := h.setArb _ rfl (List.prefix_refl _)

theorem Settles.dropPick (h : Settles a w) : Settles a w.dropPick := by
  unfold Work.dropPick
  split
  · exact h
  · split
    · exact h
    · exact h.setArb _ rfl (List.prefix_refl _)

theorem Settles.appendInFlight (h : Settles a w) (f : FeedId) (k : Option Handle) (p g : Nat) (t : EntryTag)
    (d : Disposition) : Settles a (w.appendInFlight f k p g t d) := h.setArb _ rfl (List.prefix_append _ _)

theorem Settles.releaseBare (h : Settles a w) (f : FeedId) (t : EntryTag) (d : Disposition)
    (hp : w.feeds[f].shelf = .present) : Settles a (w.releaseBare f t d) :=
  (h.setFeed f { w.feeds[f] with shelf := .clearing, discard := false }
    ⟨rfl, .inr ⟨hp, rfl, rfl, .inl rfl⟩⟩).appendInFlight _ _ _ _ _ _

theorem Settles.releaseHead (h : Settles a w) (f : FeedId) (e : StagingEntry) (d : Disposition)
    (hp : w.feeds[f].shelf = .present) (hd : w.feeds[f].discard = false) : Settles a (w.releaseHead f e d) :=
  (h.setFeed f { w.feeds[f] with shelf := .clearing, queue := w.feeds[f].queue.tail }
    ⟨rfl, .inr ⟨hp, rfl, hd, .inr rfl⟩⟩).appendInFlight _ _ _ _ _ _

theorem Settles.clearPick (h : Settles a w) : Settles a (w.setArb { w.arb with pick := none }) :=
  h.setArb _ rfl (List.prefix_refl _)

theorem Settles.openPack (h : Settles a w) (k : Handle) (p : PocketId) (ha : (w.pack k).state = .announced)
    (hr : w.run.state = .run) (he : w.pockets[p].state = .empty) : Settles a (w.openPack k p) := by
  unfold Work.openPack
  dsimp only
  have he' : a.pockets[p].state = .empty := by
    by_contra hc
    exact (h.pockets p hc).1 he
  have hrun : (w.setPocket p { w.pockets[p] with
      state := .collating, pack := some k, sheets := 0, thickness := 0, volume := 1, offset := false }).run.state
        = .run := by
    obtain ⟨m, o, e⟩ := w.setPocket_shape p { w.pockets[p] with
      state := .collating, pack := some k, sheets := 0, thickness := 0, volume := 1, offset := false }
    rw [e]
    exact hr
  have h1 := (h.setPocket p { w.pockets[p] with
    state := .collating, pack := some k, sheets := 0, thickness := 0, volume := 1, offset := false }
    (.inl he) (.inl he)).setPack k
    { w.pack k with
      state := .opened, pocket := some p, released := 1,
      flags := { (w.pack k).flags with
        outOfTurn := (w.pack k).flags.outOfTurn || decide (w.arb.pick.map Prod.snd = some k) } }
    (by rw [Work.pack_setPocket]; rfl) (by rw [Work.pack_setPocket]) (by rw [Work.pack_setPocket])
    (.inr ⟨by rw [Work.pack_setPocket, ha]; rfl, (by rw [Work.pack_setPocket, ha]; nofun),
      (by rw [Work.pack_setPocket, ha]; nofun), fun _ => ⟨rfl, hrun⟩⟩)
    (by rw [Work.pack_setPocket]; intro ht; simp [ht]) (.inr ⟨p, rfl, he'⟩)
  split
  · exact (h1.clearPick.notify _).latch _
  · exact h1

theorem Settles.pageReleased (h : Settles a w) (k : Handle) (ho : (w.pack k).state = .opened) :
    Settles a (w.pageReleased k) :=
  h.setPack k { w.pack k with released := (w.pack k).released + 1 } rfl rfl rfl
    (.inr ⟨by rw [ho]; rfl, by simp [ho], fun _ => ho, by simp [ho]⟩) id (.inl rfl)

/-- The pocket offered is EMPTY (R73). -/
theorem State.offer_empty {s : State} {h : Handle} {p : PocketId} (ho : s.offer h = some p) :
    s.pockets[p].state = .empty := by
  have hm : p ∈ s.emptyPockets := by
    unfold State.offer at ho
    split at ho
    · cases ho
    · rename_i hq
      split at ho
      · cases ho; rw [hq]; exact List.mem_singleton_self _
      · cases ho
    · rename_i hq
      cases ho; rw [hq]; exact List.mem_cons_self
  have := (List.mem_filter.1 hm).2
  simp only [Bool.and_eq_true, decide_eq_true_eq] at this
  exact this.2

/-- A COLLATE verdict with a pocket comes with the pocket's offer (R50). -/
theorem State.judgeEntry_offer {s : State} {e : StagingEntry} {p : PocketId}
    (h : s.judgeEntry e = .collate (some p)) : s.offer e.handle = some p := by
  unfold State.judgeEntry at h
  dsimp only at h
  repeat' split at h
  all_goals first | (simp at h; done) | (rename_i ho; cases h; exact ho)

/-- A COLLATE verdict is given in RUN alone (R48, R69). -/
theorem State.collate_run {s : State} {f : FeedId} {p : Option PocketId} (h : s.verdict f = .collate p)
    (hr : s.releasing = true) : s.run.state = .run := by
  unfold State.verdict at h
  split at h
  · cases h
  · rename_i hb
    simp only [State.releasing, Bool.or_eq_true, decide_eq_true_eq] at hr
    exact hr.resolve_right hb

theorem Work.run_releaseHead (w : Work) (f : FeedId) (e : StagingEntry) (d : Disposition) :
    (w.releaseHead f e d).run = w.run := by
  unfold Work.releaseHead Work.appendInFlight
  dsimp only
  obtain ⟨m, o, h⟩ := w.setFeed_shape f { w.feeds[f] with shelf := .clearing, queue := w.feeds[f].queue.tail }
  rw [h]
  rfl

theorem Work.pockets_releaseHead (w : Work) (f : FeedId) (e : StagingEntry) (d : Disposition) :
    (w.releaseHead f e d).pockets = w.pockets := by
  unfold Work.releaseHead Work.appendInFlight
  dsimp only
  obtain ⟨m, o, h⟩ := w.setFeed_shape f { w.feeds[f] with shelf := .clearing, queue := w.feeds[f].queue.tail }
  rw [h]
  rfl

/-- A feed is released only while its sheet is PRESENT (R48). -/
theorem Settles.release (h : Settles a w) (f : FeedId) (hp : w.feeds[f].shelf = .present) (hr : w.releasing = true) :
    Settles a (w.release f) := by
  unfold Work.release
  have h1 := (h.pulse f).restartTimer
  dsimp only
  split
  · exact h
  · exact h1.releaseBare _ _ _ hp
  · exact (h1.releaseBare _ _ _ hp).latch _
  · exact h
  case h_5 hd _ => exact h1.releaseHead _ _ _ hp hd
  case h_6 hv hd hq =>
    have := State.judgeEntry_open (State.verdict_collate hv hq)
    refine (h1.releaseHead _ _ _ hp hd).openPack _ _ (by simpa using this.1) ?_ ?_
    · rw [Work.run_releaseHead]; exact State.collate_run hv hr
    · rw [Work.pockets_releaseHead]; exact State.offer_empty (State.judgeEntry_offer (State.verdict_collate hv hq))
  case h_7 hv hd hq =>
    have := State.judgeEntry_next (State.verdict_collate hv hq)
    exact (h1.releaseHead _ _ _ hp hd).pageReleased _ (by simpa using this.1)

theorem State.dueWith_candidate {s : State} {f : FeedId} {t : Verdict → Bool} (h : s.dueWith f t = true) :
    s.candidate f = true := by
  simp only [State.dueWith, Bool.and_eq_true] at h
  exact h.1.1

/-- A feed chosen is a candidate (R51). -/
theorem State.choose_candidate {s : State} {f : FeedId} (h : s.choose = some f) : s.candidate f = true := by
  unfold State.choose at h
  split at h
  · split at h
    · rename_i hd
      cases h
      exact State.dueWith_candidate hd
    · cases h
  · split at h
    · rename_i hf
      cases h
      exact State.dueWith_candidate (t := Verdict.isPlain) (by simpa using List.find?_some hf)
    · exact State.dueWith_candidate (t := Verdict.isCollate) (by simpa using (List.mem_filter.1 (firstBy_mem h)).2)

theorem State.candidate_present {s : State} {f : FeedId} (h : s.candidate f = true) :
    s.feeds[f].shelf = .present ∧ s.releasing = true := by
  simp only [State.candidate, Bool.and_eq_true, decide_eq_true_eq] at h
  exact ⟨h.1.1.2, h.1.1.1.1⟩

theorem Settles.decideUpTo (h : Settles a w) (n : Nat) : Settles a (Work.decideUpTo n w) := by
  induction n generalizing w with
  | zero => exact h
  | succ n ih =>
    unfold Work.decideUpTo
    dsimp only
    have h1 := h.boundALast.dropPick
    split
    · exact h1
    · rename_i hf
      have hc := State.candidate_present (State.choose_candidate hf)
      exact ih (h1.release _ hc.1 hc.2)

theorem Settles.decideReleases (h : Settles a w) : Settles a w.decideReleases := by
  unfold Work.decideReleases
  split
  · exact h.decideUpTo 5
  · exact h

theorem Settles.timeWaits (h : Settles a w) : Settles a w.timeWaits := by
  unfold Work.timeWaits Work.each
  generalize allFeeds = l
  induction l generalizing w with
  | nil => exact h
  | cons f l ih =>
    refine ih ?_
    unfold Work.timeWait
    dsimp only
    split <;> split <;> first | exact h | exact h.setFeed f _ ⟨rfl, .inl ⟨rfl, rfl, rfl⟩⟩

theorem Settles.timeBlock (h : Settles a w) : Settles a w.timeBlock := h.setArb _ rfl (List.prefix_refl _)

theorem Settles.judgeBinFull (h : Settles a w) (s : State) : Settles a (w.judgeBinFull s) := by
  unfold Work.judgeBinFull
  split
  · exact h.latch _
  · exact h

theorem Settles.driveLamps (h : Settles a w) : Settles a w.driveLamps := by
  unfold Work.driveLamps Work.each
  generalize allBins = l
  induction l generalizing w with
  | nil => exact h
  | cons b l ih =>
    refine ih ?_
    unfold Work.driveLamp
    dsimp only
    split
    · exact h
    · refine h.trans { Settles.refl w with bins := fun x => ?_, returnBusy := fun _ => ⟨rfl, rfl, rfl⟩ }
      simp only [Work.setRet, Fin.getElem_fin, Vector.getElem_set]
      split
      · rename_i hx
        have : b = x := Fin.ext hx
        subst this
        rfl
      · rfl

/-- What the end of start-up leaves alone. -/
structure Core where
  reg : PackRegister
  drains : List Byte
  arb : MergeArbiter
  bins : Vector BinRec 24
  queue : List Handle
  remaining : Nat

/-- The parts of a step's state that the end of start-up leaves alone. -/
def Work.core (w : Work) : Core :=
  ⟨w.reg, w.drains, w.arb, w.ret.bins, w.stapler.queue, w.stapler.remaining⟩

theorem Work.core_reg (w : Work) : w.core.reg = w.reg := rfl
theorem Work.core_drains (w : Work) : w.core.drains = w.drains := rfl
theorem Work.core_arb (w : Work) : w.core.arb = w.arb := rfl
theorem Work.core_bins (w : Work) : w.core.bins = w.ret.bins := rfl

theorem Work.core_setRunState (w : Work) (st : RunState) : (w.setRunState st).core = w.core := by
  simp only [Work.setRunState]; rfl

theorem Work.core_setReport (w : Work) (r : Report) : (w.setReport r).core = w.core := rfl

theorem Work.core_cutOffVolume (w : Work) : w.cutOffVolume.core = w.core := by
  unfold Work.cutOffVolume
  split <;> rfl

theorem Work.core_cutOffDelivery (w : Work) : w.cutOffDelivery.core = w.core := by
  unfold Work.cutOffDelivery
  split <;> rfl

theorem Work.core_each {α : Type} (w : Work) (f : Work → α → Work) (l : List α) (h : ∀ x a, (f x a).core = x.core) :
    (w.each f l).core = w.core := by
  induction l generalizing w with
  | nil => rfl
  | cons a l ih => simpa [Work.each, h] using ih (f w a)

theorem Work.core_setPocket (w : Work) (p : PocketId) (r : PocketRec) : (w.setPocket p r).core = w.core := by
  obtain ⟨m, o, e⟩ := w.setPocket_shape p r
  rw [e]
  rfl

theorem Work.core_setFeed (w : Work) (f : FeedId) (r : FeedRec) : (w.setFeed f r).core = w.core := by
  obtain ⟨m, o, e⟩ := w.setFeed_shape f r
  rw [e]
  rfl

theorem Work.core_startPurges (w : Work) : w.startPurges.core = w.core := by
  refine Work.core_each _ _ _ fun x p => ?_
  unfold Work.startPurge
  dsimp only
  split
  · exact Work.core_setPocket _ _ _
  · rfl

theorem Work.core_cutOffPurge (w : Work) (p : PocketId) : (w.cutOffPurge p).core = w.core := by
  unfold Work.cutOffPurge
  dsimp only
  split
  · exact Work.core_setPocket _ _ _
  · rfl

theorem Work.core_halt (w : Work) (c : HaltCause) (t : ResumeTarget) : (w.halt c t).core = w.core := by
  unfold Work.halt
  rw [Work.core_each _ _ _ Work.core_cutOffPurge, Work.core_cutOffDelivery, Work.core_cutOffVolume,
    Work.core_setRunState]

theorem Work.core_enterTarget (w : Work) (t : ResumeTarget) : (w.enterTarget t).core = w.core := by
  unfold Work.enterTarget
  split
  · unfold Work.enterBypass
    rw [Work.core_each _ Work.flushFeed _ fun x f => Work.core_setFeed x f _, Work.core_setRunState]
  · exact Work.core_setRunState _ _

theorem Work.core_endStartUp (w : Work) : w.endStartUp.core = w.core := by
  unfold Work.endStartUp
  split
  · split
    · rfl
    · unfold Work.leaveStarting
      dsimp only
      rw [Work.core_setReport]
      split
      · exact Work.core_halt w _ _
      · exact Work.core_enterTarget w _
  · rfl

theorem Work.core_started (w : Work) : w.startPurges.endStartUp.core = w.core :=
  (Work.core_endStartUp _).trans (Work.core_startPurges w)

/-- What the settling does after the pending purges have started and a start-up has ended. -/
theorem Settles.rest (s : State) (w : Work) : Settles w.startPurges.endStartUp (w.settle s) :=
  (((Settles.refl _).judge.staple.startDelivery.endStopping).decideReleases.timeWaits.timeBlock.judgeBinFull s).driveLamps

/-- The settling announces, frees, restarts and admits nothing, in any run state. -/
theorem Work.settle_keepsPacks (s : State) (w : Work) : w.toState.keepsPacks (w.settle s).toState := by
  have h := Settles.rest s w
  have hr := congrArg Core.reg w.core_started
  rw [Work.core_reg, Work.core_reg] at hr
  have hp : ∀ x, w.startPurges.endStartUp.pack x = w.pack x := fun x => by simp only [State.pack, hr]
  refine ⟨by rw [h.queues, hr], by rw [h.markers, hr], by rw [h.serial, hr], fun x => ?_⟩
  have := h.fixed x
  rw [hp x] at this
  exact this

/-- The settling changes nothing of the bins but their lamps, in any run state. -/
theorem Work.settle_keepsBins (s : State) (w : Work) : w.toState.keepsBins (w.settle s).toState [] := by
  intro b _
  have h := (Settles.rest s w).bins b
  have hr := congrArg Core.bins w.core_started
  rw [Work.core_bins, Work.core_bins] at hr
  simpa only [hr] using h

/-- The settling neither moves the gate nor takes a sheet from the in-flight list, and forms no Drain Complete, in any
run state. -/
theorem Work.settle_arb (s : State) (w : Work) : (w.settle s).arb.gate = w.arb.gate
    ∧ w.arb.inFlight <+: (w.settle s).arb.inFlight ∧ (w.settle s).drains = w.drains := by
  have h := Settles.rest s w
  have ha := congrArg Core.arb w.core_started
  have hd := congrArg Core.drains w.core_started
  rw [Work.core_arb, Work.core_arb] at ha
  rw [Work.core_drains, Work.core_drains] at hd
  exact ⟨by rw [h.gate, ha], by rw [← ha]; exact h.inFlight, by rw [h.drains, hd]⟩

/-- Everything the settling can do outside STARTING. -/
theorem Settles.settle (s : State) (w : Work) (hs : w.starting = false) : Settles w (w.settle s) := by
  have h1 := (Settles.refl w).startPurges
  have h2 : Settles w w.startPurges.endStartUp := by
    unfold Work.endStartUp
    split
    · rename_i hk
      rcases h1.run with h | ⟨_, h⟩
      · simp only [State.starting, ← h, hk] at hs; cases hs
      · rw [h] at hk; cases hk
    · exact h1
  exact ((h2.judge.staple.startDelivery.endStopping).decideReleases.timeWaits.timeBlock.judgeBinFull s).driveLamps

end Sys2Proof.Machine
end

