-- ==== Sys2Proof/Tests/Slice0.lean ====
section
/-! SUPPORT. The model's own tests: the WellFormed smoke test, the manual's worked examples, one step of each command on a
small state, and for each statement with hypotheses a state and operands that meet them (`witness_…`). Expected values
come from the rule or the worked example each test names. -/

set_option Elab.async false

namespace Sys2Proof.Tests

open Sys2Proof.Machine

/-! ### Small states -/

/-- The state a command leads to. -/
def after (c : Instr) (s : State) : State :=
  match exec c s with
  | .next t => t
  | .fault _ => s
  | .refused _ => s

/-- An EMPTY pocket. -/
def emptyPocket : PocketRec := (PocketRec.startUp 0 4000).emptied

/-- An ONLINE feed with an EMPTY shelf. -/
def onlineFeed : FeedRec := { state := .online, queue := [], shelf := .empty, wait := none, discard := false }

/-- A bin with fill `n`. -/
def filled (n : Nat) : BinRec := { BinRec.default 0 with fill := n }

/-- After start-up, with job 1 open (cover media class 3), class 1 on bin 3, student 7 in class 1. -/
def ready : State :=
  { State.reset with
    run := { State.reset.run with state := .standby }
    pockets := Vector.replicate 8 emptyPocket
    feeds := Vector.replicate 4 onlineFeed
    tables := { State.reset.tables with
      jobs := Vector.replicate 32 { JobEntry.default with isOpen := true, cover := 3 }
      classes := Vector.replicate 48 { bin := some 2, policy := .ordered }
      roster := [(7, some 0)] } }

/-- The same in another run state. -/
def State.inState (s : State) (r : RunState) : State := { s with run := { s.run with state := r } }

/-- The same at another time. -/
def State.atTime (s : State) (n : Time) : State := { s with now := n }

/-- The same with a record in the pack table and its handle in the queue of its class. -/
def State.withPack (s : State) (h : Handle) (r : PackRec) : State :=
  { s with reg := { s.reg with
      packs := Sparse.put PackRec.cleared s.reg.packs h r
      queues := if r.state = .disposing then s.reg.queues
        else Sparse.put [] s.reg.queues r.cls (s.classQueue r.cls ++ [h])
      serial := s.reg.serial + 1 } }

/-- The same with another pocket record. -/
def State.withPocket (s : State) (p : PocketId) (r : PocketRec) : State := { s with pockets := s.pockets.set p r }

/-- The same with another feed record. -/
def State.withFeed (s : State) (f : FeedId) (r : FeedRec) : State := { s with feeds := s.feeds.set f r }

/-- The same with other in-flight entries. -/
def State.withFlight (s : State) (l : List InFlight) : State := { s with arb := { s.arb with inFlight := l } }

/-- The same with the inbound queue given. -/
def State.withInbound (s : State) (l : List Record) : State := { s with link := { s.link with inbound := l } }

/-- The same with the receiver given. -/
def State.withReceiver (s : State) (r : Receiver) : State := { s with link := { s.link with receiver := r } }

def running : State := State.inState ready .run

/-- A two-page pack of class 1 with cover 190 and body 104, one stapled volume. -/
def packOf (st : PackState) (p : Option PocketId) (released received : Nat) : PackRec :=
  { PackRec.cleared with
    state := st, pages := 2, student := 7, pocket := p, released := released, received := received
    snap := ⟨190, 104, .corner, .hold, ⟨[2], true⟩⟩, total := 294, units := 3 }

/-- A pocket that holds pack 12 (handle index 11). -/
def houseOf (st : PocketState) (sheets thickness : Nat) : PocketRec :=
  { emptyPocket with state := st, pack := some 11, sheets := sheets, thickness := thickness, volume := 1 }

/-- An in-flight entry of feed 1 for pack 12 with tag 5. -/
def flight (page gen : Nat) (d : Disposition) : InFlight :=
  { feed := 0, handle := some 11, page := page, gen := gen, tag := .num 5, disp := d, arrival := 1000, deadline := 1250 }

/-- Pack 12 OPEN in pocket 1 with its cover admitted and page 2 in flight. -/
def building : State :=
  State.withFlight (State.withPocket (State.withPack running 11 (packOf .opened (some 0) 2 1)) 0
    (houseOf .collating 1 190)) [flight 2 0 .collate]

/-- Pack 12 announced. -/
def announced : State := State.withPack running 11 (packOf .announced none 0 0)

/-- Pack 12 STAPLING in pocket 1, its volume in flight. -/
def stapling : State :=
  let s := State.withPocket (State.withPack running 11 (packOf .stapling (some 0) 2 2)) 0 (houseOf .stapling 2 294)
  { s with stapler := { s.stapler with
      state := .stapling, queue := [11], remaining := 100, command := some (0, 1)
      work := some { handle := 11, gen := 0, volume := 1, stapled := 0, op := .inFlight, start := 0, allowance := 4000 } } }

/-- Pack 12 DELIVERING from pocket 1 to bin 3. -/
def delivering : State :=
  let s := State.withPocket (State.withPack running 11 (packOf .delivering (some 0) 2 2)) 0 (houseOf .ejecting 2 294)
  { s with ret := { s.ret with
      state := .ejecting, command := some (0, 2), bins := Vector.replicate 24 (filled 420)
      delivery := some { handle := 11, gen := 0, pocket := 0, bin := 2, units := 3, op := .inFlight, start := 0
                         allowance := 4000 } } }

/-- The same with the delivery timed out. -/
def stuck : State := { delivering with ret := { delivering.ret with state := .faulted, command := none } }

/-- Pack 12 READY in pocket 1. -/
def finished : State :=
  State.withPocket (State.withPack running 11 (packOf .ready (some 0) 2 2)) 0 (houseOf .held 2 294)

/-- Pack 12 RESTARTING, its pocket's purge running. -/
def restarting : State :=
  State.withPocket (State.withPack running 11 { packOf .restarting (some 0) 0 0 with gen := 1 }) 0
    { houseOf .purging 1 190 with purge := .running }

/-- Feed 1 has page 1 of pack 12 at its head and a sheet on its shelf. -/
def shelved (s : State) : State :=
  State.withFeed s 0 { onlineFeed with queue := [⟨11, 1, 0, 5⟩], shelf := .present }

/-! ### WellFormed: an ill-formed term for each check -/

theorem test_refuses_long_table_write :
    (Instr.tableWrite false 3 0 (List.replicate 58 0)).WellFormed = false := by decide
theorem test_refuses_long_marked_write :
    (Instr.markedWrite false 11 0 (List.replicate 58 0)).WellFormed = false := by decide
theorem test_refuses_marked_write_of_other_length : (Instr.markedWrite false 2 1 [3, 0]).WellFormed = false := by decide
theorem test_refuses_defined_kind_as_undefined : (Instr.undefinedRecordKind false 0x0A []).WellFormed = false := by decide
theorem test_refuses_long_undefined_kind :
    (Instr.undefinedRecordKind false 0x40 (List.replicate 61 0)).WellFormed = false := by decide
theorem test_refuses_defined_group_action : (Instr.undefinedActionCode false (.group 3)).WellFormed = false := by decide
theorem test_refuses_defined_control_action :
    (Instr.undefinedActionCode false (.control 12 0)).WellFormed = false := by decide
theorem test_refuses_long_record : (Instr.recordComplete false 5 (List.replicate 61 0)).WellFormed = false := by decide
theorem test_refuses_sound_stop_as_line_error : (Instr.lineError ⟨false, true⟩ true 0xE5).WellFormed = false := by decide
theorem test_refuses_stop_as_inbound_character :
    (Instr.inboundCharacterTaken true 0xE5).WellFormed = false := by decide

/-! ### The manual's worked examples: stack budgets (04, after R85) -/

theorem test_budget_two_volumes :
    stackBudget 56 190 104 5000 12000 .corner .split = .fits ⟨5910, ⟨[47, 56], true⟩, 60, false⟩ := by decide
theorem test_budget_fallback :
    stackBudget 40 190 250 1000 12000 .corner .split = .fits ⟨9940, ⟨[40], false⟩, 100, true⟩ := by decide

/-! ### The manual's worked example of the mark (08): pack 12 is delivered, and class 1's mark is lost -/

theorem test_mark_is_set :
    (after (.tableMark false 2 1) running).tables.mark = some (.cls 0)
      ∧ (after (.tableMark false 2 1) running).told = [.result 0x06 .accepted {} [2, 1, 0, 3, 0, 0]] := by
  decide +kernel
theorem test_marked_write_after_delivery :
    (after (.markedWrite false 2 1 [11, 0, 0]) (after .ejectDone
      { delivering with tables := { delivering.tables with mark := some (.cls 0) } })).told.getLast?
      = some (.result 0x07 .markLost {} []) := by decide +kernel
theorem test_marked_write :
    let t := after (.markedWrite false 2 1 [11, 0, 0]) (after (.tableMark false 2 1) running)
    t.tables.classes[(0 : ClassId)] = ⟨some 10, .ordered⟩ ∧ t.tables.mark = none := by decide +kernel

/-! ### One step of each command -/

/-- R31, R32: the entry joins the tail. -/
theorem test_sheet_notice :
    (after (.sheetNotice false 2 12 1 0 201) announced).feeds[(1 : FeedId)].queue = [⟨11, 1, 0, 201⟩] := by decide +kernel
/-- R31, R33, event 4 of the worked example of 02: a generation above the pack's is refused. -/
theorem test_sheet_notice_bad_generation :
    (after (.sheetNotice false 2 12 2 2 410) (State.withPack running 11 { packOf .announced none 0 0 with gen := 1 })).told
      = [.result 0x01 .badGeneration {} [2, 12, 2, 0, 1]] := by decide +kernel
/-- R18: the Result carries the total 190 + 55 × 104 and the number of volumes. -/
theorem test_pack_announce :
    (after (.packAnnounce false 22 1 7 56) ready).told = [.result 0x02 .accepted {} [0x16, 0x17, 2]] := by decide +kernel
/-- R19: an ANNOUNCED pack is FREE at once. -/
theorem test_pack_withdraw :
    (after (.packWithdraw false 12) announced).pack 11 = PackRec.cleared
      ∧ (after (.packWithdraw false 12) announced).told = [.result 0x03 .accepted {} [1]] := by decide +kernel
/-- R156, R197: two Media entries, less significant byte first. -/
theorem test_table_read :
    (after (.tableRead false 4 3 2) ready).told
      = [.result 0x04 .accepted {} [4, 3, 0, 2, 190, 0, 250, 0]] := by decide +kernel
/-- R149, R155: a thickness above 600 is clamped; the previous contents come back. -/
theorem test_table_write_clamps :
    let t := after (.tableWrite false 4 0 [0xFF, 0xFF]) ready
    t.tables.media[(0 : MediaId)] = 600 ∧ t.told = [.result 0x05 .accepted { clamped := true } [1, 104, 0]] := by
  decide +kernel
/-- R146: a Media write is refused outside STANDBY, with the index. -/
theorem test_table_write_in_run :
    (after (.tableWrite false 4 3 [104, 0]) running).told = [.result 0x05 .wrongState {} [3, 0]] := by decide +kernel
theorem test_group_open : (after (.groupOpen false) ready).tables.group = some [] := by decide +kernel
/-- R161: an empty group is closed with 0 applied. -/
theorem test_group_close :
    (after (.groupClose false) (after (.groupOpen false) ready)).told.getLast? = some (.result 0x08 .accepted {} [0]) := by
  decide +kernel
theorem test_group_discard_without_group :
    (after (.groupDiscard false) ready).told = [.result 0x08 .noGroup {} []] := by decide +kernel
/-- R24: with nothing to watch the Drain Complete follows the Result. -/
theorem test_drain_marker :
    (after (.drainMarker false 9) ready).told = [.result 0x09 .accepted {} [0], .drainComplete 9] := by decide +kernel
/-- R182: nothing latched, STANDBY (code 1), 5000 staples. -/
theorem test_status_read :
    (after (.statusRead false) ready).told
      = [.result 0x0A .accepted {} [0, 0, 0, 0, 0, 1, 0x88, 0x13]] := by decide +kernel
theorem test_undefined_record_kind :
    (after (.undefinedRecordKind false 0x40 [1]) ready).told = [.result 0x40 .badValue {} []] := by decide +kernel
theorem test_run : (after (.run false 0) ready).told = [.result 0x0B .accepted {} [2]] := by decide +kernel
theorem test_pause_refused : (after (.pause false 0) ready).told = [.result 0x0B .wrongState {} []] := by decide +kernel
/-- R186: at rest, STOPPING is passed through in the same step. -/
theorem test_standby : (after (.standby false 0) running).run.state = .standby := by decide +kernel
theorem test_standby_waits : (after (.standby false 0) building).run.state = .stopping .run := by decide +kernel
theorem test_bypass : (after (.bypass false 0) ready).run.state = .bypass := by decide +kernel
/-- R142: the pack of a flushed COLLATE entry is restarted. -/
theorem test_resume :
    let t := after (.resume false 0) (State.inState building (.halt .stop .run))
    t.run.state = .run ∧ t.arb.inFlight = [] ∧ (t.pack 11).gen = 1 ∧ (t.pack 11).state = .restarting := by
  decide +kernel
theorem test_clear_stapler_refused :
    (after (.clearStapler false 0) ready).told = [.result 0x0B .wrongState {} []] := by decide +kernel
/-- R119: LOST restarts the pack with no purge and raises no fill. -/
theorem test_clear_return_lost :
    let t := after (.clearReturn false 2) stuck
    (t.pack 11).state = .announced ∧ (t.pack 11).gen = 1 ∧ t.pockets[(0 : PocketId)].state = .empty
      ∧ t.ret.bins[(2 : BinId)].fill = 420 := by decide +kernel
/-- R36: one entry dropped. -/
theorem test_feed_flush :
    (after (.feedFlush false 1) (shelved ready)).told = [.result 0x0B .accepted {} [1]] := by decide +kernel
theorem test_loopback_on : (after (.loopbackOn false 0) ready).link.loopback = true := by decide +kernel
theorem test_loopback_off :
    (after (.loopbackOff false 0) (after (.loopbackOn false 0) ready)).link.loopback = false := by decide +kernel
/-- R191: with every pocket EMPTY the start-up ends at once, the Result before the Start Report. -/
theorem test_reset_work :
    (after (.resetWork false 0) running).told
      = [.result 0x0B .accepted {} [], .startReport ⟨0, .r38400, .standby⟩ .work .standby] := by decide +kernel
theorem test_reset_all :
    (after (.resetAll false 0) running).run.state = .starting .all false
      ∧ (after (.resetAll false 0) running).tables = TableStore.default := by decide +kernel
theorem test_power_on : after (.powerOn ⟨0, .r38400, .standby⟩) State.reset = State.reset := by decide +kernel
theorem test_reset_pin :
    (after (.resetPin ⟨3, .r76800, .bypass⟩) running).run = ⟨.starting .pin false, ⟨3, .r76800, .bypass⟩⟩ := by
  decide +kernel
theorem test_record_complete :
    (after (.recordComplete false 0x0A []) ready).link.inbound = [⟨false, 0x0A, []⟩] := by decide +kernel
/-- R165, R187: HALT, with the in-flight list held. -/
theorem test_stop_character :
    let t := after .stopCharacter building
    t.run.state = .halt .stop .run ∧ t.arb.inFlight.length = 1 ∧ t.latched .stop = true := by decide +kernel
/-- R168: a LINE_ERROR Result that echoes the kind received so far; it joins as it is formed, before the Attention
notice of the step's end (assumption 8). -/
theorem test_line_error :
    (after (.lineError ⟨false, true⟩ false 7) (State.withReceiver ready (.assembling false [0x05, 9]))).told
      = [.result 0x05 .lineError {} [], .attention (some .linkError)] := by decide +kernel
/-- R164: data 0x07 with a mark bit of 0 has three ones, so parity 1 is sound; the line goes low, the data bits least
significant first, mark, parity, high. -/
theorem test_frame : frameOf ⟨false, 0x07⟩ = 0b110000001110 ∧ instrOfFrame 0b110000001110 = .inboundCharacterTaken false 7
    ∧ instrOfFrame 0b100000001110 = .lineError ⟨false, true⟩ false 7 := by decide +kernel
/-- R164: a control character whose parity and stop bit are low, two bit times, and the line low after it for 22 and
23: a break only where that makes more than 24. -/
theorem test_break_after_ones : instrOfLine 0b001000000110 22 = .lineError ⟨false, false⟩ true 3
    ∧ instrOfLine 0b001000000110 23 = .lineBreak := by decide +kernel
theorem test_break : (after .lineBreak (State.withReceiver ready .skipping)).link.receiver = .waiting := by decide +kernel
theorem test_record_sent : (after .recordSent (after (.run false 0) ready)).told = [] := by decide +kernel
/-- R37, R47, R52: page 1 of pack 12 is released at once, and the pack opens in pocket 1. -/
theorem test_sheet_present_active :
    let t := after (.sheetPresentActive 0) (State.withFeed announced 0 { onlineFeed with queue := [⟨11, 1, 0, 5⟩] })
    t.releasePulses[(0 : FeedId)] = 1 ∧ (t.pack 11).state = .opened ∧ (t.pack 11).pocket = some 0
      ∧ t.arb.aLast = 1500 ∧ t.feeds[(0 : FeedId)].shelf = .clearing := by decide +kernel
theorem test_sheet_present_inactive :
    (after (.sheetPresentInactive 0)
      { shelved ready with pins := { ready.pins with sheetPresent := Vector.replicate 4 true } }).feeds[(0 : FeedId)].shelf
      = .empty := by decide +kernel
/-- R56, R75, R77: the last page makes the pocket HELD with 190 + 104, and the pack is stapled. -/
theorem test_arrival :
    let t := after (.arrival (some 5)) building
    t.arb.gate = .pocket 0 ∧ t.pockets[(0 : PocketId)].thickness = 294 ∧ (t.pack 11).state = .stapling := by decide +kernel
/-- R58, R59: an unreadable tag restarts the pack. -/
theorem test_arrival_mismatch :
    let t := after (.arrival none) building
    t.arb.gate = .reject ∧ (t.pack 11).gen = 1 ∧ t.latched .mismatch = true := by decide +kernel
/-- R61: JAM, the feed FAULTED, the pack restarted. -/
theorem test_deadline_expiry :
    let t := after .deadlineExpiry (State.atTime building 1251)
    t.run.state = .halt .jam .run ∧ t.feeds[(0 : FeedId)].state = .faulted ∧ (t.pack 11).gen = 1 := by decide +kernel
/-- R60, the worked example of 07: the deadline 10 250 expires at time 10 250, and not a millisecond before. -/
theorem test_deadline_is_reached :
    let s := State.withFlight building [{ flight 2 0 .collate with deadline := 10250 }]
    (after .deadlineExpiry (State.atTime s 10249)).run.state = .run
      ∧ (after .deadlineExpiry (State.atTime s 10250)).run.state = .halt .jam .run := by decide +kernel
theorem test_stop_input_fall : (after .stopInputFall running).run.state = .halt .stop .run := by decide +kernel
theorem test_stop_input_rise :
    (after .stopInputRise (after .stopInputFall running)).run.state = .halt .stop .run := by decide +kernel
/-- R40: the expired wait is released as a DISCARD with tag "any". -/
theorem test_wait_expiry :
    let t := after (.unannouncedSheetWaitExpiry 0)
      (State.withFeed (State.atTime running 2000) 0 { onlineFeed with shelf := .present, wait := some 0 })
    t.latched .unannounced = true ∧ t.arb.inFlight.map InFlight.tag = [.any] := by decide +kernel
/-- R64: page 3 stands before page 2 in one queue; the pack is restarted with ORDER_FAULT. -/
theorem test_block_timer :
    let s := State.withFlight building []
    let s1 := State.withFeed s 0 { onlineFeed with queue := [⟨11, 2, 0, 6⟩, ⟨11, 1, 0, 7⟩], shelf := .present }
    let s2 := State.withPack s1 11 (packOf .announced none 0 0)
    (after .blockTimerExpiry (State.atTime { s2 with arb := { s2.arb with blockTimer := some 0 } } 10000)).told.head?
      = some (.reprintRequest 11 1 .orderFault) := by decide +kernel
/-- R53: the earliest release is A_last + PITCH − T = 2000 + 450 − 1500. -/
theorem test_release_comes_due :
    let s := { shelved announced with arb := { announced.arb with aLast := 2000 } }
    (after .releaseComesDue (State.atTime s 949)).releasePulses[(0 : FeedId)] = 0
      ∧ (after .releaseComesDue (State.atTime s 950)).releasePulses[(0 : FeedId)] = 1 := by decide +kernel
theorem test_purge_done :
    let t := after (.purgeDone 0) restarting
    t.pockets[(0 : PocketId)] = emptyPocket ∧ (t.pack 11).state = .announced := by decide +kernel
/-- R89: out of service, the counts kept. -/
theorem test_purge_timeout :
    let t := after (.purgeTimeout 0) (State.atTime restarting 4000)
    t.pockets[(0 : PocketId)].state = .outOfService ∧ t.pockets[(0 : PocketId)].thickness = 190 := by decide +kernel
/-- R99, R116: the only volume ends, the pack is finished, and its delivery starts. -/
theorem test_staple_done :
    let t := after .stapleDone stapling
    (t.pack 11).state = .delivering ∧ t.stapler.queue = [] ∧ t.ret.command = some (0, 2) := by decide +kernel
theorem test_staple_timeout :
    (after .stapleTimeout (State.atTime stapling 4000)).stapler.state = .faulted := by decide +kernel
theorem test_cartridge_fitted :
    (after .cartridgeFitted { ready with stapler := { ready.stapler with remaining := 3 } }).stapler.remaining = 5000 := by
  decide +kernel
/-- R117, event 2 of the worked example of 08: the fill goes up by the units, the pack is FREE. -/
theorem test_eject_done :
    let t := after .ejectDone delivering
    t.ret.bins[(2 : BinId)].fill = 423 ∧ t.told = [.packDelivered 11 2 ⟨false, false, false⟩ 1]
      ∧ (t.pack 11).state = .free := by decide +kernel
theorem test_eject_timeout :
    (after .ejectTimeout (State.atTime delivering 4000)).ret.state = .faulted := by decide +kernel
theorem test_bin_cleared : (after (.binCleared 2) delivering).ret.bins[(2 : BinId)].fill = 0 := by decide +kernel
theorem test_flash_end :
    let s := after .ejectDone delivering
    (s.lampLit 2, (after (.flashEnd 2) (State.atTime s 400)).lampLit 2) = (false, true) := by decide +kernel
theorem test_inbound_character_taken :
    (after (.inboundCharacterTaken true 1) ready).link.receiver = .assembling false [] := by decide +kernel
theorem test_pacing_character_sent :
    (after .pacingCharacterSent { ready with link := { ready.link with pacing := some .hold } }).link.pacing = none := by
  decide +kernel
theorem test_loopback_echo_sent :
    (after .loopbackEchoSent { ready with link := { ready.link with echoes := [⟨true, 1⟩, ⟨false, 2⟩] } }).link.echoes
      = [⟨false, 2⟩] := by decide +kernel
theorem test_undefined_action_code :
    (after (.undefinedActionCode false (.control 13 0)) ready).told = [.result 0x0B .badValue {} []] := by decide +kernel

/-! ### Witnesses: for each statement, a state and operands that meet its hypotheses, each clause at a boundary -/

/-- A record addressed to this station that stands for command `c` is taken. -/
theorem takesCommand_of {c : Instr} {s : State} {r : Record} (hr : recordOf c = some r) (h : s.takesOwn r) :
    s.takesCommand c := by
  unfold State.takesCommand
  rw [hr]
  exact h

theorem after_of {c : Instr} {s : State} (h : ∃ t, exec c s = .next t) : exec c s = .next (after c s) := by
  obtain ⟨t, ht⟩ := h
  simp only [after, ht]

/-- A safe state with a pack in a pocket, its next sheet about to arrive. -/
def atWork : State := { building with pending := [.arrival (some 5)] }

theorem step_atWork : step atWork = .next (after (.arrival (some 5)) building) :=
  show exec (.arrival (some 5)) building = _ from after_of ⟨_, rfl⟩

/-- For LinkBoundsKept, OutputsFollowKept, PackCountersKept, FreeRecordsStayCleared, ListBoundsKept, RangesKept. -/
theorem witness_invariants_of_the_records :
    (atWork.linkBounded ∧ atWork.attentionFollows ∧ atWork.lampsFollow ∧ atWork.holdFollows ∧ atWork.packsCounted
      ∧ atWork.freeCleared ∧ atWork.canonical ∧ atWork.listsBounded ∧ atWork.inRange)
    ∧ step atWork = .next (after (.arrival (some 5)) building) :=
  ⟨by and_intros <;> decide +kernel, step_atWork⟩
theorem witness_ClassQueuesKept : (atWork.stapleQueueSound ∧ atWork.classQueuesAgree)
    ∧ step atWork = .next (after (.arrival (some 5)) building) := ⟨by decide +kernel, step_atWork⟩
theorem witness_PocketsAgreeKept : (atWork.stapleQueueSound ∧ atWork.pocketsAgree ∧ atWork.returnAgrees)
    ∧ step atWork = .next (after (.arrival (some 5)) building) := ⟨by decide +kernel, step_atWork⟩
theorem witness_PurgesStartAtOnce : atWork.workSound ∧ atWork.purgesPrompt ∧ atWork.workPrompt
    ∧ step atWork = .next (after (.arrival (some 5)) building) :=
  ⟨by and_intros <;> decide +kernel, by decide +kernel,
    ⟨by decide +kernel, by decide +kernel, by decide +kernel, by decide +kernel, nofun⟩, step_atWork⟩
/-- Sound at work of the Stapler, of the Return Unit and of a purge too. -/
theorem witness_PurgesStartAtOnce_work : stapling.workSound ∧ delivering.workSound ∧ restarting.workSound :=
  by and_intros <;> decide +kernel

theorem witness_StepRunsTheFrontCommand :
    ({ ready with pending := [.lineBreak] } : State).pending = .lineBreak :: [] := by decide
/-- None due, one due, eight due. -/
theorem witness_EmptyQueueRunsWhatIsDue :
    State.reset.pending = [] ∧ State.reset.dueEvents = []
      ∧ (State.atTime restarting 4000).dueEvents = [.purgeTimeout 0]
      ∧ 2 ≤ (State.atTime State.reset 4000).dueEvents.length := by decide +kernel
theorem witness_EveryCommandAnswers : (∀ x, Instr.ejectDone ≠ .powerOn x) ∧ ∀ x, Instr.ejectDone ≠ .resetPin x :=
  ⟨nofun, nofun⟩
theorem witness_OnlyWritesAndResetsChangeTheBanks :
    exec .ejectDone delivering = .next (after .ejectDone delivering)
      ∧ (∀ b k i e, Instr.ejectDone ≠ .tableWrite b k i e) ∧ (∀ b k i e, Instr.ejectDone ≠ .markedWrite b k i e)
      ∧ (∀ b, Instr.ejectDone ≠ .groupClose b) ∧ (∀ x, Instr.ejectDone ≠ .powerOn x)
      ∧ (∀ x, Instr.ejectDone ≠ .resetPin x) ∧ ∀ b a, Instr.ejectDone ≠ .resetAll b a :=
  ⟨after_of ⟨_, rfl⟩, nofun, nofun, nofun, nofun, nofun, nofun⟩
theorem witness_HaltIsEnteredAndLeftByItsEvents :
    exec .stopCharacter building = .next (after .stopCharacter building) ∧ building.halted = false
      ∧ (after .stopCharacter building).halted = true
      ∧ (after .stopCharacter building).run.state = .halt .stop .run :=
  ⟨after_of ⟨_, rfl⟩, by decide +kernel⟩
theorem witness_PulsesOnlyInRunAndBypass :
    exec .releaseComesDue (shelved announced) = .next (after .releaseComesDue (shelved announced))
      ∧ (after .releaseComesDue (shelved announced)).releasePulses ≠ (shelved announced).releasePulses :=
  ⟨after_of ⟨_, rfl⟩, by decide +kernel⟩
theorem witness_ReleasesAreSpaced :
    exec .releaseComesDue (shelved announced) = .next (after .releaseComesDue (shelved announced))
      ∧ (shelved announced).inRange :=
  ⟨after_of ⟨_, rfl⟩, by decide +kernel⟩
theorem witness_DeliveriesStartInTurnWithRoom :
    exec .cartridgeFitted finished = .next (after .cartridgeFitted finished)
      ∧ (finished.pack 11).state ≠ .delivering
      ∧ ((after .cartridgeFitted finished).pack 11).state = .delivering :=
  ⟨after_of ⟨_, rfl⟩, by decide +kernel⟩
/-- R123: the pack finished by its last volume comes to wait for room in its full bin. -/
theorem witness_DeliveriesStartInTurnWithRoom_full :
    let full : State := { stapling with ret := { stapling.ret with bins := Vector.replicate 24 (filled 798) } }
    exec .stapleDone full = .next (after .stapleDone full) ∧ full.waitingForRoom 11 = false
      ∧ (after .stapleDone full).waitingForRoom 11 = true :=
  ⟨after_of ⟨_, rfl⟩, by decide +kernel⟩
theorem witness_LivePackKeepsItsAnnouncement : step atWork = .next (after (.arrival (some 5)) building)
    ∧ (atWork.pack 11).state ≠ .free := ⟨step_atWork, by decide +kernel⟩
theorem witness_ColdResetsRestart : building.takesCommand (.resetAll false 0) :=
  takesCommand_of rfl (by decide +kernel)
theorem witness_ResetWorkClearsTheWork :
    (building.takesCommand (.resetWork false 0) ∧ building.attentionFollows ∧ building.stacksSound)
      ∧ ready.takesCommand (.resetWork false 0) ∧ ready.attentionFollows ∧ ready.stacksSound :=
  ⟨⟨takesCommand_of rfl (by decide +kernel), by decide +kernel, by and_intros <;> decide +kernel⟩,
    takesCommand_of rfl (by decide +kernel), by decide +kernel, by and_intros <;> decide +kernel⟩
/-- Every pocket EMPTY and the STOP input low. -/
theorem witness_ResetWorkClearsTheWork_stop :
    let low : State := { ready with pins := { ready.pins with stopHigh := false } }
    low.takesCommand (.resetWork false 0) ∧ low.attentionFollows ∧ low.stacksSound ∧ low.pins.stopHigh = false
      ∧ (allPockets.all fun p => decide (low.pockets[p].state = .empty)) = true :=
  ⟨takesCommand_of rfl (by decide +kernel), by decide +kernel, by and_intros <;> decide +kernel, by decide +kernel⟩
theorem witness_RecordLayoutsRoundTrip :
    (Instr.tableWrite true 3 1000 (List.replicate 57 9)).WellFormed = true
      ∧ recordOf (.tableWrite true 3 1000 (List.replicate 57 9))
        = some ⟨true, 5, 3 :: 0xE8 :: 3 :: List.replicate 57 9⟩ := by decide
/-- Discarded in loopback; discarded broadcast; waiting in STARTING; joining the 32nd place; dropped. -/
theorem witness_RecordsWaitOrAreDiscarded :
    let loop : State := { ready with link := { ready.link with loopback := true } }
    let read : Record := ⟨false, 0x0A, []⟩
    recordOf (.statusRead false) = some read ∧ ready.attentionFollows
      ∧ (loop.takes read ∧ loop.link.loopback = true ∧ read.kind ≠ kindControl)
      ∧ (ready.takes ⟨true, 0x0A, []⟩ ∧ (0x0A : Byte) ≠ kindControl ∧ (0x0A : Byte) ≠ kindTableWrite)
      ∧ ((State.withInbound State.reset [read]).link.inbound.head? = some read
          ∧ (State.withInbound State.reset [read]).handlerReady = false)
      ∧ ((State.withInbound State.reset (List.replicate 31 ⟨false, 3, [1]⟩)).link.inbound.head? ≠ some read
          ∧ (State.withInbound State.reset (List.replicate 31 ⟨false, 3, [1]⟩)).link.inbound ≠ [])
      ∧ (32 ≤ (State.withInbound State.reset (List.replicate 32 ⟨false, 3, [1]⟩)).link.inbound.length
          ∧ State.reset.link.hasRoom = true) := by decide +kernel
theorem witness_BroadcastControlActsWithoutResult : ready.handlerReady = true ∧ ready.link.inbound = [] := by decide +kernel
theorem witness_UndefinedRecordsAreRefused :
    ready.takesCommand (.undefinedRecordKind false 0x40 []) ∧ ready.takesCommand (.undefinedActionCode false (.group 0))
      ∧ ready.attentionFollows :=
  ⟨takesCommand_of rfl (by decide +kernel), takesCommand_of rfl (by decide +kernel), by decide +kernel⟩
/-- Between records, at the kind, at the length (0, 60, 61), in the middle and at the last character. -/
theorem witness_CharactersAreAssembled :
    let at' (got : List Byte) : State := State.withReceiver ready (.assembling false got)
    ready.link.receiver.isAssembling = false ∧ (at' []).link.receiver = .assembling false []
      ∧ (at' [5]).link.receiver = .assembling false [5] ∧ (60 : Byte).toNat ≤ 60 ∧ 60 < (61 : Byte).toNat
      ∧ (at' [5, 4, 1]).link.receiver = .assembling false (5 :: 4 :: [1]) ∧ [(1 : Byte)].length + 1 ≠ (4 : Byte).toNat
      ∧ [(1 : Byte), 2, 3].length + 1 = (4 : Byte).toNat ∧ ready.link.hasRoom = true := by decide +kernel
/-- Room at 31 records, none at 32; a record to this station under assembly. -/
theorem witness_RecordsCompleteOrSpoil :
    (State.withInbound ready (List.replicate 31 ⟨false, 3, [1]⟩)).link.inbound.length < 32
      ∧ 32 ≤ (State.withInbound ready (List.replicate 32 ⟨false, 3, [1]⟩)).link.inbound.length
      ∧ (State.withReceiver ready (.assembling false [])).link.receiver = .assembling false []
      ∧ ready.link.hasRoom = true ∧ ready.attentionFollows
      ∧ frameSound (frameWith ⟨true, true⟩ ⟨false, 3⟩) = false ∧ frameSound (frameWith ⟨false, false⟩ ⟨false, 3⟩) = false
      ∧ frameSound (frameWith ⟨false, true⟩ ⟨false, 3⟩) = true := by decide +kernel
/-- Nothing to send; a record begun; a pacing character due, and an echo waiting, with a record begun and held back. -/
theorem witness_ReplyLineSends :
    let told := after (.run false 0) ready
    let paced : State := { told with link := { told.link with pacing := some .hold, echoes := [⟨true, 1⟩] } }
    let held := after .pacingCharacterSent paced
    (ready.attentionFollows ∧ ready.link.sending = none)
      ∧ (told.attentionFollows ∧ told.link.sending = some 0 ∧ told.link.stalled = false
        ∧ told.link.outbound = [.result kindControl .accepted {} [2]]
        ∧ 0 < (OutRecord.characters told.run.straps.station (.result kindControl .accepted {} [2])).length)
      ∧ (paced.attentionFollows ∧ paced.link.pacing = some .hold ∧ paced.link.sending = some 0)
      ∧ (held.attentionFollows ∧ held.link.pacing = none ∧ held.link.echoes = [⟨true, 1⟩]
        ∧ held.link.stalled = true) := by decide +kernel
theorem witness_LoopbackFlagIsSetAndCleared :
    ready.attentionFollows ∧ ready.takesCommand (.loopbackOn false 0) ∧ ready.takesCommand (.loopbackOff false 0) :=
  ⟨by decide +kernel, takesCommand_of rfl (by decide +kernel), takesCommand_of rfl (by decide +kernel)⟩
theorem witness_StatusReadReportsAndClears :
    (after .stopCharacter building).takesCommand (.statusRead false) ∧ (after .stopCharacter building).attentionFollows :=
  ⟨takesCommand_of rfl (by decide +kernel), by decide +kernel⟩
/-- Each check of R16 and R17 in turn; the pages at 0, 1, 60 and 61. -/
theorem witness_AnnounceIsRefusedInOrder :
    ready.takesCommand (.packAnnounce false 12 1 7 60) ∧ ready.attentionFollows
      ∧ (State.inState ready .bypass).bypassing = true ∧ ready.bypassing = false
      ∧ (12 : Byte).toNat = (11 : Handle).val + 1 ∧ (1 : Byte).toNat = (0 : JobId).val + 1
      ∧ (7 : Half).toNat = (7 : StudentId).val ∧ (32 < (33 : Byte).toNat ∧ 1023 < (1024 : Half).toNat)
      ∧ (announced.pack 11).state ≠ .free ∧ (ready.pack 11).state = .free
      ∧ (State.reset.tables.jobs[(0 : JobId)].isOpen = false ∧ ready.tables.jobs[(0 : JobId)].isOpen = true)
      ∧ (ready.rosterClass 8 = none ∧ ready.rosterClass 7 = some 0)
      ∧ (State.reset.tables.classes[(0 : ClassId)].bin = none ∧ ready.tables.classes[(0 : ClassId)].bin ≠ none)
      ∧ (60 < (61 : Byte).toNat ∧ (60 : Byte).toNat ≤ 60) :=
  ⟨takesCommand_of rfl (by decide +kernel), by decide +kernel⟩
/-- The total at POCKET_MAX and one page above it; at most STAPLE_MAX and one page above it, under REFUSE. -/
theorem witness_AnnounceIsRefusedInOrder_thick :
    let total (s : State) (m : MediaId) (pages : Byte) : Nat :=
      s.tables.media[m] + (pages.toNat - 1) * s.tables.media[m]
    (total ready 4 48 = ready.tables.settings.pocketMax ∧ ready.tables.settings.pocketMax < total ready 4 49)
      ∧ (total ready 0 48 ≤ ready.tables.settings.stapleMax ∧ ready.tables.settings.stapleMax < total ready 0 49
        ∧ ¬(JobEntry.pattern { JobEntry.default with oversize := .refuse } = .none ∨ OversizePolicy.refuse = .split
          ∨ OversizePolicy.refuse = .unstapled))
      ∧ ready.tables.jobs[(0 : JobId)].oversize = .split := by decide +kernel
theorem witness_AnnounceIsAccepted :
    ready.takesCommand (.packAnnounce false 12 1 7 56) ∧ ready.stapleQueueSound ∧ ready.bypassing = false
      ∧ (12 : Byte).toNat = (11 : Handle).val + 1 ∧ (1 : Byte).toNat = (0 : JobId).val + 1
      ∧ (7 : Half).toNat = (7 : StudentId).val ∧ (ready.pack 11).state = .free
      ∧ ready.tables.jobs[(0 : JobId)].isOpen = true ∧ ready.rosterClass 7 = some 0
      ∧ ready.tables.classes[(0 : ClassId)].bin ≠ none ∧ 1 ≤ (56 : Byte).toNat ∧ (56 : Byte).toNat ≤ 60
      ∧ ready.budgetFor ready.tables.jobs[(0 : JobId)] 56 = .fits ⟨5910, ⟨[47, 56], true⟩, 60, false⟩ :=
  ⟨takesCommand_of rfl (by decide +kernel), by decide +kernel⟩
theorem witness_GreedySplitFillsEachVolume :
    1 ≤ 1 ∧ 1000 ≤ 1000 ∧ 600 ≤ 1000 ∧ greedySplit 1000 1 1000 600 = [1] ∧ greedySplit 1000 3 400 600 = [2, 3] := by decide
theorem witness_StackBudgetDecides : (1 : Nat) ≤ 60 := by decide
theorem witness_WithdrawIsDecidedByTheState :
    announced.takesCommand (.packWithdraw false 12) ∧ announced.takesCommand (.packWithdraw false 0)
      ∧ building.takesCommand (.packWithdraw false 12) ∧ delivering.takesCommand (.packWithdraw false 12)
      ∧ ready.takesCommand (.packWithdraw false 12) ∧ announced.attentionFollows ∧ delivering.attentionFollows
      ∧ (12 : Byte).toNat = (11 : Handle).val + 1 ∧ (ready.pack 11).state = .free
      ∧ (delivering.pack 11).state = .delivering ∧ (building.pack 11).state = .opened
      ∧ (announced.pack 11).state = .announced :=
  ⟨takesCommand_of rfl (by decide +kernel), takesCommand_of rfl (by decide +kernel),
    takesCommand_of rfl (by decide +kernel), takesCommand_of rfl (by decide +kernel),
    takesCommand_of rfl (by decide +kernel), by decide +kernel⟩
/-- Nothing live; a place left; four markers outstanding. -/
theorem witness_DrainMarkerIsTaken :
    let full : State := { building with reg := { building.reg with markers := List.replicate 4 ⟨1, [11]⟩ } }
    ready.takesCommand (.drainMarker false 9) ∧ building.takesCommand (.drainMarker false 9)
      ∧ full.takesCommand (.drainMarker false 9)
      ∧ (ready.attentionFollows ∧ ready.live = []) ∧ (building.attentionFollows ∧ building.live ≠ []
      ∧ building.reg.markers.length < 4) ∧ full.attentionFollows ∧ full.live ≠ [] ∧ 4 ≤ full.reg.markers.length :=
  ⟨takesCommand_of rfl (by decide +kernel), takesCommand_of rfl (by decide +kernel),
    takesCommand_of rfl (by decide +kernel), by decide +kernel⟩
/-- Each check of R31 in turn; 5 and 6 entries queued. -/
theorem witness_SheetNoticeIsRefusedInOrder :
    let queued (n : Nat) : State :=
      State.withFeed announced 0 { onlineFeed with queue := List.replicate n ⟨11, 1, 0, 5⟩ }
    announced.takesCommand (.sheetNotice false 1 12 60 3 4095) ∧ announced.attentionFollows
      ∧ ready.takesNotices = false ∧ announced.takesNotices = true
      ∧ (1 ≤ (4 : Byte).toNat ∧ (4 : Byte).toNat ≤ 4 ∧ 1 ≤ (12 : Byte).toNat ∧ (60 : Byte).toNat ≤ 60
        ∧ (3 : Byte).toNat ≤ 3 ∧ (4095 : Half).toNat ≤ 4095)
      ∧ (1 : Byte).toNat = (0 : FeedId).val + 1 ∧ (12 : Byte).toNat = (11 : Handle).val + 1
      ∧ State.reset.feeds[(0 : FeedId)].state ≠ .online
      ∧ (6 ≤ (queued 6).feeds[(0 : FeedId)].queue.length ∧ (queued 5).feeds[(0 : FeedId)].queue.length < 6)
      ∧ (running.pack 11).state = .free ∧ (announced.pack 11).state ≠ .free ∧ (announced.pack 11).state ≠ .disposing
      ∧ (announced.pack 11).gen < (1 : Byte).toNat :=
  ⟨takesCommand_of rfl (by decide +kernel), by decide +kernel⟩
theorem witness_SheetNoticeIsAccepted :
    announced.takesCommand (.sheetNotice false 1 12 60 0 4095) ∧ announced.takesNotices = true
      ∧ (1 : Byte).toNat = (0 : FeedId).val + 1 ∧ (12 : Byte).toNat = (11 : Handle).val + 1
      ∧ announced.feeds[(0 : FeedId)].state = .online ∧ announced.feeds[(0 : FeedId)].queue.length < 6
      ∧ (announced.pack 11).state ≠ .free ∧ (announced.pack 11).state ≠ .disposing
      ∧ (0 : Byte).toNat ≤ (announced.pack 11).gen :=
  ⟨takesCommand_of rfl (by decide +kernel), by decide +kernel⟩
theorem witness_FeedFlushEmptiesTheQueue :
    ready.takesCommand (.feedFlush false 5) ∧ ready.takesCommand (.feedFlush false 4) ∧ ready.attentionFollows
      ∧ 4 < (5 : Byte).toNat ∧ (4 : Byte).toNat = (3 : FeedId).val + 1 :=
  ⟨takesCommand_of rfl (by decide +kernel), takesCommand_of rfl (by decide +kernel), by decide +kernel⟩
/-- An expired wait, 2000 ms after its start, and one a millisecond short of it. -/
theorem witness_ShelfEventsAndWaits :
    let waiting : State := State.withFeed running 0 { onlineFeed with shelf := .present, wait := some 0 }
    ready.pins.sheetPresent[(0 : FeedId)] = false
      ∧ waiting.feeds[(0 : FeedId)].wait = some 0 ∧ waiting.waitHolds 0 = true
      ∧ (waiting.tables.settings.noticeWait : Int) ≤ elapsed (State.atTime waiting 2000).now 0
      ∧ elapsed (State.atTime waiting 1999).now 0 < (waiting.tables.settings.noticeWait : Int) := by decide +kernel
/-- A COLLATE for an OPEN pack with room for the sheet, its last page stapled; a DISCARD; a PASS. -/
theorem witness_ArrivalOfTheHeadIsTaken :
    building.halted = false ∧ building.arb.inFlight = [flight 2 0 .collate] ∧ building.stapleQueueSound
      ∧ (flight 2 0 .collate).tag = .num 5 ∧ (flight 2 0 .collate).handle = some 11
      ∧ ((building.pack 11).state = .opened ∧ (building.pack 11).gen = (flight 2 0 .collate).gen
        ∧ (building.pack 11).pocket = some 0 ∧ (building.pack 11).received < (building.pack 11).released
        ∧ building.pockets[(0 : PocketId)].state ≠ .empty
        ∧ (building.pack 11).received + 1 = (building.pack 11).pages
        ∧ (building.pack 11).snap.plan.stapled = true)
      ∧ { building.stapler with state := StaplerState.faulted }.state ≠ .idle
      ∧ (flight 2 0 .discard).disp = .discard ∧ (flight 2 0 .pass).disp = .pass := by decide +kernel
/-- The last page with the Stapler IDLE, and the page before it, which ends the first of two volumes. -/
theorem witness_ArrivalOfTheHeadIsTaken_stack :
    let r : PackRec := { packOf .opened (some 0) 2 1 with snap := ⟨190, 104, .corner, .hold, ⟨[2, 3], true⟩⟩, pages := 3 }
    let first : State := { building with reg := { building.reg with packs := [(11, r)] } }
    ((building.pocketsAgree ∧ building.stacksSound) ∧ building.stapler.state = .idle
        ∧ building.stapler.command = none ∧ building.starting = false)
      ∧ (first.pocketsAgree ∧ first.stacksSound) ∧ first.stapleQueueSound ∧ (first.pack 11).received + 1 ≠ (first.pack 11).pages
      ∧ (first.pack 11).snap.plan.ends[first.pockets[(0 : PocketId)].volume - 1]? = some ((first.pack 11).received + 1) :=
  by and_intros <;> decide +kernel
/-- In HALT; on an empty list; another sheet; the second entry's sheet. -/
theorem witness_ArrivalOfAnotherSheetIsRejected :
    let second : InFlight := { flight 1 0 .collate with handle := some 12, tag := .num 9 }
    (State.inState building (.halt .stop .run)).halted = true ∧ building.attentionFollows
      ∧ (running.halted = false ∧ running.arb.inFlight = [])
      ∧ (flight 2 0 .collate).meets (some 9) = false
      ∧ (State.withFlight building [flight 2 0 .collate, second]).arb.inFlight = flight 2 0 .collate :: [second]
      ∧ second.isNumbered (some 9) = true ∧ building.takesRestart 11 0 = true
      ∧ (flight 2 0 .collate).handle ≠ second.handle := by decide +kernel
theorem witness_DeadlineExpiryJams :
    ready.watchesDeadlines = false ∧ building.watchesDeadlines = true ∧ running.arb.inFlight = []
      ∧ building.arb.inFlight = flight 2 0 .collate :: [] ∧ building.takesRestart 11 0 = true
      ∧ isBefore (State.atTime building 1249).now (flight 2 0 .collate).deadline = true
      ∧ isBefore (State.atTime building 1250).now (flight 2 0 .collate).deadline = false := by decide +kernel
/-- An OPEN pack's sheet and a DISCARD late, with a volume operation, a delivery and a purge under way. -/
theorem witness_DeadlineExpiryJams_cutOff :
    (building.stapleQueueSound ∧ building.pocketsAgree ∧ building.stacksSound ∧ (building.pack 11).state = .opened)
      ∧ (stapling.stapleQueueSound ∧ stapling.pocketsAgree ∧ stapling.stacksSound ∧ stapling.volumeInFlight.isSome = true)
      ∧ (delivering.stapleQueueSound ∧ delivering.pocketsAgree ∧ delivering.stacksSound
        ∧ delivering.deliveryInFlight.isSome = true)
      ∧ (flight 2 0 .discard).disp ≠ .collate :=
  by and_intros <;> decide +kernel

/-- A feed's waiting head that blocks the merge: page 3 of pack 12 before its page 2. -/
def blocked (q : List StagingEntry) : State :=
  let s := State.withFeed (State.withPack (State.withFlight running []) 11 { packOf .opened (some 0) 1 1 with pages := 4 })
    0 { onlineFeed with queue := q, shelf := .present }
  let s1 := State.withPocket s 0 (houseOf .collating 1 190)
  { s1 with arb := { s1.arb with blockTimer := some 0 } }

/-- Before the expiry and at it; the first break action, the second, the third and the last. -/
theorem witness_BlockTimerBreaksTheBlock :
    let own := blocked [⟨11, 3, 0, 5⟩, ⟨11, 2, 0, 6⟩]
    let lone := blocked [⟨11, 3, 0, 5⟩]
    (own.stapleQueueSound ∧ own.pocketsAgree ∧ lone.stapleQueueSound ∧ lone.pocketsAgree)
      ∧ own.arb.blockTimer = some 0 ∧ own.blockHolds = true ∧ running.arb.blockTimer = none
      ∧ elapsed (State.atTime own 9999).now 0 < (own.tables.settings.blockTime * 1000 : Int)
      ∧ (own.tables.settings.blockTime * 1000 : Int) ≤ elapsed (State.atTime own 10000).now 0
      ∧ allFeeds.findSome? own.selfBlocked = some 11 ∧ allFeeds.findSome? lone.selfBlocked = none
      ∧ firstBy lone.olderHead (allFeeds.filter lone.waitsForPocket) = none
      ∧ firstBy lone.older (lone.live.filter lone.breakable) = none
      ∧ lone.blockHolds = true
      ∧ firstBy lone.lessDone (lone.live.filter fun h => decide ((lone.pack h).state = .opened)) = some 11 :=
  by and_intros <;> decide +kernel

/-- One EMPTY pocket, wanted by pack 13, which is not the head of its class. -/
def reserved : State :=
  let s := State.withPack finished 12 { packOf .announced none 0 0 with serial := 1 }
  let s1 := State.withFeed s 0 { onlineFeed with queue := [⟨12, 1, 0, 5⟩], shelf := .present }
  { s1 with
    pockets := ((Vector.replicate 8 { emptyPocket with state := .outOfService, cause := .written }).set 1 emptyPocket).set 0
      (houseOf .held 2 294)
    arb := { s1.arb with blockTimer := some 0 } }

theorem witness_BlockTimerBreaksTheBlock_pick :
    reserved.stapleQueueSound ∧ reserved.pocketsAgree ∧ reserved.blockHolds = true ∧ allFeeds.findSome? reserved.selfBlocked = none
      ∧ firstBy reserved.olderHead (allFeeds.filter reserved.waitsForPocket) = some 0
      ∧ reserved.headHandle 0 = some 12 := by decide +kernel
theorem witness_BlockTimerBreaksTheBlock_delivery :
    let s := State.withPocket (State.withPack (blocked [⟨11, 3, 0, 5⟩]) 12
      { packOf .ready (some 1) 2 2 with serial := 1 }) 1 { houseOf .held 2 294 with pack := some 12 }
    s.stapleQueueSound ∧ s.pocketsAgree ∧ s.blockHolds = true ∧ firstBy s.olderHead (allFeeds.filter s.waitsForPocket) = none
      ∧ firstBy s.older (s.live.filter s.breakable) = some 12 := by decide +kernel
/-- A queued head; a pending discard; a sheet in BYPASS. -/
theorem witness_ReleasesAreMadeWhileOneIsDue :
    let queued := shelved announced
    let discard := State.withFeed running 0 { onlineFeed with shelf := .present, discard := true }
    let passing := State.inState (State.withFeed ready 0 { onlineFeed with shelf := .present }) .bypass
    (queued.stapleQueueSound ∧ queued.pocketsAgree ∧ ((Work.of queued).boundALast.dropPick).choose = some 0
        ∧ queued.run.state ≠ .bypass ∧ queued.feeds[(0 : FeedId)].discard = false
        ∧ queued.feeds[(0 : FeedId)].queue = ⟨11, 1, 0, 5⟩ :: [])
      ∧ (discard.stapleQueueSound ∧ discard.pocketsAgree ∧ ((Work.of discard).boundALast.dropPick).choose = some 0
        ∧ discard.run.state ≠ .bypass ∧ discard.feeds[(0 : FeedId)].discard = true)
      ∧ (passing.stapleQueueSound ∧ passing.pocketsAgree ∧ ((Work.of passing).boundALast.dropPick).choose = some 0
        ∧ passing.run.state = .bypass) :=
  by and_intros <;> decide +kernel
/-- Two heads due: the older pack's, and of one pack the lower feed's; a DISCARD before them; the break pick. -/
theorem witness_ReleasesAreMadeWhileOneIsDue_choice :
    let two : State := State.withFeed (State.withPack (shelved announced) 12 { packOf .announced none 0 0 with serial := 1 }) 2
      { onlineFeed with queue := [⟨12, 1, 0, 6⟩], shelf := .present }
    let same : State := State.withFeed (shelved announced) 2 { onlineFeed with queue := [⟨11, 1, 0, 6⟩], shelf := .present }
    let plain : State := State.withFeed two 3 { onlineFeed with shelf := .present, discard := true }
    let picked : State := { two with arb := { two.arb with pick := some (2, 12) } }
    (two.arb.pick = none ∧ two.choose = some 0) ∧ same.choose = some 0 ∧ plain.choose = some 3
      ∧ picked.choose = some 2 ∧ picked.pickStands 2 12 = true ∧ (shelved announced).pickStands 2 12 = false := by
  decide +kernel
/-- A purge not running; one running, a millisecond before its allowance passes and as it passes. -/
theorem witness_PurgesEnd :
    ready.stapleQueueSound ∧ restarting.stapleQueueSound
      ∧ ¬(ready.pockets[(0 : PocketId)].state = .purging ∧ ready.pockets[(0 : PocketId)].purge = .running)
      ∧ (restarting.pockets[(0 : PocketId)].state = .purging ∧ restarting.pockets[(0 : PocketId)].purge = .running)
      ∧ restarting.pockets[(0 : PocketId)].pack = some 11 ∧ (restarting.pack 11).state = .restarting
      ∧ elapsed (State.atTime restarting 3999).now 0 < (restarting.pockets[(0 : PocketId)].purgeAllowance : Int)
      ∧ (restarting.pockets[(0 : PocketId)].purgeAllowance : Int) ≤ elapsed (State.atTime restarting 4000).now 0 := by
  decide +kernel
theorem witness_PurgesEnd_pockets : ready.pocketsAgree ∧ restarting.pocketsAgree := by decide +kernel
/-- The last purge of a start-up, with a STOP input low, and one that is not the last. -/
theorem witness_PurgesEnd_startUp :
    let one : State := { ready with
      run := { ready.run with state := .starting .pin false }, pins := { ready.pins with stopHigh := false }
      pockets := ready.pockets.set 3 (PocketRec.startUp 0 4000) }
    (one.stapleQueueSound ∧ one.pocketsAgree ∧ one.run.state = .starting .pin false
        ∧ (one.pockets[(3 : PocketId)].state = .purging ∧ one.pockets[(3 : PocketId)].purge = .running)
        ∧ (allPockets.all fun q => decide (q = 3) || decide (one.pockets[q].state ≠ .purging)) = true)
      ∧ (allPockets.all fun q => decide (q = 3) || decide (State.reset.pockets[q].state ≠ .purging)) = false := by
  decide +kernel
/-- A DISPOSING pack that one of two markers watches alone. -/
theorem witness_PurgesEnd_markers :
    let s := State.withPocket (State.withPack running 11 (packOf .disposing (some 0) 2 1)) 0
      { houseOf .purging 1 190 with purge := .running }
    let marked : State := { s with reg := { s.reg with markers := [⟨7, [11]⟩, ⟨8, [11, 12]⟩] } }
    marked.stapleQueueSound ∧ marked.pocketsAgree ∧ marked.pockets[(0 : PocketId)].pack = some 11
      ∧ (marked.pack 11).state = .disposing ∧ marked.drainsOf 11 = [.drainComplete 7]
      ∧ marked.markersWithout 11 = [⟨8, [12]⟩] := by decide +kernel
/-- The same with another record for the pack in hand and another count of staples. -/
def State.withStapled (s : State) (r : PackRec) (n : Nat) : State :=
  { s with reg := { s.reg with packs := [(11, r)] }, stapler := { s.stapler with remaining := n } }

/-- A two-volume pack under the staples-out policy given, its volumes to be stapled. -/
def twoVolumes (policy : StaplesOutPolicy) : PackRec :=
  { packOf .stapling (some 0) 2 2 with snap := ⟨190, 104, .corner, policy, ⟨[1, 2], true⟩⟩ }

/-- No operation in flight; the last volume; a volume with another after it, its staples enough and short under either
policy; a pack restarted meanwhile; the allowance. -/
theorem witness_VolumeOperationsEnd :
    let more (policy : StaplesOutPolicy) (n : Nat) : State := State.withStapled stapling (twoVolumes policy) n
    let gone : State := after (.packWithdraw false 12) stapling
    ready.volumeInFlight = none
      ∧ (∃ k ∈ stapling.volumeInFlight, stapling.stillStapling k = true ∧ (stapling.pack k.handle).volumes ≤ k.volume
        ∧ elapsed (State.atTime stapling 3999).now k.start < (k.allowance : Int)
        ∧ (k.allowance : Int) ≤ elapsed (State.atTime stapling 4000).now k.start) ∧ stapling.starting = false
      ∧ (∀ x ∈ [(StaplesOutPolicy.hold, 1), (.hold, 0), (.deliverUnstapled, 0)],
        ∃ k ∈ (more x.1 x.2).volumeInFlight, (more x.1 x.2).stillStapling k = true
        ∧ k.volume < ((more x.1 x.2).pack k.handle).volumes ∧ (more x.1 x.2).stapler.queue.head? = some k.handle
        ∧ ((more x.1 x.2).pack k.handle).snap.staplesOut = x.1 ∧ (more x.1 x.2).stapler.remaining = x.2
        ∧ patternCount ((more x.1 x.2).pack k.handle).snap.pattern = 1 ∧ (more x.1 x.2).mayStart = true)
      ∧ ∃ k ∈ gone.volumeInFlight, gone.stillStapling k = false ∧ gone.starting = false :=
  by and_intros <;> decide +kernel
theorem witness_VolumeOperationsEnd_sound :
    let gone : State := after (.packWithdraw false 12) stapling
    (stapling.stapleQueueSound ∧ stapling.pocketsAgree) ∧ (gone.stapleQueueSound ∧ gone.pocketsAgree)
      ∧ ∀ x ∈ [(StaplesOutPolicy.hold, 1), (.hold, 0), (.deliverUnstapled, 0)],
        (State.withStapled stapling (twoVolumes x.1) x.2).stapleQueueSound
          ∧ (State.withStapled stapling (twoVolumes x.1) x.2).pocketsAgree :=
  by and_intros <;> decide +kernel
/-- The Stapler in work and in each of its other states, in HALT too. -/
theorem witness_CartridgeAndClearStapler :
    let wait : State := { stapling with stapler := { stapling.stapler with
      state := .waitingCartridge, remaining := 0, command := none
      work := some { handle := 11, gen := 0, volume := 1, stapled := 0, op := .none, start := 0, allowance := 4000 } } }
    let faulted := after .stapleTimeout (State.atTime stapling 4000)
    (ready.takesCommand (.clearStapler false 0) ∧ ready.stapler.state ≠ .faulted ∧ ready.attentionFollows)
      ∧ (faulted.takesCommand (.clearStapler false 0) ∧ faulted.stapler.state = .faulted ∧ faulted.starting = false
        ∧ faulted.mayStart = true ∧ faulted.stapler.queue.head? = some 11)
      ∧ (stapling.stapler.state = .stapling ∧ stapling.starting = false)
      ∧ (ready.stapler.state = .idle ∧ ready.stapler.command = none ∧ ready.starting = false)
      ∧ (wait.stapler.state = .waitingCartridge ∧ wait.stapler.command = none ∧ wait.starting = false
        ∧ wait.mayStart = true ∧ wait.stapler.queue.head? = some 11)
      ∧ (State.inState wait (.halt .stop .run)).halted = true ∧ (State.inState wait (.halt .stop .run)).mayStart = false
      ∧ (State.reset.starting = true ∧ State.reset.anyPurging = true)
      ∧ (ready.stapleQueueSound ∧ ready.pocketsAgree) ∧ (wait.stapleQueueSound ∧ wait.pocketsAgree)
      ∧ faulted.stapleQueueSound ∧ faulted.pocketsAgree :=
  ⟨⟨takesCommand_of rfl (by decide +kernel), by and_intros <;> decide +kernel⟩,
    ⟨takesCommand_of rfl (by decide +kernel), by decide +kernel⟩, by and_intros <;> decide +kernel⟩
theorem witness_DeliveriesEnd_pocket : delivering.stapleQueueSound ∧ delivering.pocketsAgree ∧ delivering.returnAgrees
    ∧ stuck.stapleQueueSound ∧ stuck.pocketsAgree ∧ stuck.returnAgrees :=
  by and_intros <;> decide +kernel
theorem witness_DeliveriesEnd :
    ready.deliveryInFlight = none
      ∧ (∃ d ∈ delivering.deliveryInFlight, (delivering.pack d.handle).state = .delivering
        ∧ (delivering.pack d.handle).gen = d.gen
        ∧ elapsed (State.atTime delivering 3999).now d.start < (d.allowance : Int)
        ∧ (d.allowance : Int) ≤ elapsed (State.atTime delivering 4000).now d.start) ∧ delivering.starting = false
      ∧ State.drainsOf { delivering with reg := { delivering.reg with markers := [⟨7, [11]⟩] } } 11
        = [.drainComplete 7] := by decide +kernel
/-- Outcomes 0, 1, 2 and 3 on a FAULTED Return Unit; a pack under the limit and at it. -/
theorem witness_ClearReturnSettlesTheDelivery :
    ready.takesCommand (.clearReturn false 1) ∧ stuck.takesCommand (.clearReturn false 0)
      ∧ stuck.takesCommand (.clearReturn false 1) ∧ stuck.takesCommand (.clearReturn false 2)
      ∧ stuck.takesCommand (.clearReturn false 3) ∧ ready.ret.state ≠ .faulted ∧ ready.attentionFollows
      ∧ stuck.attentionFollows ∧ stuck.ret.state = .faulted
      ∧ (∃ d ∈ stuck.ret.delivery, (stuck.pack d.handle).state = .delivering ∧ (stuck.pack d.handle).gen = d.gen)
      ∧ (stuck.pack 11).gen < stuck.tables.settings.restartLimit :=
  ⟨takesCommand_of rfl (by decide +kernel), takesCommand_of rfl (by decide +kernel),
    takesCommand_of rfl (by decide +kernel), takesCommand_of rfl (by decide +kernel),
    takesCommand_of rfl (by decide +kernel), by decide +kernel⟩
theorem witness_BinsAreClearedAndFlashesEnd :
    let flashing := after .ejectDone delivering
    ready.ret.bins[(2 : BinId)].flash = none ∧ flashing.ret.bins[(2 : BinId)].flash = some 0
      ∧ elapsed (State.atTime flashing 399).now 0 < 400 ∧ 400 ≤ elapsed (State.atTime flashing 400).now 0
      ∧ flashing.attentionFollows := by decide +kernel
/-- A bank and an index just outside, and the last index of the Roster. -/
theorem witness_TableReadCarriesTheEntries :
    ready.takesCommand (.tableRead false 3 1023 53) ∧ ready.takesCommand (.tableRead false 11 1 1) ∧ ready.attentionFollows
      ∧ (10 < (11 : Byte).toNat ∧ 1 ≤ (3 : Byte).toNat ∧ (3 : Byte).toNat ≤ 10)
      ∧ (bankFirst 3 + bankCount 3 ≤ (1024 : Half).toNat ∧ (1023 : Half).toNat < bankFirst 3 + bankCount 3)
      ∧ (0 : Half).toNat < bankFirst 2 ∧ bankFirst 3 ≤ (0 : Half).toNat :=
  ⟨takesCommand_of rfl (by decide +kernel), takesCommand_of rfl (by decide +kernel), by decide +kernel⟩
/-- The checks of R154 in turn: the apply class in RUN, an undefined code, a pocket in use. -/
theorem witness_TableWriteIsRefusedInOrder :
    let class1 := writeItems 2 1 1 [25, 0, 0]
    let pocket1 := writeItems 10 1 1 [0, 0, 0, 0, 0, 0, 0, 0, 0]
    recordOf (.tableWrite false 2 1 [25, 0, 0]) = some ⟨false, 5, [2, 1, 0, 25, 0, 0]⟩
      ∧ ready.takes ⟨false, 5, [2, 1, 0, 25, 0, 0]⟩ ∧ ready.link.loopback = false ∧ ready.attentionFollows
      ∧ (isIndex 2 49 = false ∧ isIndex 2 48 = true)
      ∧ (bankWriteLimit 2 < 57 / bankEntrySize 2 ∧ 54 / bankEntrySize 2 ≤ bankWriteLimit 2 ∧ 55 % bankEntrySize 2 ≠ 0)
      ∧ (pocket1.map fun x => running.meetsApplyClass x.write) = [false]
      ∧ (class1.map fun x => (ready.meetsApplyClass x.write, x.defined)) = [(true, false)]
      ∧ firstInUse (State.inState finished .standby) (pocket1.map WriteItem.write) = some 1 := by decide +kernel
/-- Written where no group is open, staged at the 16th place, refused at the 17th. -/
theorem witness_TableWriteIsWrittenOrStaged :
    recordOf (.tableWrite false 2 48 [3, 0, 0, 3, 0, 0]) = some ⟨false, 5, [2, 48, 0, 3, 0, 0, 3, 0, 0]⟩
      ∧ ready.takes ⟨false, 5, [2, 48, 0, 3, 0, 0, 3, 0, 0]⟩ ∧ ready.link.loopback = false ∧ ready.stapleQueueSound
      ∧ isIndex 2 48 = true ∧ countSuits 2 [3, 0, 0, 3, 0, 0] = true
      ∧ ready.refuses (writeItems 2 48 2 [3, 0, 0, 3, 0, 0]) = none ∧ (writeItems 2 48 2 [3, 0, 0, 3, 0, 0]).length = 1
      ∧ ready.tables.group = none ∧ (after (.groupOpen false) ready).tables.group = some []
      ∧ 15 + 1 ≤ 16 ∧ 16 < 16 + 1 := by decide +kernel
theorem witness_MarkGuardsOneWrite :
    let marked := after (.tableMark false 2 1) ready
    ready.takesCommand (.tableMark false 2 1) ∧ marked.takesCommand (.markedWrite false 2 1 [3, 0, 0])
      ∧ ready.takesCommand (.markedWrite false 2 1 [3, 0, 0]) ∧ ready.attentionFollows ∧ marked.attentionFollows
      ∧ refAt 2 1 = some (.cls 0) ∧ ready.tables.mark ≠ some (.cls 0) ∧ marked.tables.mark = some (.cls 0)
      ∧ marked.refuses [writeItem 1 (.cls 0) [25, 0, 0]] = some (.badValue, 1)
      ∧ marked.refuses [writeItem 1 (.cls 0) [3, 0, 0]] = none ∧ marked.stapleQueueSound ∧ marked.pocketsAgree
      ∧ [(3 : Byte), 0, 0].length = bankEntrySize (2 : Byte).toNat :=
  ⟨takesCommand_of rfl (by decide +kernel), takesCommand_of rfl (by decide +kernel),
    takesCommand_of rfl (by decide +kernel), by decide +kernel⟩
/-- A group that passes its close, and one whose second write finds a pocket in use. -/
theorem witness_EditGroupIsAppliedWhole :
    let class1 : Staged := ⟨.cls 0, 1, .cls ⟨some 4, .ordered⟩⟩
    let pocket1 : Staged := ⟨.pocket 0, 1, .pocket false⟩
    let still := State.inState finished .standby
    ready.takesCommand (.groupOpen false) ∧ ready.takesCommand (.groupDiscard false)
      ∧ ready.takesCommand (.groupClose false) ∧ ready.attentionFollows ∧ ready.stapleQueueSound
      ∧ (ready.meetsApplyClass class1 && ready.passesWork class1) = true
      ∧ (still.meetsApplyClass class1 && still.passesWork class1) = true
      ∧ ((still.writeAll [class1]).meetsApplyClass pocket1 && (still.writeAll [class1]).passesWork pocket1) = false :=
  ⟨takesCommand_of rfl (by decide +kernel), takesCommand_of rfl (by decide +kernel),
    takesCommand_of rfl (by decide +kernel), by decide +kernel⟩
theorem witness_RunStateActionsAreTaken :
    ready.takesCommand (.run false 0) ∧ running.takesCommand (.pause false 0) ∧ building.takesCommand (.standby false 0)
      ∧ ready.takesCommand (.bypass false 0) ∧ running.takesCommand (.run false 0) ∧ ready.attentionFollows
      ∧ ready.run.state = .standby ∧ running.run.state = .run ∧ running.attentionFollows :=
  ⟨takesCommand_of rfl (by decide +kernel), takesCommand_of rfl (by decide +kernel),
    takesCommand_of rfl (by decide +kernel), takesCommand_of rfl (by decide +kernel),
    takesCommand_of rfl (by decide +kernel), by decide +kernel⟩
/-- STOP in STARTING, in HALT and in RUN; RESUME refused and taken, with an entry to flush and work cut off. -/
theorem witness_StopHaltsAndResumeReturns :
    let halted := after .stopCharacter building
    let cut := after .stopCharacter stapling
    (State.reset.run.state = .starting .powerOn false ∧ State.reset.anyPurging = true ∧ State.reset.pins.stopHigh = true)
      ∧ halted.halted = true ∧ resumeTargetOf running.run.state = some .run
      ∧ running.takesCommand (.resume false 0) ∧ running.halted = false ∧ running.attentionFollows
      ∧ halted.takesCommand (.resume false 0) ∧ halted.run.state = .halt .stop .run ∧ halted.pins.stopHigh = true
      ∧ (∃ e ∈ halted.arb.inFlight, e.disp = .collate ∧ e.handle = some 11)
      ∧ (∀ e ∈ halted.arb.inFlight, e.gen = (halted.pack 11).gen) ∧ halted.takesRestart 11 (halted.pack 11).gen = true
      ∧ (∃ k ∈ cut.stapler.work, cut.stapler.state = .idle ∧ k.op = .cutOff ∧ cut.stapler.queue.head? = some k.handle
        ∧ cut.stillStapling k = true ∧ cut.arb.inFlight = [] ∧ (cut.pack k.handle).pocket = some 0
        ∧ patternCount (cut.pack k.handle).snap.pattern ≤ cut.stapler.remaining)
      ∧ (∃ d ∈ (after .stopCharacter delivering).ret.delivery, d.op = .cutOff) :=
  ⟨by decide +kernel, by decide +kernel, by decide +kernel, takesCommand_of rfl (by decide +kernel), by decide +kernel,
    by decide +kernel, takesCommand_of rfl (by decide +kernel), by decide +kernel⟩

/-- The STOP input low: a fall of it, a rise of it, and a RESUME refused in HALT. -/
theorem witness_StopHaltsAndResumeReturns_low :
    let low := after .stopInputFall building
    low.pins.stopHigh = false ∧ low.attentionFollows ∧ low.halted = true ∧ low.takesCommand (.resume false 0) :=
  ⟨by decide +kernel, by decide +kernel, by decide +kernel, takesCommand_of rfl (by decide +kernel)⟩

/-- A cut-off volume found short at RESUME. -/
theorem witness_StopHaltsAndResumeReturns_short :
    let cut : State := after .stopCharacter (State.withStapled stapling (twoVolumes .hold) 0)
    cut.stapleQueueSound ∧ cut.pocketsAgree ∧ cut.stapler.state = .idle
      ∧ (∃ k ∈ cut.stapler.work, k.op = .cutOff ∧ cut.stapler.queue.head? = some k.handle ∧ cut.stillStapling k = true
        ∧ cut.stapler.remaining < patternCount (cut.pack k.handle).snap.pattern) ∧ cut.arb.inFlight = [] :=
  by and_intros <;> decide +kernel

end Sys2Proof.Tests
end

section
/-! SUPPORT. A record that is taken with a Result to come (`State.takesOwn`): the state its block works on, and what the
end of the step queues. -/

namespace Sys2Proof.Machine

/-! ### The state a record is taken from (R166, R170) -/

/-- Taking a record from where it stood changes the Link Port alone. -/
theorem State.taken_eq_withLink (s : State) (r : Record) : s.taken r = { s with link := (s.taken r).link } := by
  unfold State.taken
  split <;> rfl

/-- The judging of HOLD changes nothing but HOLD and the pacing character due. -/
theorem LinkPort.judgeTake_eq (l : LinkPort) (v : Settings) :
    l.judgeTake v = { l with hold := (l.judgeTake v).hold, pacing := (l.judgeTake v).pacing } := by
  unfold LinkPort.judgeTake
  split <;> rfl

theorem State.dequeue_told (s : State) : s.dequeue.told = s.told := by
  simp only [State.told, State.dequeue]
  rw [LinkPort.judgeTake_eq]

theorem State.dequeue_loopback (s : State) : s.dequeue.link.loopback = s.link.loopback := by
  simp only [State.dequeue]
  rw [LinkPort.judgeTake_eq]

@[simp] theorem State.taken_told (s : State) (r : Record) : (s.taken r).told = s.told := by
  unfold State.taken
  split
  · exact s.dequeue_told
  · simp [State.told]

@[simp] theorem State.taken_loopback (s : State) (r : Record) : (s.taken r).link.loopback = s.link.loopback := by
  unfold State.taken
  split
  · exact s.dequeue_loopback
  · simp

theorem State.taken_attentionFollows {s : State} {r : Record} (h : s.attentionFollows) :
    (s.taken r).attentionFollows := by
  rw [State.taken_eq_withLink]
  exact h

/-- Outside Control a record that is answered is one taken outside loopback, and its block works on the state it was
taken from (R167, R171, R175). -/
theorem State.takeRecord_own {s : State} {r : Record} (body : Work → Work) (h : s.takesOwn r)
    (hk : r.kind ≠ kindControl) : s.takeRecord r body = (body (Work.of (s.taken r))).finish := by
  obtain ⟨ht, hb, hl⟩ := h
  have hoff : (Work.of (s.taken r)).link.loopback = false := by
    simpa using mt hl hk
  rw [State.takeRecord_taken body ht, handleRecord_own body hb hoff]

/-! ### The end of the step (R172, R180) -/

/-- An output that follows the latches already is left as it stands (R179). -/
theorem Work.judgeAttention_of_follows {w : Work} (h : w.attentionFollows) : w.judgeAttention = w := by
  have ho : w.attentionDue = w.attn.output := h.symm
  rw [Work.judgeAttention, ho, if_neg (by simp)]
  rfl

/-- A step whose only effect is a Result queues that Result, and the reply line goes on. -/
theorem Work.finish_answer {s : State} (hf : s.attentionFollows) (k : Byte) (st : Status) (d : List Byte)
    (n : Notes) :
    ((Work.of s).answer k st d n).finish = { s with link := (s.link.keep (.result k st n d)).boundary } := by
  have hj : ((Work.of s).answer k st d n).judgeAttention = (Work.of s).answer k st d n :=
    Work.judgeAttention_of_follows hf
  have hq : ((Work.of s).answer k st d n).queued
      = ((Work.of s).answer k st d n).keepOpt (some (.result k st n d)) := by
    rw [Work.queued, show ((Work.of s).answer k st d n).sendNotices = (Work.of s).answer k st d n from rfl, hj]
    rfl
  rw [Work.finish, hq]
  rfl

/-- A port that has only queued records differs in the queues and in where the reply line stands. -/
theorem LinkPort.Queues.eq_with {l m : LinkPort} (h : l.Queues m) :
    m = { l with outbound := m.outbound, held := m.held, sending := m.sending, stalled := m.stalled } := by
  obtain ⟨hr, hi, hh, hp, hl, he, hn, hb, -⟩ := h
  cases m
  cases hr; cases hi; cases hh; cases hp; cases hl; cases he; cases hn; cases hb
  rfl

/-- A step whose only effect is a Result changes nothing else. -/
theorem State.onlyTells_answer {s : State} (hf : s.attentionFollows) (k : Byte) (st : Status) (d : List Byte)
    (n : Notes) : s.onlyTells ((Work.of s).answer k st d n).finish (.result k st n d) := by
  rw [Work.finish_answer hf]
  refine ⟨?_, ?_⟩
  · simp [State.told, LinkPort.keep_order]
  · have h := ((s.link.keep_queues (.result k st n d)).trans (LinkPort.boundary_queues _)).eq_with
    exact congrArg (fun l => { s with link := l }) h

/-- The Result formed is queued behind all that was queued when the step began. -/
theorem Work.finish_tells {s : State} {w : Work} {r : Reply} (hs : w.told = s.told) (h : w.reply = some r) :
    s.tells w.finish r.record := by
  obtain ⟨x, hx⟩ := (w.sendNotices_ends.trans (Work.judgeAttention_ends _)).queues.order
  have hk := LinkPort.keep_order w.sendNotices.judgeAttention.link r.record
  obtain ⟨y, hy⟩ := ((Work.keepDrains_ends (w.sendNotices.judgeAttention.keepOpt (some r.record))).trans
    (Work.keepOpt_ends _ (w.report.map Report.record))).queues.order
  have hq : w.queued = ((w.sendNotices.judgeAttention.keepOpt (some r.record)).keepDrains).keepOpt
      (w.report.map Report.record) := by rw [Work.queued, h, Option.map_some]
  refine ⟨x, y, ?_⟩
  calc w.finish.told = w.queued.told := by simp [State.told, Work.finish]
    _ = (w.link.outbound ++ w.link.held ++ x ++ [r.record]) ++ y := by
      rw [← hx, ← hk, hq]
      exact hy
    _ = w.told ++ x ++ r.record :: y := by simp [State.told]
    _ = s.told ++ x ++ r.record :: y := by rw [hs]

theorem Work.told_of_frame {v w : Work} (h : v.frame = w.frame) : v.told = w.told :=
  congrArg (fun f : Frame => f.link.outbound ++ f.link.held) h

theorem Work.told_settle (w : Work) (s : State) : (w.settle s).told = w.told := Work.told_of_frame (w.frame_settle s)

end Sys2Proof.Machine
end

section
/-! SUPPORT. The announcement of a pack (R16, R17, R81, R82): the names, the stack budget and the seven checks, one
equation per outcome; and the settling of `Obligations.AnnounceIsRefusedInOrder`. -/

namespace Sys2Proof.Machine

/-! ### Names (R145, R192) -/

theorem named_of_eq_succ {n k : Nat} {x : Fin n} (h : k = x.val + 1) : named n k = some x := by
  have hx := x.isLt
  rw [named, dif_pos (by omega)]
  simp [h]

theorem named_eq_none {n k : Nat} (h : k = 0 ∨ n < k) : named n k = none := by
  rw [named, dif_neg (by omega)]

theorem namedFromZero_of_eq {n k : Nat} {x : Fin n} (h : k = x.val) : namedFromZero n k = some x := by
  subst h
  exact dif_pos x.isLt

theorem namedFromZero_eq_none {n k : Nat} (h : n ≤ k) : namedFromZero n k = none := dif_neg (by omega)

/-! ### The stack budget (R81, R82) -/

section
variable {pages cover body s p : Nat} {pattern : StaplePattern} {policy : OversizePolicy}

theorem stackBudget_tooThick (h : p < totalThickness pages cover body) :
    stackBudget pages cover body s p pattern policy = .tooThick (totalThickness pages cover body) := if_pos h

/-- What the pocket takes is kept where it needs no binding, can be bound whole, or may be split or left unstapled. -/
theorem stackBudget_fits (h : totalThickness pages cover body ≤ p)
    (hb : pattern = .none ∨ totalThickness pages cover body ≤ s ∨ policy = .split ∨ policy = .unstapled) :
    ∃ b, stackBudget pages cover body s p pattern policy = .fits b := by
  unfold stackBudget
  rw [if_neg (Nat.not_lt.2 h)]
  by_cases hn : pattern = .none
  · exact ⟨_, if_pos hn⟩
  rw [if_neg hn]
  by_cases hs : totalThickness pages cover body ≤ s
  · exact ⟨_, if_pos hs⟩
  rw [if_neg hs]
  cases policy with
  | refuse => simp [hn, hs] at hb
  | unstapled => exact ⟨_, rfl⟩
  | split => dsimp only; split <;> exact ⟨_, rfl⟩

theorem stackBudget_tooThickToStaple (h : totalThickness pages cover body ≤ p)
    (hb : ¬(pattern = .none ∨ totalThickness pages cover body ≤ s ∨ policy = .split ∨ policy = .unstapled)) :
    stackBudget pages cover body s p pattern policy = .tooThickToStaple (totalThickness pages cover body) := by
  obtain ⟨hn, hs, hsplit, hun⟩ : pattern ≠ .none ∧ ¬totalThickness pages cover body ≤ s ∧ policy ≠ .split
      ∧ policy ≠ .unstapled := by simpa only [not_or] using hb
  unfold stackBudget
  rw [if_neg (Nat.not_lt.2 h), if_neg hn, if_neg hs]
  cases policy with
  | refuse => rfl
  | unstapled => exact absurd rfl hun
  | split => exact absurd rfl hsplit

end

/-! ### Checks 1 to 7 (R17) -/

section
variable {s : State} {h : Handle} {j : JobId} {st : StudentId} {c : ClassId} {pages : Nat}

theorem State.checkAnnounce_handleInUse (hs : (s.pack h).state ≠ .free) :
    s.checkAnnounce h j st pages = .refused .handleInUse [] := if_pos hs

variable (hfree : (s.pack h).state = .free)
include hfree

theorem State.checkAnnounce_jobClosed (hj : s.tables.jobs[j].isOpen = false) :
    s.checkAnnounce h j st pages = .refused .jobClosed [] := by
  simp [State.checkAnnounce, -Fin.getElem_fin, hfree, hj]

variable (hopen : s.tables.jobs[j].isOpen = true)
include hopen

theorem State.checkAnnounce_notEnrolled (hc : s.rosterClass st = none) :
    s.checkAnnounce h j st pages = .refused .notEnrolled [] := by
  simp [State.checkAnnounce, -Fin.getElem_fin, hfree, hopen, hc]

variable (hclass : s.rosterClass st = some c)
include hclass

theorem State.checkAnnounce_noBin (hb : s.tables.classes[c].bin = none) :
    s.checkAnnounce h j st pages = .refused .noBin [] := by
  simp [State.checkAnnounce, -Fin.getElem_fin, hfree, hopen, hclass, hb]

variable (hbin : s.tables.classes[c].bin ≠ none)
include hbin

theorem State.checkAnnounce_badPages (hp : pages = 0 ∨ 60 < pages) :
    s.checkAnnounce h j st pages = .refused .badValue [] := by
  simp [State.checkAnnounce, -Fin.getElem_fin, hfree, hopen, hclass, hbin, hp]

variable (h1 : pages ≠ 0) (h60 : ¬60 < pages)
include h1 h60

theorem State.checkAnnounce_tooThick {t : Nat} (hb : s.budgetFor s.tables.jobs[j] pages = .tooThick t) :
    s.checkAnnounce h j st pages = .refused .tooThick (bytesOf t) := by
  simp [State.checkAnnounce, -Fin.getElem_fin, hfree, hopen, hclass, hbin, h1, h60, hb]

theorem State.checkAnnounce_tooThickToStaple {t : Nat}
    (hb : s.budgetFor s.tables.jobs[j] pages = .tooThickToStaple t) :
    s.checkAnnounce h j st pages = .refused .tooThickToStaple (bytesOf t) := by
  simp [State.checkAnnounce, -Fin.getElem_fin, hfree, hopen, hclass, hbin, h1, h60, hb]

theorem State.checkAnnounce_accepted {b : Budget} (hb : s.budgetFor s.tables.jobs[j] pages = .fits b) :
    s.checkAnnounce h j st pages = .accepted h (s.announcedRecord j st c pages b) b.splitLimit := by
  simp [State.checkAnnounce, -Fin.getElem_fin, hfree, hopen, hclass, hbin, h1, h60, hb]

end

/-! ### The judgement (R16, R17) -/

section
variable {s : State} {handle job : Byte} {student : Half} {pages : Byte}

theorem State.judgeAnnounce_bypassing (hb : s.bypassing = true) :
    s.judgeAnnounce handle job student pages = .refused .wrongState [] := if_pos hb

theorem State.judgeAnnounce_named {h : Handle} {j : JobId} {st : StudentId} (hb : s.bypassing = false)
    (hh : handle.toNat = h.val + 1) (hj : job.toNat = j.val + 1) (hst : student.toNat = st.val) :
    s.judgeAnnounce handle job student pages = s.checkAnnounce h j st pages.toNat := by
  simp [State.judgeAnnounce, hb, named_of_eq_succ hh, named_of_eq_succ hj, namedFromZero_of_eq hst]

theorem State.judgeAnnounce_unnamed (hb : s.bypassing = false)
    (hn : handle = 0 ∨ job = 0 ∨ 32 < job.toNat ∨ 1023 < student.toNat) :
    s.judgeAnnounce handle job student pages = .refused .badValue [] := by
  have hnone : named 255 handle.toNat = none ∨ named 32 job.toNat = none
      ∨ namedFromZero 1024 student.toNat = none := by
    rcases hn with rfl | rfl | hj | hst
    · exact .inl rfl
    · exact .inr (.inl rfl)
    · exact .inr (.inl (named_eq_none (.inr hj)))
    · exact .inr (.inr (namedFromZero_eq_none hst))
  rw [State.judgeAnnounce, if_neg (by simp [hb])]
  split
  next hh hj hst => simp [hh, hj, hst] at hnone
  next => rfl

/-- Where the record stood makes no difference to the judgement. -/
theorem State.judgeAnnounce_taken (r : Record) :
    (s.taken r).judgeAnnounce handle job student pages = s.judgeAnnounce handle job student pages := by
  rw [State.taken_eq_withLink]
  rfl

/-! ### The command (R17, R18) -/

@[simp] theorem Work.frame_acceptPack (w : Work) (h : Handle) (r : PackRec) : (w.acceptPack h r).frame = w.frame := by
  simp [Work.acceptPack]

theorem Work.told_acceptPack (w : Work) (h : Handle) (r : PackRec) : (w.acceptPack h r).told = w.told :=
  Work.told_of_frame (w.frame_acceptPack h r)

/-- A Pack Announce that is taken is judged on the state it was taken from. -/
theorem exec_packAnnounce_taken (ht : s.takesCommand (.packAnnounce false handle job student pages)) :
    exec (.packAnnounce false handle job student pages) s
      = .next ((Work.of (s.takenFor (.packAnnounce false handle job student pages))).packAnnounce
          handle job student pages).finish :=
  congrArg Host.Outcome.next (State.takeRecord_own _ ht (show kindPackAnnounce ≠ kindControl by decide))

/-- A refused announcement changes nothing (R16). -/
theorem exec_packAnnounce_refused (ht : s.takesCommand (.packAnnounce false handle job student pages))
    (hf : s.attentionFollows) {status : Status} {data : List Byte}
    (hj : s.judgeAnnounce handle job student pages = .refused status data) :
    ∃ t, exec (.packAnnounce false handle job student pages) s = .next t
      ∧ (s.takenFor (.packAnnounce false handle job student pages)).onlyTells t
          (.result kindPackAnnounce status {} data) := by
  refine ⟨_, exec_packAnnounce_taken ht, ?_⟩
  simp only [Work.packAnnounce, Work.of_toState, State.takenFor, recordOf, State.judgeAnnounce_taken, hj]
  exact State.onlyTells_answer (State.taken_attentionFollows hf) _ _ _ _

/-- An accepted announcement is answered with ACCEPTED (R18). -/
theorem exec_packAnnounce_accepted (ht : s.takesCommand (.packAnnounce false handle job student pages))
    {h : Handle} {r : PackRec} {split : Bool}
    (hj : s.judgeAnnounce handle job student pages = .accepted h r split) :
    ∃ t notes data, exec (.packAnnounce false handle job student pages) s = .next t
      ∧ s.tells t (.result kindPackAnnounce .accepted notes data) := by
  refine ⟨_, { splitLimit := split }, bytesOf r.total ++ [byteOf r.snap.plan.ends.length],
    exec_packAnnounce_taken ht, ?_⟩
  simp only [Work.packAnnounce, Work.of_toState, State.takenFor, recordOf, State.judgeAnnounce_taken, hj]
  refine Work.finish_tells ?_ (Work.answer_reply _ _ _ _ _)
  rw [State.told, Work.answer_link, ← State.told, Work.told_settle, Work.told_acceptPack, Work.of_toState,
    State.taken_told]

end

end Sys2Proof.Machine

namespace Sys2Proof.Proofs

open Sys2Proof.Machine

/-- Settles O32: the checks of R16 and R17 in their order, each refusal leaving all but the Result as it was. -/
theorem announceIsRefusedInOrder : Obligations.AnnounceIsRefusedInOrder := by
  unfold Obligations.AnnounceIsRefusedInOrder
  intro handle job student pages s ht hf
  refine ⟨fun hb _ => exec_packAnnounce_refused ht hf (State.judgeAnnounce_bypassing hb),
    fun hb hn => exec_packAnnounce_refused ht hf (State.judgeAnnounce_unnamed hb hn),
    fun hb _ => .inl (exec_packAnnounce_refused ht hf (State.judgeAnnounce_bypassing hb)), ?_⟩
  intro h j st hb hh hj hst
  have judged := State.judgeAnnounce_named (pages := pages) hb hh hj hst
  have refuse {status : Status} {data : List Byte}
      (hc : s.checkAnnounce h j st pages.toNat = .refused status data) :=
    exec_packAnnounce_refused ht hf (judged.trans hc)
  refine ⟨fun hs => refuse (State.checkAnnounce_handleInUse hs), fun hfree => ?_⟩
  refine ⟨fun hclosed => refuse (State.checkAnnounce_jobClosed hfree hclosed), fun hopen => ?_⟩
  refine ⟨fun hnone => refuse (State.checkAnnounce_notEnrolled hfree hopen hnone), fun c hclass => ?_⟩
  refine ⟨fun hnone => refuse (State.checkAnnounce_noBin hfree hopen hclass hnone), fun hbin => ?_⟩
  refine ⟨fun hp => refuse (State.checkAnnounce_badPages hfree hopen hclass hbin ?_), fun hlow hhigh => ?_⟩
  · exact hp.imp (fun h0 => by simp [h0]) id
  have h1 : pages.toNat ≠ 0 := by omega
  have h60 : ¬60 < pages.toNat := Nat.not_lt.2 hhigh
  refine ⟨fun hthick => ?tooThick, fun hfits hbinds => ?tooThickToStaple, fun hfits hbinds => ?accepted⟩
  case tooThick =>
    exact refuse (State.checkAnnounce_tooThick hfree hopen hclass hbin h1 h60 (stackBudget_tooThick hthick))
  case tooThickToStaple =>
    exact refuse (State.checkAnnounce_tooThickToStaple hfree hopen hclass hbin h1 h60
      (stackBudget_tooThickToStaple hfits hbinds))
  case accepted =>
    obtain ⟨b, hbudget⟩ := stackBudget_fits hfits hbinds
    exact exec_packAnnounce_accepted ht
      (judged.trans (State.checkAnnounce_accepted hfree hopen hclass hbin h1 h60 hbudget))

end Sys2Proof.Proofs
end

section
/-! SUPPORT. The records a step forms as event notices (`Work.notices`) are event notices (R173): what the settling of a
step adds to them, and what a step without a Result queues at its end. -/

namespace Sys2Proof.Machine

/-! ### The event notices a step forms (R173) -/

/-- Of the records a step formed as event notices, those that are none: what each operation leaves empty. -/
def Work.nonNotices (w : Work) : List OutRecord := w.notices.filter fun o => !o.isNotice

theorem Work.nonNotices_eq_nil {w : Work} : w.nonNotices = [] ↔ ∀ o ∈ w.notices, o.isNotice = true := by
  simp [Work.nonNotices]

section
variable (w : Work)

@[simp] theorem Work.nonNotices_of (s : State) : (Work.of s).nonNotices = [] := rfl

@[simp] theorem Work.nonNotices_each {α : Type} (f : Work → α → Work) (l : List α)
    (h : ∀ x a, (f x a).nonNotices = x.nonNotices) : (w.each f l).nonNotices = w.nonNotices := by
  induction l generalizing w with
  | nil => rfl
  | cons a l ih => exact (ih (f w a)).trans (h w a)

theorem Work.nonNotices_notify {r : OutRecord} (h : r.isNotice = true) : (w.notify r).nonNotices = w.nonNotices := by
  simp [Work.nonNotices, h]

/-! ### The setters -/

@[simp] theorem Work.nonNotices_latch (c : Cause) : (w.latch c).nonNotices = w.nonNotices := rfl
@[simp] theorem Work.nonNotices_restartTimer : w.restartTimer.nonNotices = w.nonNotices := rfl
@[simp] theorem Work.nonNotices_pulse (f : FeedId) : (w.pulse f).nonNotices = w.nonNotices := rfl
@[simp] theorem Work.nonNotices_setArb (r : MergeArbiter) : (w.setArb r).nonNotices = w.nonNotices := rfl
@[simp] theorem Work.nonNotices_setStaplerRec (r : Stapler) : (w.setStaplerRec r).nonNotices = w.nonNotices := rfl
@[simp] theorem Work.nonNotices_setRet (r : ReturnUnit) : (w.setRet r).nonNotices = w.nonNotices := rfl
@[simp] theorem Work.nonNotices_setReport (r : Report) : (w.setReport r).nonNotices = w.nonNotices := rfl
@[simp] theorem Work.nonNotices_setRunState (st : RunState) : (w.setRunState st).nonNotices = w.nonNotices := rfl
@[simp] theorem Work.nonNotices_judge : w.judge.nonNotices = w.nonNotices := rfl
@[simp] theorem Work.nonNotices_setStapler (st : StaplerState) (k : Option WorkRec) (c : Option (PocketId × Nat)) :
    (w.setStapler st k c).nonNotices = w.nonNotices := rfl
@[simp] theorem Work.nonNotices_leaveDeliveryQueue (h : Handle) :
    (w.leaveDeliveryQueue h).nonNotices = w.nonNotices := rfl
@[simp] theorem Work.nonNotices_appendInFlight (f : FeedId) (h : Option Handle) (p g : Nat) (t : EntryTag)
    (d : Disposition) : (w.appendInFlight f h p g t d).nonNotices = w.nonNotices := rfl
@[simp] theorem Work.nonNotices_boundALast : w.boundALast.nonNotices = w.nonNotices := rfl
@[simp] theorem Work.nonNotices_timeBlock : w.timeBlock.nonNotices = w.nonNotices := rfl

@[simp] theorem Work.nonNotices_touchIf (b : Bool) (e : EntryRef) : (w.touchIf b e).nonNotices = w.nonNotices := by
  obtain ⟨m, h⟩ := w.touchIf_shape b e
  rw [h]
  rfl

@[simp] theorem Work.nonNotices_setFeed (f : FeedId) (r : FeedRec) : (w.setFeed f r).nonNotices = w.nonNotices := by
  obtain ⟨m, o, h⟩ := w.setFeed_shape f r
  rw [h]
  rfl

@[simp] theorem Work.nonNotices_setPocket (p : PocketId) (r : PocketRec) :
    (w.setPocket p r).nonNotices = w.nonNotices := by
  obtain ⟨m, o, h⟩ := w.setPocket_shape p r
  rw [h]
  rfl

@[simp] theorem Work.nonNotices_setPack (k : Handle) (r : PackRec) : (w.setPack k r).nonNotices = w.nonNotices := by
  obtain ⟨m, o, h⟩ := w.setPack_shape k r
  rw [h]
  rfl

/-! ### Purges, the end of start-up and of STOPPING -/

@[simp] theorem Work.nonNotices_startPurges : w.startPurges.nonNotices = w.nonNotices := by
  refine w.nonNotices_each _ _ fun x p => ?_
  unfold Work.startPurge
  dsimp only
  split <;> simp

@[simp] theorem Work.nonNotices_cutOffPurge (p : PocketId) : (w.cutOffPurge p).nonNotices = w.nonNotices := by
  unfold Work.cutOffPurge
  dsimp only
  split <;> simp

@[simp] theorem Work.nonNotices_cutOffVolume : w.cutOffVolume.nonNotices = w.nonNotices := by
  unfold Work.cutOffVolume
  split <;> simp

@[simp] theorem Work.nonNotices_cutOffDelivery : w.cutOffDelivery.nonNotices = w.nonNotices := by
  unfold Work.cutOffDelivery
  split <;> simp

@[simp] theorem Work.nonNotices_halt (c : HaltCause) (t : ResumeTarget) : (w.halt c t).nonNotices = w.nonNotices := by
  simp [Work.halt]

@[simp] theorem Work.nonNotices_enterTarget (t : ResumeTarget) : (w.enterTarget t).nonNotices = w.nonNotices := by
  cases t <;> simp [Work.enterTarget, Work.enterBypass, Work.flushFeed]

@[simp] theorem Work.nonNotices_endStartUp : w.endStartUp.nonNotices = w.nonNotices := by
  unfold Work.endStartUp
  split
  · split
    · rfl
    · unfold Work.leaveStarting
      split <;> simp
  · rfl

@[simp] theorem Work.nonNotices_endStopping : w.endStopping.nonNotices = w.nonNotices := by
  unfold Work.endStopping
  split
  · split <;> simp
  · rfl

/-! ### Stapling and deliveries -/

@[simp] theorem Work.nonNotices_judgeStaples : w.judgeStaples.nonNotices = w.nonNotices := by
  unfold Work.judgeStaples
  split <;> simp

@[simp] theorem Work.nonNotices_setRemaining (n : Nat) : (w.setRemaining n).nonNotices = w.nonNotices := by
  simp [Work.setRemaining]

@[simp] theorem Work.nonNotices_finishPack (h : Handle) (f : PackFlags) :
    (w.finishPack h f).nonNotices = w.nonNotices := by
  unfold Work.finishPack
  dsimp only
  split <;> simp [Work.goReady, Work.holdPocket]

@[simp] theorem Work.nonNotices_shortVolume (k : WorkRec) : (w.shortVolume k).nonNotices = w.nonNotices := by
  unfold Work.shortVolume
  dsimp only
  split <;> simp

@[simp] theorem Work.nonNotices_startVolume (k : WorkRec) : (w.startVolume k).nonNotices = w.nonNotices := by
  unfold Work.startVolume
  dsimp only
  split
  · simp
  · split <;> split <;> simp [Work.presentVolume]

@[simp] theorem Work.nonNotices_takeUp (n : Nat) : (Work.takeUp n w).nonNotices = w.nonNotices := by
  induction n generalizing w with
  | zero => rfl
  | succ n ih =>
    unfold Work.takeUp
    split
    · rfl
    · split
      · exact (ih _).trans (w.nonNotices_startVolume _)
      · rfl

@[simp] theorem Work.nonNotices_startDelivery : w.startDelivery.nonNotices = w.nonNotices := by
  unfold Work.startDelivery
  split
  · split
    · rfl
    · split <;> simp [Work.beginDelivery]
  · rfl

/-! ### Releases -/

@[simp] theorem Work.nonNotices_dropPick : w.dropPick.nonNotices = w.nonNotices := by
  unfold Work.dropPick
  split
  · rfl
  · split <;> simp

/-- The one operation of the settling that forms a record: the Order Break of a pack opened out of turn (R65). -/
@[simp] theorem Work.nonNotices_openPack (h : Handle) (p : PocketId) : (w.openPack h p).nonNotices = w.nonNotices := by
  unfold Work.openPack
  dsimp only
  split
  · rw [Work.nonNotices_latch, Work.nonNotices_notify _ rfl]
    simp [Work.openPocket]
  · simp [Work.openPocket]

@[simp] theorem Work.nonNotices_release (f : FeedId) : (w.release f).nonNotices = w.nonNotices := by
  unfold Work.release
  split <;> simp [Work.releaseBare, Work.releaseHead, Work.pageReleased]

@[simp] theorem Work.nonNotices_decideUpTo (n : Nat) : (Work.decideUpTo n w).nonNotices = w.nonNotices := by
  induction n generalizing w with
  | zero => rfl
  | succ n ih =>
    unfold Work.decideUpTo
    dsimp only
    split <;> simp [ih]

@[simp] theorem Work.nonNotices_decideReleases : w.decideReleases.nonNotices = w.nonNotices := by
  unfold Work.decideReleases
  split <;> simp

@[simp] theorem Work.nonNotices_timeWaits : w.timeWaits.nonNotices = w.nonNotices := by
  refine w.nonNotices_each _ _ fun x f => ?_
  unfold Work.timeWait
  dsimp only
  split <;> split <;> simp

/-! ### Lamps and latches -/

@[simp] theorem Work.nonNotices_judgeBinFull (s : State) : (w.judgeBinFull s).nonNotices = w.nonNotices := by
  unfold Work.judgeBinFull
  split <;> simp

@[simp] theorem Work.nonNotices_driveLamps : w.driveLamps.nonNotices = w.nonNotices := by
  refine w.nonNotices_each _ _ fun x b => ?_
  unfold Work.driveLamp
  dsimp only
  split <;> simp

/-- The settling forms no record but event notices, in any run state. -/
@[simp] theorem Work.nonNotices_settle (s : State) : (w.settle s).nonNotices = w.nonNotices := by
  simp [Work.settle, Work.staple]

end

/-! ### A step without a Result (R172, R173) -/

theorem Work.reply_of_frame {v w : Work} (h : v.frame = w.frame) : v.reply = w.reply := congrArg Frame.reply h

/-- The records queued behind all that was queued are event notices. -/
def State.addsNotices (s t : State) : Prop := ∃ x, t.told = s.told ++ x ∧ ∀ o ∈ x, OutRecord.isNotice o = true

theorem State.addsNotices_of_told {s t : State} (h : t.told = s.told) : s.addsNotices t := ⟨[], by simp [h], by simp⟩

theorem State.addsNotices.trans {s t u : State} (h : s.addsNotices t) (k : t.addsNotices u) : s.addsNotices u := by
  obtain ⟨x, hx, hxn⟩ := h
  obtain ⟨y, hy, hyn⟩ := k
  refine ⟨x ++ y, by rw [hy, hx, List.append_assoc], fun o ho => ?_⟩
  exact (List.mem_append.1 ho).elim (hxn o) (hyn o)

theorem Work.sendNotice_addsNotices (w : Work) {r : OutRecord} (hr : r.isNotice = true) :
    w.toState.addsNotices (w.sendNotice r).toState := by
  unfold Work.sendNotice
  split
  next hroom =>
    have hheld : w.link.held = [] := by
      simp only [LinkPort.hasNoticeRoom, LinkPort.hasRoom, Bool.and_eq_true, List.isEmpty_iff] at hroom
      exact hroom.1.2
    exact ⟨[r], by simp [State.told, hheld], by simpa using hr⟩
  next => exact State.addsNotices_of_told rfl

theorem Work.foldNotices_addsNotices (l : List OutRecord) (w : Work) (hl : ∀ o ∈ l, o.isNotice = true) :
    w.toState.addsNotices (l.foldl Work.sendNotice w).toState := by
  induction l generalizing w with
  | nil => exact State.addsNotices_of_told rfl
  | cons r l ih =>
    obtain ⟨hr, hl⟩ := List.forall_mem_cons.1 hl
    exact (w.sendNotice_addsNotices hr).trans (ih _ hl)

theorem Work.judgeAttention_addsNotices (w : Work) : w.toState.addsNotices w.judgeAttention.toState := by
  unfold Work.judgeAttention
  split
  · exact (State.addsNotices_of_told (t := (w.setOutput true).toState) rfl).trans (Work.sendNotice_addsNotices _ rfl)
  · exact State.addsNotices_of_told rfl

/-- A step that forms no Result, no Drain Complete and no Start Report queues event notices alone. -/
theorem Work.finish_addsNotices {w : Work} (hn : w.nonNotices = []) (hr : w.reply = none) (hd : w.drains = [])
    (hp : w.report = none) : w.toState.addsNotices w.finish := by
  have hdrains : w.sendNotices.judgeAttention.drains = [] := by
    rw [(w.sendNotices_ends.trans (Work.judgeAttention_ends _)).rest.2.1, hd]
  have hq : w.queued = w.sendNotices.judgeAttention := by
    simp [Work.queued, hr, hp, Work.keepOpt, Work.keepDrains, hdrains]
  have hqueued : w.toState.addsNotices w.queued.toState := by
    rw [hq]
    exact (Work.foldNotices_addsNotices _ w (Work.nonNotices_eq_nil.1 hn)).trans (Work.judgeAttention_addsNotices _)
  exact hqueued.trans (State.addsNotices_of_told (by simp [State.told, Work.finish]))

end Sys2Proof.Machine
end

section
/-! SUPPORT. The Sheet Notice (R30 to R33): its names, the six checks, one equation per outcome; and the settling of
`Obligations.SheetNoticeIsRefusedInOrder`. -/

namespace Sys2Proof.Machine

/-! ### The names (R31 check 2) -/

section
variable {feed handle page generation : Byte} {tag : Half}

theorem noticeFields_inRange {f : FeedId} {h : Handle} (hf : feed.toNat = f.val + 1) (hh : handle.toNat = h.val + 1)
    (hr : 1 ≤ page.toNat ∧ page.toNat ≤ 60 ∧ generation.toNat ≤ 3 ∧ tag.toNat ≤ 4095) :
    noticeFields feed handle page generation tag
      = some ⟨f, ⟨h, page.toNat, generation.toNat, tag.setWidth 12⟩⟩ := by
  simp [noticeFields, named_of_eq_succ hf, named_of_eq_succ hh, hr]

theorem noticeFields_outOfRange
    (hr : ¬(1 ≤ feed.toNat ∧ feed.toNat ≤ 4 ∧ 1 ≤ handle.toNat ∧ 1 ≤ page.toNat ∧ page.toNat ≤ 60
      ∧ generation.toNat ≤ 3 ∧ tag.toNat ≤ 4095)) :
    noticeFields feed handle page generation tag = none := by
  by_cases hfeed : feed.toNat = 0 ∨ 4 < feed.toNat
  · simp [noticeFields, named_eq_none hfeed]
  by_cases hhandle : handle.toNat = 0
  · have hnone := named_eq_none (n := 255) (.inl hhandle)
    unfold noticeFields
    split
    next hsome => simp [hnone] at hsome
    next => rfl
  have hnumbers : ¬(1 ≤ page.toNat ∧ page.toNat ≤ 60 ∧ generation.toNat ≤ 3 ∧ tag.toNat ≤ 4095) :=
    fun hn => hr ⟨by omega, by omega, by omega, hn⟩
  unfold noticeFields
  split
  · exact if_neg hnumbers
  · rfl

/-! ### The checks (R31) -/

variable {s : State}

theorem State.judgeNotice_notTaken (hs : s.takesNotices = false) :
    s.judgeNotice feed handle page generation tag = .error .wrongState := by
  simp [State.judgeNotice, hs]

variable (hs : s.takesNotices = true)
include hs

theorem State.judgeNotice_outOfRange (hn : noticeFields feed handle page generation tag = none) :
    s.judgeNotice feed handle page generation tag = .error .badValue := by
  simp [State.judgeNotice, hs, hn]

variable {n : NoticeFields} (hn : noticeFields feed handle page generation tag = some n)
include hn

theorem State.judgeNotice_feedOffline (hf : s.feeds[n.feed].state ≠ .online) :
    s.judgeNotice feed handle page generation tag = .error .feedOffline := by
  simp [State.judgeNotice, -Fin.getElem_fin, hs, hn, hf]

variable (hf : s.feeds[n.feed].state = .online)
include hf

theorem State.judgeNotice_feedFull (hq : Config.stagingSize ≤ s.feeds[n.feed].queue.length) :
    s.judgeNotice feed handle page generation tag = .error .feedFull := by
  simp [State.judgeNotice, -Fin.getElem_fin, hs, hn, hf, hq]

variable (hq : ¬Config.stagingSize ≤ s.feeds[n.feed].queue.length)
include hq

theorem State.judgeNotice_noSuchPack
    (hp : (s.pack n.entry.handle).state = .free ∨ (s.pack n.entry.handle).state = .disposing) :
    s.judgeNotice feed handle page generation tag = .error .noSuchPack := by
  simp [State.judgeNotice, -Fin.getElem_fin, hs, hn, hf, hq, hp]

variable (hp : ¬((s.pack n.entry.handle).state = .free ∨ (s.pack n.entry.handle).state = .disposing))
include hp

theorem State.judgeNotice_badGeneration (hg : (s.pack n.entry.handle).gen < n.entry.gen) :
    s.judgeNotice feed handle page generation tag = .error .badGeneration := by
  simp [State.judgeNotice, -Fin.getElem_fin, hs, hn, hf, hq, hp, hg]

theorem State.judgeNotice_accepted (hg : ¬(s.pack n.entry.handle).gen < n.entry.gen) :
    s.judgeNotice feed handle page generation tag = .ok n := by
  simp [State.judgeNotice, -Fin.getElem_fin, hs, hn, hf, hq, hp, hg]

end

/-! ### The command (R31 to R33) -/

section
variable {s : State} {feed handle page generation : Byte} {tag : Half}

/-- Where the record stood makes no difference to the judgement. -/
theorem State.judgeNotice_taken (r : Record) :
    (s.taken r).judgeNotice feed handle page generation tag = s.judgeNotice feed handle page generation tag := by
  rw [State.taken_eq_withLink]
  rfl

theorem State.noticeData_taken (r : Record) :
    (s.taken r).noticeData feed handle page = s.noticeData feed handle page := by
  rw [State.taken_eq_withLink]
  rfl

theorem State.taken_takesNotices (r : Record) : (s.taken r).takesNotices = s.takesNotices := by
  rw [State.taken_eq_withLink]
  rfl

/-- In STARTING no Sheet Notice is taken (R30). -/
theorem State.starting_of_takesNotices (h : s.takesNotices = true) : s.starting = false := by
  unfold State.takesNotices at h
  unfold State.starting
  split at h <;> simp_all

/-- The data of a refusal: the names given, the feed's queue length and the pack's generation (R33). -/
theorem State.noticeData_eq (s : State) (feed handle page : Byte) : ∃ length gen : Byte,
    s.noticeData feed handle page = [feed, handle, page, length, gen]
      ∧ (∀ f : FeedId, feed.toNat = f.val + 1 → length = byteOf s.feeds[f].queue.length)
      ∧ (∀ h : Handle, handle.toNat = h.val + 1 → gen = byteOf (s.pack h).gen) :=
  ⟨_, _, rfl, fun f hf => by rw [named_of_eq_succ hf], fun h hh => by rw [named_of_eq_succ hh]⟩

/-- A Sheet Notice that is taken is judged on the state it was taken from. -/
theorem exec_sheetNotice_taken (ht : s.takesCommand (.sheetNotice false feed handle page generation tag)) :
    exec (.sheetNotice false feed handle page generation tag) s
      = .next ((Work.of (s.takenFor (.sheetNotice false feed handle page generation tag))).sheetNotice
          feed handle page generation tag).finish :=
  congrArg Host.Outcome.next (State.takeRecord_own _ ht (show kindSheetNotice ≠ kindControl by decide))

/-- A refused Sheet Notice changes nothing (R33). -/
theorem exec_sheetNotice_refused (ht : s.takesCommand (.sheetNotice false feed handle page generation tag))
    (hf : s.attentionFollows) {status : Status}
    (hj : s.judgeNotice feed handle page generation tag = .error status) :
    ∃ t, exec (.sheetNotice false feed handle page generation tag) s = .next t
      ∧ ∃ length gen : Byte,
        (s.takenFor (.sheetNotice false feed handle page generation tag)).onlyTells t
          (.result kindSheetNotice status {} [feed, handle, page, length, gen])
        ∧ (∀ f : FeedId, feed.toNat = f.val + 1 → length = byteOf s.feeds[f].queue.length)
        ∧ (∀ h : Handle, handle.toNat = h.val + 1 → gen = byteOf (s.pack h).gen) := by
  obtain ⟨length, gen, hdata, hlength, hgen⟩ := s.noticeData_eq feed handle page
  refine ⟨_, exec_sheetNotice_taken ht, length, gen, ?_, hlength, hgen⟩
  simp only [Work.sheetNotice, Work.of_toState, State.takenFor, recordOf, State.judgeNotice_taken,
    State.noticeData_taken, hj, hdata]
  exact State.onlyTells_answer (State.taken_attentionFollows hf) _ _ _ _

/-- The entry that joins changes the feeds, the mark and the occasion alone. -/
theorem Work.acceptNotice_shape (w : Work) (n : NoticeFields) : ∃ fs m o, w.acceptNotice n =
    { w with feeds := fs, tables := { w.tables with mark := m }, occasion := o } := by
  obtain ⟨m, o, h⟩ := w.setFeed_shape n.feed
    { w.feeds[n.feed] with queue := w.feeds[n.feed].queue ++ [n.entry], wait := none, discard := false }
  exact ⟨_, m, o, h⟩

/-- What an accepted Sheet Notice brings about queues event notices alone: no Result is sent (R32). -/
theorem Work.acceptNotice_settle_addsNotices {s : State} (hs : s.starting = false) (n : NoticeFields) :
    s.addsNotices (((Work.of s).acceptNotice n).settle s).finish := by
  obtain ⟨fs, m, o, hshape⟩ := (Work.of s).acceptNotice_shape n
  generalize (Work.of s).acceptNotice n = w at hshape ⊢
  have hsettles : Settles w (w.settle s) := Settles.settle s w (by rw [hshape]; exact hs)
  have hnonNotices : (w.settle s).nonNotices = [] := (w.nonNotices_settle s).trans (by rw [hshape]; rfl)
  have hreply : (w.settle s).reply = none := (Work.reply_of_frame (w.frame_settle s)).trans (by rw [hshape]; rfl)
  have hdrains : (w.settle s).drains = [] := hsettles.drains.trans (by rw [hshape]; rfl)
  have hreport : (w.settle s).report = none := hsettles.report.trans (by rw [hshape]; rfl)
  have htold : (w.settle s).told = s.told := (w.told_settle s).trans (by rw [hshape]; rfl)
  exact (State.addsNotices_of_told htold).trans
    (Work.finish_addsNotices hnonNotices hreply hdrains hreport)

/-- An accepted Sheet Notice gets no Result (R32). -/
theorem exec_sheetNotice_accepted (ht : s.takesCommand (.sheetNotice false feed handle page generation tag))
    (hs : s.takesNotices = true) {n : NoticeFields}
    (hj : s.judgeNotice feed handle page generation tag = .ok n) :
    ∃ t, exec (.sheetNotice false feed handle page generation tag) s = .next t ∧ s.addsNotices t := by
  refine ⟨_, exec_sheetNotice_taken ht, ?_⟩
  simp only [Work.sheetNotice, Work.of_toState, State.takenFor, recordOf, State.judgeNotice_taken, hj]
  refine (State.addsNotices_of_told (State.taken_told s _)).trans (Work.acceptNotice_settle_addsNotices ?_ n)
  exact State.starting_of_takesNotices ((State.taken_takesNotices _).trans hs)

end

end Sys2Proof.Machine

namespace Sys2Proof.Proofs

open Sys2Proof.Machine

/-- Settles O38: the checks of R31 in their order, each refusal leaving all but the Result as it was; an accepted
notice queues event notices alone. -/
theorem sheetNoticeIsRefusedInOrder : Obligations.SheetNoticeIsRefusedInOrder := by
  unfold Obligations.SheetNoticeIsRefusedInOrder
  intro feed handle page generation tag s ht hfollows inRange refused
  have refuse {status : Status} (hj : s.judgeNotice feed handle page generation tag = .error status) :
      refused status := exec_sheetNotice_refused ht hfollows hj
  refine ⟨fun hs => refuse (State.judgeNotice_notTaken hs),
    fun hs hr => refuse (State.judgeNotice_outOfRange hs (noticeFields_outOfRange hr)), ?_⟩
  intro f h hs ⟨_, _, _, hpage, hpage60, hgen3, htag⟩ hfeed hhandle
  have hn := noticeFields_inRange hfeed hhandle ⟨hpage, hpage60, hgen3, htag⟩
  refine ⟨fun hoff => refuse (State.judgeNotice_feedOffline hs hn hoff), fun hon => ?_⟩
  refine ⟨fun hfull => refuse (State.judgeNotice_feedFull hs hn hon hfull), fun hroom => ?_⟩
  have hroom : ¬Config.stagingSize ≤ s.feeds[f].queue.length := Nat.not_le.2 hroom
  refine ⟨fun hgone => refuse (State.judgeNotice_noSuchPack hs hn hon hroom hgone), fun hfree hdisposing => ?_⟩
  have hpack : ¬((s.pack h).state = .free ∨ (s.pack h).state = .disposing) := not_or.2 ⟨hfree, hdisposing⟩
  refine ⟨fun hgen => refuse (State.judgeNotice_badGeneration hs hn hon hroom hpack hgen), fun hgen => ?_⟩
  exact exec_sheetNotice_accepted ht hs
    (State.judgeNotice_accepted hs hn hon hroom hpack (Nat.not_lt.2 hgen))

end Sys2Proof.Proofs
end

section
/-! SUPPORT. The disposition of a head entry (R49) and the pocket offered to page 1 of an ANNOUNCED pack (R50, R73);
and the settling of `Obligations.HeadDispositionsAreJudged`. -/

namespace Sys2Proof.Machine

/-! ### The pocket offered (R50, R73) -/

/-- The pack may have the only pocket there is: it is the head of its class, its class is UNORDERED, or it is the break
pick (R50). -/
def State.mayTakeLast (s : State) (h : Handle) : Prop :=
  s.isClassHead h = true ∨ s.policyOf h = .unordered ∨ s.arb.pick.map Prod.snd = some h

theorem State.emptyPockets_sorted (s : State) : s.emptyPockets.Pairwise (· < ·) :=
  List.Pairwise.filter _ (show allPockets.Pairwise (· < ·) by decide)

/-- The first of the EMPTY pockets in service is the lowest-numbered one. -/
theorem State.emptyPockets_head?_iff {s : State} {p : PocketId} :
    s.emptyPockets.head? = some p ↔ p ∈ s.emptyPockets ∧ ∀ q ∈ s.emptyPockets, p ≤ q := by
  have sorted := s.emptyPockets_sorted
  cases hq : s.emptyPockets with
  | nil => simp
  | cons a rest =>
    rw [hq, List.pairwise_cons] at sorted
    obtain ⟨first, -⟩ := sorted
    constructor
    · rintro ⟨⟩
      exact ⟨List.mem_cons_self, List.forall_mem_cons.2 ⟨le_rfl, fun q hm => (first q hm).le⟩⟩
    · rintro ⟨hm, hle⟩
      have hpa : p ≤ a := hle a List.mem_cons_self
      have hap : a ≤ p := (List.mem_cons.1 hm).elim (fun h => h.ge) fun h => (first p h).le
      exact congrArg some (le_antisymm hap hpa)

/-- The first EMPTY pocket is offered, a lone one under the reserve rule alone (R73). -/
theorem State.offer_iff_head? {s : State} {h : Handle} {p : PocketId} :
    s.offer h = some p ↔ s.emptyPockets.head? = some p ∧ (s.emptyPockets.length = 1 → s.mayTakeLast h) := by
  unfold State.offer State.mayTakeLast
  match s.emptyPockets with
  | [] => simp
  | [a] => simp [and_comm, or_assoc]
  | a :: b :: rest => simp

theorem State.offer_iff {s : State} {h : Handle} {p : PocketId} :
    s.offer h = some p ↔ p ∈ s.emptyPockets ∧ (∀ q ∈ s.emptyPockets, p ≤ q)
      ∧ (s.emptyPockets.length = 1 → s.mayTakeLast h) := by
  rw [State.offer_iff_head?, State.emptyPockets_head?_iff, and_assoc]

/-! ### The lines of the table (R49) -/

section
variable {s : State} {e : StagingEntry}

/-- Lines 1, 2 and 4 are the DISCARDs; line 3 keeps a RESTARTING pack's sheet from line 4. -/
theorem State.judgeEntry_discard_iff : s.judgeEntry e = .discard ↔
    (s.pack e.handle).state = .free ∨ (s.pack e.handle).state = .disposing ∨ e.gen ≠ (s.pack e.handle).gen
      ∨ ((s.pack e.handle).state ≠ .restarting
        ∧ (e.page ≤ (s.pack e.handle).released ∨ (s.pack e.handle).pages < e.page)) := by
  unfold State.judgeEntry
  dsimp only
  split
  next hgone => exact iff_of_true rfl (hgone.imp_right .inl)
  next hgone =>
  obtain ⟨hfree, hdisposing⟩ := not_or.1 hgone
  split
  next hgen => exact iff_of_true rfl (.inr (.inr (.inl hgen)))
  next hgen =>
  simp only [hfree, hdisposing, hgen, false_or]
  split
  next hrestarting => simp [hrestarting]
  next hrestarting =>
  split
  next hpage => exact iff_of_true rfl ⟨hrestarting, hpage⟩
  next hpage =>
  refine iff_of_false ?_ fun h => hpage h.2
  repeat' split
  all_goals nofun

/-- Where the pack is not RESTARTING, an entry that is no DISCARD is of the pack's generation and for a page still to
be released (R49, lines 2 and 4). -/
theorem State.judgeEntry_wanted {v : Verdict} (h : s.judgeEntry e = v) (hv : v ≠ .discard)
    (hr : (s.pack e.handle).state ≠ .restarting) :
    e.gen = (s.pack e.handle).gen ∧ (s.pack e.handle).released < e.page ∧ e.page ≤ (s.pack e.handle).pages := by
  rw [← h, Ne, State.judgeEntry_discard_iff] at hv
  simp only [not_or, not_and, not_not, not_le, not_lt] at hv
  obtain ⟨-, -, hgen, hpage⟩ := hv
  exact ⟨hgen, hpage hr⟩

/-- Line 5: the next page of an OPEN pack. -/
theorem State.judgeEntry_of_next (ho : (s.pack e.handle).state = .opened) (hgen : e.gen = (s.pack e.handle).gen)
    (hnext : e.page = (s.pack e.handle).released + 1) (hpages : e.page ≤ (s.pack e.handle).pages) :
    s.judgeEntry e = .collate none := by
  have hpage : ¬(e.page ≤ (s.pack e.handle).released ∨ (s.pack e.handle).pages < e.page) := by omega
  rw [State.judgeEntry, if_neg (by simp [ho]), if_neg (not_not.2 hgen), if_neg (by simp [ho]), if_neg hpage,
    if_pos ⟨ho, hnext⟩]

/-- Line 6: page 1 of an ANNOUNCED pack with a pocket offered. -/
theorem State.judgeEntry_of_offer {p : PocketId} (ha : (s.pack e.handle).state = .announced)
    (hgen : e.gen = (s.pack e.handle).gen) (hfirst : e.page = 1) (hnone : (s.pack e.handle).released = 0)
    (hpages : 1 ≤ (s.pack e.handle).pages) (hoffer : s.offer e.handle = some p) :
    s.judgeEntry e = .collate (some p) := by
  have hpage : ¬(e.page ≤ (s.pack e.handle).released ∨ (s.pack e.handle).pages < e.page) := by omega
  rw [State.judgeEntry, if_neg (by simp [ha]), if_neg (not_not.2 hgen), if_neg (by simp [ha]), if_neg hpage,
    if_neg (by simp [ha]), if_pos ⟨ha, hfirst⟩, hoffer]

theorem State.judgeEntry_next_iff : s.judgeEntry e = .collate none ↔
    (s.pack e.handle).state = .opened ∧ e.gen = (s.pack e.handle).gen
      ∧ e.page = (s.pack e.handle).released + 1 ∧ e.page ≤ (s.pack e.handle).pages := by
  constructor
  · intro h
    obtain ⟨ho, hnext, -⟩ := State.judgeEntry_next h
    obtain ⟨hgen, -, hpages⟩ := State.judgeEntry_wanted h nofun (by simp [ho])
    exact ⟨ho, hgen, hnext, hpages⟩
  · rintro ⟨ho, hgen, hnext, hpages⟩
    exact State.judgeEntry_of_next ho hgen hnext hpages

theorem State.judgeEntry_open_iff {p : PocketId} : s.judgeEntry e = .collate (some p) ↔
    (s.pack e.handle).state = .announced ∧ e.gen = (s.pack e.handle).gen ∧ e.page = 1
      ∧ (s.pack e.handle).released = 0 ∧ 1 ≤ (s.pack e.handle).pages ∧ s.offer e.handle = some p := by
  constructor
  · intro h
    obtain ⟨ha, hfirst, hpages⟩ := State.judgeEntry_open h
    obtain ⟨hgen, hreleased, -⟩ := State.judgeEntry_wanted h nofun (by simp [ha])
    exact ⟨ha, hgen, hfirst, by omega, hpages, State.judgeEntry_offer h⟩
  · rintro ⟨ha, hgen, hfirst, hnone, hpages, hoffer⟩
    exact State.judgeEntry_of_offer ha hgen hfirst hnone hpages hoffer

/-- PASS is for BYPASS alone, where no entry is judged (R69). -/
theorem State.judgeEntry_ne_pass : s.judgeEntry e ≠ .pass := by
  unfold State.judgeEntry
  dsimp only
  repeat' split
  all_goals nofun

end

/-! ### A feed's verdict (R49) -/

section
variable {s : State} {f : FeedId} (hb : s.run.state ≠ .bypass)
include hb

theorem State.verdict_of_discard (hd : s.feeds[f].discard = true) : s.verdict f = .discard := by
  rw [State.verdict, if_neg hb, if_pos hd]

theorem State.verdict_of_head {e : StagingEntry} (hd : s.feeds[f].discard = false)
    (hq : s.feeds[f].queue.head? = some e) : s.verdict f = s.judgeEntry e := by
  obtain ⟨rest, hq⟩ := List.head?_eq_some_iff.1 hq
  rw [State.verdict, if_neg hb, if_neg (by rw [hd]; nofun), hq]

end

end Sys2Proof.Machine

namespace Sys2Proof.Proofs

open Sys2Proof.Machine

/-- Settles O46: the lines of R49's table one by one, the pocket offered taken from the reserve rule. -/
theorem headDispositionsAreJudged : Obligations.HeadDispositionsAreJudged := by
  unfold Obligations.HeadDispositionsAreJudged
  intro s e
  refine ⟨State.judgeEntry_discard_iff, State.judgeEntry_next_iff, fun p => ?opens, State.judgeEntry_ne_pass,
    fun f hb => ⟨State.verdict_of_discard hb, State.verdict_of_head hb⟩⟩
  case opens =>
    rw [State.judgeEntry_open_iff, State.offer_iff]
    rfl

end Sys2Proof.Proofs
end

section
/-! SUPPORT. What a command and a step can do, said once: `Instr.effect` is what a command does to the work in hand,
`exec_cases` says which state it works on and how the step ends, `step_cases` which command a step runs. -/

namespace Sys2Proof.Machine

/-! ### The effect of a command -/

/-- The event's effect where what it ends is there; nothing where it is not. -/
def Work.whenSome {α : Type} (w : Work) (o : Option α) (body : α → Work) : Work :=
  match o with
  | none => w
  | some x => body x

end Sys2Proof.Machine

namespace Sys2Proof

open Machine

/-- What a command does to the work in hand, once the Record Handler has passed its record on or the event has come. -/
def Instr.effect : Instr → Work → Work
  | .sheetNotice _ feed handle page generation tag => fun w => w.sheetNotice feed handle page generation tag
  | .packAnnounce _ handle job student pages => fun w => w.packAnnounce handle job student pages
  | .packWithdraw _ handle => fun w => w.packWithdraw handle
  | .tableRead _ bank index count => fun w => w.tableRead bank.toNat index.toNat count.toNat
  | .tableWrite bcast bank index entries => fun w => w.tableWrite bcast bank.toNat index.toNat entries
  | .tableMark _ bank index => fun w => w.tableMark bank.toNat index.toNat
  | .markedWrite _ bank index entry => fun w => w.markedWrite bank.toNat index.toNat entry
  | .groupOpen _ => Work.groupOpen
  | .groupClose _ => Work.groupClose
  | .groupDiscard _ => Work.groupDiscard
  | .drainMarker _ id => fun w => w.drainMarker id
  | .statusRead _ => fun w => w.clearLatches.answer kindStatusRead .accepted w.statusBytes
  | .undefinedRecordKind _ kind _ => fun w => w.answer kind .badValue
  | .run _ _ => Work.controlRun
  | .pause _ _ => Work.controlPause
  | .standby _ _ => Work.controlStandby
  | .bypass _ _ => Work.controlBypass
  | .resume _ _ => Work.controlResume
  | .clearStapler _ _ => Work.clearStapler
  | .clearReturn _ outcome => fun w => w.clearReturn outcome
  | .feedFlush _ feed => fun w => w.feedFlush feed
  | .loopbackOn _ _ => fun w => (w.setLoopback true).answer kindControl .accepted
  | .loopbackOff _ _ => fun w => (w.setLoopback false).answer kindControl .accepted
  | .resetWork _ _ => fun w => (w.resetWork.settle w.toState).answer kindControl .accepted
  | .resetAll _ _ => fun w => (w.resetAll.settle w.toState).answer kindControl .accepted
  | .powerOn straps => fun w =>
    ((({ w with now := 0 } : Work).setGate .reject).coldReset .powerOn straps).settle w.toState
  | .resetPin straps => fun w => ((w.setGate .reject).coldReset .pin straps).settle w.toState
  | .recordComplete bcast kind payload => fun w =>
    ({ w with toState := w.completed ⟨bcast, kind, payload⟩ } : Work).offer ⟨bcast, kind, payload⟩
  | .stopCharacter => fun w =>
    (({ w with link := w.link.echo ⟨true, 0xE5⟩ } : Work).setReceiver .waiting).takeStop.settle w.toState
  | .lineError checks mark data => fun w => w.receive (frameSound (frameWith checks ⟨mark, data⟩)) mark data
  | .lineBreak => fun w => w.setReceiver .waiting
  | .recordSent => fun w => { w with link := w.link.recordSent w.run.straps.station }
  | .sheetPresentActive feed => fun w => w.sheetCame feed
  | .sheetPresentInactive feed => fun w => w.sheetLeft feed
  | .arrival tag => fun w => w.takeArrival tag
  | .deadlineExpiry => fun w => w.whenSome w.lateHead w.expireDeadline
  | .stopInputFall => fun w => (w.setStop false).takeStop.settle w.toState
  | .stopInputRise => fun w => w.setStop true
  | .unannouncedSheetWaitExpiry feed => fun w => w.expireWait feed
  | .blockTimerExpiry => fun w => w.restartTimer.breakBlock.settle w.toState
  | .releaseComesDue => fun w => (w.occasionIf true).settle w.toState
  | .purgeDone p => fun w => (w.endPurge p w.pockets[p].emptied).settle w.toState
  | .purgeTimeout p => fun w => ((w.endPurge p w.pockets[p].timedOut).latch .mechFault).settle w.toState
  | .stapleDone => fun w => w.whenSome w.volumeInFlight fun k => (w.volumeDone k).settle w.toState
  | .stapleTimeout => fun w => w.whenSome w.lateVolume fun k => (w.volumeTimedOut k).settle w.toState
  | .cartridgeFitted => fun w => w.fitCartridge.settle w.toState
  | .ejectDone => fun w => w.whenSome w.deliveryInFlight fun d => (w.completeDelivery d).settle w.toState
  | .ejectTimeout => fun w => w.deliveryTimedOut.settle w.toState
  | .binCleared b => fun w => (w.setBin b { w.ret.bins[b] with fill := 0 }).settle w.toState
  | .flashEnd b => fun w => w.setBin b { w.ret.bins[b] with flash := none }
  | .inboundCharacterTaken mark data => fun w => w.receive true mark data
  | .pacingCharacterSent => fun w =>
    w.whenSome w.link.pacing fun x => w.sendAside { w.link with pacing := none } x.character
  | .loopbackEchoSent => fun w =>
    w.whenSome w.link.echoes.head? fun c => w.sendAside { w.link with echoes := w.link.echoes.tail } c
  | .undefinedActionCode bcast record => fun w => w.answer (actionRecord bcast record).kind .badValue

/-- What must hold for an event to come (assumption 6). -/
def Instr.comes (s : State) : Instr → Bool
  | .recordSent => s.link.sending.isSome && !s.link.stalled
  | .sheetPresentActive feed => !s.pins.sheetPresent[feed]
  | .sheetPresentInactive feed => s.pins.sheetPresent[feed]
  | .deadlineExpiry => s.lateHead.isSome
  | .stopInputFall => s.pins.stopHigh
  | .stopInputRise => !s.pins.stopHigh
  | .unannouncedSheetWaitExpiry feed => s.waitExpired feed
  | .blockTimerExpiry => s.blockExpired
  | .purgeDone p => s.purgeRunning p
  | .purgeTimeout p => s.purgeRanOut p
  | .stapleDone => s.volumeInFlight.isSome
  | .stapleTimeout => s.lateVolume.isSome
  | .ejectDone => s.deliveryInFlight.isSome
  | .ejectTimeout => s.lateDelivery.isSome
  | .flashEnd b => s.flashOver b
  | .pacingCharacterSent => s.link.pacing.isSome
  | .loopbackEchoSent => s.link.pacing.isNone && !s.link.echoes.isEmpty
  | _ => true

/-- The step of a command ends from the work `w`, begun on the state `u`, which differs from `s` in the Link Port alone:
nothing was done, a completed record was offered to the inbound queue, or the command had its effect, its Result being
left out where it came broadcast. -/
inductive Instr.Runs (c : Instr) (s : State) : State → Work → Prop
  | discarded (r : Record) (u : State) (hr : recordOf c = some r) (hu : u = s.dequeue ∨ u = s.completed r) :
    Instr.Runs c s u (Work.of u)
  | offered (r : Record) (hr : recordOf c = some r) :
    Instr.Runs c s (s.completed r) ((Work.of (s.completed r)).offer r)
  | taken (r : Record) (u : State) (hr : recordOf c = some r) (hu : u = s.dequeue ∨ u = s.completed r) :
    Instr.Runs c s u (c.effect (Work.of u))
  | broadcast (r : Record) (u : State) (hr : recordOf c = some r) (hu : u = s.dequeue ∨ u = s.completed r) :
    Instr.Runs c s u { c.effect (Work.of u) with reply := none }
  | event (hr : recordOf c = none) (hc : c.comes s = true) : Instr.Runs c s s (c.effect (Work.of s))

end Sys2Proof

namespace Sys2Proof.Machine

/-- A command of the sheet link is its record taken by the Record Handler (assumption 4). -/
theorem exec_record {c : Instr} {r : Record} (hr : recordOf c = some r) (s : State) :
    exec c s = .next (s.takeRecord r c.effect) := by
  cases c
  case undefinedActionCode b x => cases x <;> (cases hr; rfl)
  all_goals first | (cases hr; rfl) | cases hr

/-- An event has its effect where it comes, and changes nothing where it does not (assumption 6). -/
theorem exec_event {c : Instr} (hr : recordOf c = none) (s : State) :
    exec c s = .next (if c.comes s then (c.effect (Work.of s)).finish else s) := by
  cases c
  case undefinedActionCode b x => cases x <;> cases hr
  case deadlineExpiry =>
    show execDeadlineExpiry s = _
    unfold execDeadlineExpiry
    split <;> simp_all [Instr.comes, Instr.effect, Work.whenSome, State.eventIf]
  case stapleDone =>
    show execStapleDone s = _
    unfold execStapleDone
    split <;> simp_all [Instr.comes, Instr.effect, Work.whenSome, State.eventIf]
  case stapleTimeout =>
    show execStapleTimeout s = _
    unfold execStapleTimeout
    split <;> simp_all [Instr.comes, Instr.effect, Work.whenSome, State.eventIf]
  case ejectDone =>
    show execEjectDone s = _
    unfold execEjectDone
    split <;> simp_all [Instr.comes, Instr.effect, Work.whenSome, State.eventIf]
  case pacingCharacterSent =>
    show execPacingCharacterSent s = _
    unfold execPacingCharacterSent
    split <;> simp_all [Instr.comes, Instr.effect, Work.whenSome, State.eventIf]
  case loopbackEchoSent =>
    show execLoopbackEchoSent s = _
    unfold execLoopbackEchoSent
    split
    next hp he => simp [Instr.comes, Instr.effect, Work.whenSome, State.eventIf, hp, he]
    next hn =>
      rw [if_neg]
      simp only [Instr.comes, Bool.and_eq_true, Option.isNone_iff_eq_none, Bool.not_eq_true', List.isEmpty_eq_false_iff]
      rintro ⟨hp, he⟩
      obtain ⟨c, rest, he⟩ := List.exists_cons_of_ne_nil he
      exact hn c rest hp he
  case recordSent => rfl
  case sheetPresentActive f => rfl
  all_goals first | (cases hr; done) | rfl

/-! ### Which state a command works on, and how its step ends -/

theorem handleRecord_cases (r : Record) (body : Work → Work) (w : Work) :
    handleRecord r body w = w ∨ handleRecord r body w = body w
      ∨ handleRecord r body w = { body w with reply := none } := by
  unfold handleRecord
  split
  · exact .inl rfl
  · split
    · exact .inl rfl
    · split
      · exact .inr (.inr rfl)
      · exact .inr (.inl rfl)

/-- Whatever a command answers, it leaves the state alone or is the end of a step that ran it. -/
theorem exec_cases {c : Instr} {s t : State} (h : exec c s = .next t) :
    t = s ∨ ∃ u w, c.Runs s u w ∧ t = w.finish := by
  cases hr : recordOf c with
  | none =>
    rw [exec_event hr] at h
    cases h
    split
    · next hc => exact .inr ⟨_, _, .event hr hc, rfl⟩
    · exact .inl rfl
  | some r =>
    rw [exec_record hr] at h
    cases h
    have handled (u : State) (hu : u = s.dequeue ∨ u = s.completed r) :
        ∃ u' w, c.Runs s u' w ∧ (handleRecord r c.effect (Work.of u)).finish = w.finish := by
      rcases handleRecord_cases r c.effect (Work.of u) with e | e | e
      · exact ⟨_, _, .discarded r u hr hu, by rw [e]⟩
      · exact ⟨_, _, .taken r u hr hu, by rw [e]⟩
      · exact ⟨_, _, .broadcast r u hr hu, by rw [e]⟩
    rcases s.takeRecord_cases r c.effect with e | e | e | e
    · rw [e]; exact .inr (handled _ (.inl rfl))
    · exact .inl e
    · rw [e]; exact .inr (handled _ (.inr rfl))
    · rw [e]; exact .inr ⟨_, _, .offered r hr, rfl⟩

/-- The state a command works on differs in the Link Port alone. -/
theorem runs_start {c : Instr} {s u : State} {w : Work} (h : c.Runs s u w) : u = { s with link := u.link } := by
  cases h with
  | discarded r u hr hu => rcases hu with rfl | rfl <;> rfl
  | offered r hr => rfl
  | taken r u hr hu => rcases hu with rfl | rfl <;> rfl
  | broadcast r u hr hu => rcases hu with rfl | rfl <;> rfl
  | event hr hc => rfl

/-! ### The offer of a completed record (R169) -/

/-- A record offered changes the Link Port and the latches alone. -/
theorem Work.offer_shape (w : Work) (r : Record) : ∃ l a, w.offer r = { w with link := l, attn := a } := by
  unfold Work.offer
  split
  · exact ⟨_, w.attn, rfl⟩
  · dsimp only
    split
    · exact ⟨w.link, _, rfl⟩
    · unfold Work.receiverResult
      split
      · exact ⟨_, _, rfl⟩
      · exact ⟨w.link, _, rfl⟩

/-! ### Which command a step runs (assumption 1) -/

/-- A step runs a command, on the state with the queue's rest or with a choice made, or lets a millisecond pass. -/
theorem step_cases {s t : State} (h : step s = .next t) :
    (∃ c rest, exec c (s.withPending rest) = .next t) ∨ (∃ c, exec c s.chosen = .next t)
      ∨ (∃ c, exec c s = .next t) ∨ t = s.tick := by
  unfold step at h
  split at h
  · unfold State.idle at h
    split at h
    · cases h; exact .inr (.inr (.inr rfl))
    · exact .inr (.inr (.inl ⟨_, h⟩))
    · exact .inr (.inl ⟨_, h⟩)
  · exact .inl ⟨_, _, h⟩

/-- What every command keeps, a tick keeps, and the waiting commands and the count of choices do not touch, every step
keeps. -/
theorem step_keeps {P : State → Prop} (hq : ∀ s q, P s → P (s.withPending q)) (hc : ∀ s, P s → P s.chosen)
    (ht : ∀ s, P s → P s.tick) (he : ∀ c s t, exec c s = .next t → P s → P t) {s t : State}
    (h : step s = .next t) (hs : P s) : P t := by
  rcases step_cases h with ⟨c, q, h⟩ | ⟨c, h⟩ | ⟨c, h⟩ | rfl
  · exact he c _ t h (hq s q hs)
  · exact he c _ t h (hc s hs)
  · exact he c s t h hs
  · exact ht s hs

end Sys2Proof.Machine
end

section
/-! SUPPORT. The parts of the state that only a few commands name (`Outer`): the time base, the input levels, the straps,
the waiting commands and the count of choices; and the settling of `Obligations.StepRunsTheFrontCommand`,
`Obligations.EmptyQueueRunsWhatIsDue`, `Obligations.RecordsOfTheLayouts` and `Obligations.EveryCommandAnswers`. -/

namespace Sys2Proof.Machine

/-- The parts of a state that only the commands naming them change. -/
structure Outer where
  now : Time
  pins : Pins
  straps : Straps
  choices : Nat
  pending : List Instr

/-- The outer parts of a state. -/
def State.outer (s : State) : Outer := ⟨s.now, s.pins, s.run.straps, s.choices, s.pending⟩

theorem Work.outer_of_frame {v w : Work} (h : v.frame = w.frame) : v.outer = w.outer :=
  congrArg (fun f : Frame => (⟨f.now, f.pins, f.straps, f.choices, f.pending⟩ : Outer)) h

section
variable (w : Work)

@[simp] theorem Work.outer_settle (s : State) : (w.settle s).outer = w.outer := Work.outer_of_frame (w.frame_settle s)
@[simp] theorem Work.outer_answer (k : Byte) (st : Status) (d : List Byte) (n : Notes) :
    (w.answer k st d n).outer = w.outer := rfl
@[simp] theorem Work.outer_setReceiver (r : Receiver) : (w.setReceiver r).outer = w.outer := rfl
@[simp] theorem Work.outer_latch (c : Cause) : (w.latch c).outer = w.outer := rfl
@[simp] theorem Work.outer_setGroup (g : Option (List Staged)) : (w.setGroup g).outer = w.outer := rfl
@[simp] theorem Work.outer_clearMark : w.clearMark.outer = w.outer := rfl
@[simp] theorem Work.outer_setLoopback (b : Bool) : (w.setLoopback b).outer = w.outer := rfl
@[simp] theorem Work.outer_clearLatches : w.clearLatches.outer = w.outer := rfl
@[simp] theorem Work.outer_addMarker (m : Marker) : (w.addMarker m).outer = w.outer := rfl
@[simp] theorem Work.outer_addDrains (l : List Byte) : (w.addDrains l).outer = w.outer := rfl
@[simp] theorem Work.outer_sendAside (l : LinkPort) (c : LineChar) : (w.sendAside l c).outer = w.outer := rfl
@[simp] theorem Work.outer_entered (s : State) : (w.entered s).outer = w.outer := by simp [Work.entered]

theorem Work.outer_each {α : Type} (f : Work → α → Work) (l : List α) (h : ∀ x a, (f x a).outer = x.outer) :
    (w.each f l).outer = w.outer := by
  induction l generalizing w with
  | nil => rfl
  | cons a l ih => exact (ih (f w a)).trans (h w a)

/-! ### The receiver -/

@[simp] theorem Work.outer_receiverResult (k : Byte) (st : Status) : (w.receiverResult k st).outer = w.outer := by
  unfold Work.receiverResult
  split <;> rfl

@[simp] theorem Work.outer_spoil : w.spoil.outer = w.outer := by
  unfold Work.spoil
  dsimp only
  split <;> simp

@[simp] theorem Work.outer_offer (r : Record) : (w.offer r).outer = w.outer := by
  obtain ⟨l, a, h⟩ := w.offer_shape r
  rw [h]
  rfl

@[simp] theorem Work.outer_takeAddress (n : Nat) : (w.takeAddress n).outer = w.outer := by
  unfold Work.takeAddress
  split
  · rfl
  · split <;> rfl

@[simp] theorem Work.outer_takeData (d : Byte) : (w.takeData d).outer = w.outer := by
  unfold Work.takeData
  split
  · rfl
  · split
    · simp
    · split <;> simp
  · split <;> simp
  · rfl

@[simp] theorem Work.outer_receive (sound mark : Bool) (d : Byte) : (w.receive sound mark d).outer = w.outer := by
  unfold Work.receive
  dsimp only
  split
  · simp; rfl
  · split
    · simp; rfl
    · split <;> split <;> simp <;> rfl

/-! ### Writes -/

theorem State.writeEntry_outer (s : State) (x : Staged) : (s.writeEntry x).outer = s.outer := by
  unfold State.writeEntry
  split <;> rfl

theorem State.writeAll_outer (ws : List Staged) (s : State) : (s.writeAll ws).outer = s.outer := by
  induction ws generalizing s with
  | nil => rfl
  | cons x ws ih => exact (ih _).trans (s.writeEntry_outer x)

@[simp] theorem Work.outer_settleFeed (f : FeedId) : (w.settleFeed f).outer = w.outer := by
  unfold Work.settleFeed
  dsimp only
  split
  · rfl
  · exact Work.outer_of_frame (w.frame_setFeed _ _)

@[simp] theorem Work.outer_meetSettings : w.meetSettings.outer = w.outer :=
  (Work.outer_of_frame (Work.frame_judgeStaples _)).trans rfl

@[simp] theorem Work.outer_meetWrite (b : State) (ws : List Staged) : (w.meetWrite b ws).outer = w.outer := by
  have each : ∀ o, (((w.each (fun (x : Work) (y : Staged) => x.touch y.ref) ws).occasionIf o).each Work.settleFeed
      allFeeds).outer = w.outer := fun o => by
    rw [Work.outer_each _ _ _ Work.outer_settleFeed]
    exact (Work.outer_of_frame (Work.frame_occasionIf _ _)).trans
      (Work.outer_each _ _ _ fun x y => Work.outer_of_frame (x.frame_touch _))
  unfold Work.meetWrite
  dsimp only
  split
  · exact (Work.outer_meetSettings _).trans (each _)
  · exact each _

@[simp] theorem Work.outer_takeWrites (ws : List Staged) : (w.takeWrites ws).outer = w.outer := by
  unfold Work.takeWrites
  dsimp only
  rw [Work.outer_settle, Work.outer_meetWrite]
  exact State.writeAll_outer ws _

@[simp] theorem Work.outer_tableWriteItems (b c : Bool) (items : List WriteItem) :
    (w.tableWriteItems b c items).outer = w.outer := by
  unfold Work.tableWriteItems
  dsimp only
  split
  · rfl
  · split
    · unfold Work.stage
      split <;> rfl
    · simp [Work.writeNow]

/-! ### Resets -/

@[simp] theorem Work.outer_resetCommon (k : ResetKind) : (w.resetCommon k).outer = w.outer := by
  unfold Work.resetCommon Work.resetFeeds Work.resetPockets Work.resetBins
  dsimp only
  rw [Work.outer_each _ (Work.resetBin _) _ fun _ _ => rfl, Work.outer_each _ (Work.resetPocket _) _ fun _ _ => rfl,
    Work.outer_each _ (Work.resetFeed _) _ fun _ _ => rfl]
  rfl

/-! ### The commands -/

theorem Work.outer_settle_of_frame {v w : Work} {s : State} (h : v.frame = w.frame) : (v.settle s).outer = w.outer :=
  (v.outer_settle s).trans (Work.outer_of_frame h)

@[simp] theorem Work.outer_sheetNotice (f h p g : Byte) (t : Half) : (w.sheetNotice f h p g t).outer = w.outer := by
  unfold Work.sheetNotice
  split
  · rfl
  · exact Work.outer_settle_of_frame (Work.frame_setFeed _ _ _)

@[simp] theorem Work.outer_packAnnounce (h j : Byte) (st : Half) (p : Byte) :
    (w.packAnnounce h j st p).outer = w.outer := by
  unfold Work.packAnnounce
  split
  · rfl
  · rw [Work.outer_answer]
    exact Work.outer_settle_of_frame (Work.frame_acceptPack _ _ _)

@[simp] theorem Work.outer_packWithdraw (h : Byte) : (w.packWithdraw h).outer = w.outer := by
  unfold Work.packWithdraw
  split
  · rfl
  · split
    · rfl
    · rw [Work.outer_answer]
      exact Work.outer_settle_of_frame (Work.frame_withdrawPack _ _)

@[simp] theorem Work.outer_tableRead (b i n : Nat) : (w.tableRead b i n).outer = w.outer := by
  unfold Work.tableRead
  (repeat' split) <;> rfl

@[simp] theorem Work.outer_tableWrite (bc : Bool) (b i : Nat) (l : List Byte) :
    (w.tableWrite bc b i l).outer = w.outer := by
  unfold Work.tableWrite
  (repeat' split) <;> simp

@[simp] theorem Work.outer_tableMark (b i : Nat) : (w.tableMark b i).outer = w.outer := by
  unfold Work.tableMark
  (repeat' split) <;> rfl

@[simp] theorem Work.outer_markedWriteItem (x : WriteItem) : (w.markedWriteItem x).outer = w.outer := by
  unfold Work.markedWriteItem
  split <;> simp

@[simp] theorem Work.outer_markedWrite (b i : Nat) (l : List Byte) : (w.markedWrite b i l).outer = w.outer := by
  unfold Work.markedWrite
  rw [Work.outer_clearMark]
  (repeat' split) <;> simp

@[simp] theorem Work.outer_groupOpen : w.groupOpen.outer = w.outer := by
  unfold Work.groupOpen
  split <;> rfl

@[simp] theorem Work.outer_groupClose : w.groupClose.outer = w.outer := by
  unfold Work.groupClose
  (repeat' split) <;> simp

@[simp] theorem Work.outer_groupDiscard : w.groupDiscard.outer = w.outer := by
  unfold Work.groupDiscard
  split <;> rfl

@[simp] theorem Work.outer_drainMarker (id : Byte) : (w.drainMarker id).outer = w.outer := by
  unfold Work.drainMarker
  dsimp only
  (repeat' split) <;> rfl

theorem Work.outer_entered_of_frame {v w : Work} {s : State} (h : v.frame = w.frame) : (v.entered s).outer = w.outer := by
  rw [Work.outer_entered]
  exact Work.outer_of_frame h

@[simp] theorem Work.outer_controlRun : w.controlRun.outer = w.outer := by
  unfold Work.controlRun
  split
  · exact Work.outer_entered_of_frame (Work.frame_setRunState _ _)
  · exact Work.outer_entered_of_frame (Work.frame_setRunState _ _)
  · rfl

@[simp] theorem Work.outer_controlPause : w.controlPause.outer = w.outer := by
  unfold Work.controlPause
  split
  · exact Work.outer_entered_of_frame (Work.frame_setRunState _ _)
  · rfl

@[simp] theorem Work.outer_controlStandby : w.controlStandby.outer = w.outer := by
  unfold Work.controlStandby
  split
  · exact Work.outer_entered_of_frame (Work.frame_setRunState _ _)
  · exact Work.outer_entered_of_frame (Work.frame_setRunState _ _)
  · exact Work.outer_entered_of_frame (Work.frame_setRunState _ _)
  · rfl

@[simp] theorem Work.outer_controlBypass : w.controlBypass.outer = w.outer := by
  unfold Work.controlBypass
  split
  · exact Work.outer_entered_of_frame (Work.frame_enterBypass _)
  · rfl

@[simp] theorem Work.outer_controlResume : w.controlResume.outer = w.outer := by
  unfold Work.controlResume
  split
  · split
    · exact Work.outer_entered_of_frame (Work.frame_resume _ _)
    · rfl
  · rfl

@[simp] theorem Work.outer_clearStapler : w.clearStapler.outer = w.outer := by
  unfold Work.clearStapler
  split
  · rw [Work.outer_answer]
    exact Work.outer_settle_of_frame (Work.frame_setStapler _ _ _ _)
  · rfl

/-- What CLEAR RETURN does is the completion or the loss of the delivery (R119). -/
theorem Work.settleDelivery_cases {d : DeliveryRec} {o : Byte} {v : Work} (h : w.settleDelivery d o = some v) :
    (o = 1 ∧ v = w.completeDelivery d) ∨ (o = 2 ∧ v = w.loseDelivery d) := by
  unfold Work.settleDelivery at h
  split at h
  · next ho => cases h; exact .inl ⟨ho, rfl⟩
  · split at h
    · next ho => cases h; exact .inr ⟨ho, rfl⟩
    · cases h

@[simp] theorem Work.outer_clearReturn (o : Byte) : (w.clearReturn o).outer = w.outer := by
  unfold Work.clearReturn
  split
  · split
    · rfl
    · next hd =>
      rw [Work.outer_answer]
      rcases Work.settleDelivery_cases _ hd with ⟨-, rfl⟩ | ⟨-, rfl⟩
      · exact Work.outer_settle_of_frame (Work.frame_completeDelivery _ _)
      · exact Work.outer_settle_of_frame (Work.frame_loseDelivery _ _)
  · rfl

@[simp] theorem Work.outer_feedFlush (f : Byte) : (w.feedFlush f).outer = w.outer := by
  unfold Work.feedFlush
  split
  · rfl
  · rw [Work.outer_answer]
    exact Work.outer_settle_of_frame (Work.frame_flushFeed _ _)

@[simp] theorem Work.outer_takeStop : w.takeStop.outer = w.outer := Work.outer_of_frame w.frame_takeStop

@[simp] theorem Work.outer_takeArrival (t : Option TagNum) : (w.takeArrival t).outer = w.outer := by
  unfold Work.takeArrival
  split
  · exact Work.outer_of_frame (by simp)
  · exact Work.outer_settle_of_frame (by simp)

@[simp] theorem Work.frame_endPurge (p : PocketId) (r : PocketRec) : (w.endPurge p r).frame = w.frame := by
  unfold Work.endPurge
  dsimp only
  split <;> simp

@[simp] theorem Work.outer_whenSome {α : Type} (o : Option α) (f : α → Work) (h : ∀ x, (f x).outer = w.outer) :
    (w.whenSome o f).outer = w.outer := by
  cases o
  · rfl
  · exact h _

end

end Sys2Proof.Machine

namespace Sys2Proof

open Machine

/-- What a command makes of the outer parts of the state. -/
def Instr.outerAfter (o : Outer) : Instr → Outer
  | .powerOn straps => { o with now := 0, straps := straps }
  | .resetPin straps => { o with straps := straps }
  | .stopInputFall => { o with pins := { o.pins with stopHigh := false } }
  | .stopInputRise => { o with pins := { o.pins with stopHigh := true } }
  | .sheetPresentActive f => { o with pins := { o.pins with sheetPresent := o.pins.sheetPresent.set f true } }
  | .sheetPresentInactive f => { o with pins := { o.pins with sheetPresent := o.pins.sheetPresent.set f false } }
  | _ => o

end Sys2Proof

namespace Sys2Proof.Machine

theorem effect_outer (c : Instr) (w : Work) : (c.effect w).outer = c.outerAfter w.outer := by
  cases c <;> simp only [Instr.effect, Instr.outerAfter]
  case powerOn => rw [Work.outer_settle, Work.coldReset, Work.outer_resetCommon]; rfl
  case resetPin => rw [Work.outer_settle, Work.coldReset, Work.outer_resetCommon]; rfl
  case resetAll => rw [Work.outer_answer, Work.outer_settle, Work.resetAll, Work.outer_resetCommon]; rfl
  case resetWork => rw [Work.outer_answer, Work.outer_settle, Work.resetWork, Work.outer_resetCommon]
  case stopCharacter => rw [Work.outer_settle, Work.outer_takeStop]; rfl
  case stopInputFall => rw [Work.outer_settle, Work.outer_takeStop]; rfl
  case sheetPresentActive f => exact Work.outer_settle_of_frame (Work.frame_setFeed (w.setPresent f true) _ _)
  case sheetPresentInactive f => exact Work.outer_settle_of_frame (Work.frame_setFeed (w.setPresent f false) _ _)
  case recordComplete => exact Work.outer_offer _ _
  case deadlineExpiry =>
    exact w.outer_whenSome _ _ fun e => Work.outer_settle_of_frame (by simp)
  case stapleDone => exact w.outer_whenSome _ _ fun k => Work.outer_settle_of_frame (by simp)
  case stapleTimeout => exact w.outer_whenSome _ _ fun k => Work.outer_settle_of_frame (by simp)
  case ejectDone => exact w.outer_whenSome _ _ fun k => Work.outer_settle_of_frame (by simp)
  case pacingCharacterSent => exact w.outer_whenSome _ _ fun _ => rfl
  case loopbackEchoSent => exact w.outer_whenSome _ _ fun _ => rfl
  case unannouncedSheetWaitExpiry => exact Work.outer_settle_of_frame (Work.frame_setFeed _ _ _)
  case blockTimerExpiry => exact Work.outer_settle_of_frame (by simp)
  case releaseComesDue => exact Work.outer_settle_of_frame (by simp)
  case purgeDone => exact Work.outer_settle_of_frame (by simp)
  case purgeTimeout => exact Work.outer_settle_of_frame (by simp)
  case cartridgeFitted => exact Work.outer_settle_of_frame (by simp)
  case ejectTimeout => exact Work.outer_settle_of_frame (by simp)
  case binCleared => exact Work.outer_settle_of_frame (by simp)
  case flashEnd => exact Work.outer_of_frame (by simp)
  all_goals first | rfl | simp

theorem Work.finish_outer (w : Work) : w.finish.outer = w.outer := by
  rw [show w.finish = _ from w.finish_sameWork]
  rfl

/-- The outer parts after a command that had its effect. -/
theorem runs_outer {c : Instr} {s u : State} {w : Work} (h : c.Runs s u w) : w.outer = c.outerAfter s.outer := by
  have hu : u.outer = s.outer := by rw [runs_start h]; rfl
  have outerRecord {r : Record} (hr : recordOf c = some r) (o : Outer) : c.outerAfter o = o := by
    cases c <;> first | rfl | cases hr
  cases h with
  | discarded r u hr _ => exact hu.trans (outerRecord hr _).symm
  | offered r hr => exact (Work.outer_offer _ r).trans (outerRecord hr _).symm
  | taken r u hr _ => rw [effect_outer]; exact congrArg (fun o => c.outerAfter o) hu
  | broadcast r u hr _ => exact (effect_outer c _).trans (congrArg (fun o => c.outerAfter o) hu)
  | event _ _ => exact effect_outer c _

/-- The levels a command names are the levels it leaves, come or not (assumption 6). -/
theorem exec_outer {c : Instr} {s t : State} (h : exec c s = .next t) : t.outer = c.outerAfter s.outer := by
  rcases hr : recordOf c with _ | r
  · rw [exec_event hr] at h
    cases h
    by_cases hc : c.comes s = true
    · rw [if_pos hc, Work.finish_outer, effect_outer]
      rfl
    · rw [if_neg hc]
      cases c
      case powerOn => exact absurd rfl hc
      case resetPin => exact absurd rfl hc
      case stopInputFall =>
        have h0 : s.pins.stopHigh = false := by simpa [Instr.comes] using hc
        simp only [Instr.outerAfter, State.outer, ← h0]
      case stopInputRise =>
        have h1 : s.pins.stopHigh = true := by simpa [Instr.comes] using hc
        simp only [Instr.outerAfter, State.outer, ← h1]
      case sheetPresentActive f =>
        have h1 : s.pins.sheetPresent[f] = true := by simpa [Instr.comes] using hc
        simp only [Instr.outerAfter, State.outer, ← h1, Fin.getElem_fin, Vector.set_getElem_self]
      case sheetPresentInactive f =>
        have h0 : s.pins.sheetPresent[f] = false := by simpa [Instr.comes] using hc
        simp only [Instr.outerAfter, State.outer, ← h0, Fin.getElem_fin, Vector.set_getElem_self]
      all_goals rfl
  · rcases exec_cases h with rfl | ⟨u, w, hw, rfl⟩
    · cases c <;> first | rfl | cases hr
    · rw [Work.finish_outer, runs_outer hw]

end Sys2Proof.Machine

namespace Sys2Proof.Proofs

open Sys2Proof.Machine

/-- Settles O1: the equation of `step` for a queue that is not empty. -/
theorem stepRunsTheFrontCommand : Obligations.StepRunsTheFrontCommand := by
  unfold Obligations.StepRunsTheFrontCommand
  intro c s rest hq
  rw [step, hq]

/-- Settles O2: the three lines of `State.idle`; the free choice picks a member of the list whatever it answers. -/
theorem emptyQueueRunsWhatIsDue : Obligations.EmptyQueueRunsWhatIsDue := by
  unfold Obligations.EmptyQueueRunsWhatIsDue
  intro s hq
  have hstep : step s = s.idle := by rw [step, hq]
  refine ⟨fun hnone => ?none, fun i hone => ?one, fun hmany => ?many⟩
  case none => rw [hstep, State.idle, hnone]; rfl
  case one => rw [hstep, State.idle, hone]
  case many =>
    match hdue : s.dueEvents with
    | [] => simp [hdue] at hmany
    | [_] => simp [hdue] at hmany
    | i :: j :: rest =>
      refine ⟨_, ?_, by rw [hstep, State.idle, hdue]; rfl⟩
      have hlt : Config.raceChoice s.choices % (rest.length + 2) < (i :: j :: rest).length :=
        Nat.mod_lt _ (by omega)
      rw [List.getD_eq_getElem _ _ hlt]
      exact List.getElem_mem hlt

/-- Settles O23: each record and each character is read as written. -/
theorem recordsOfTheLayouts : Obligations.RecordsOfTheLayouts := by
  unfold Obligations.RecordsOfTheLayouts
  decide

/-- Settles O3: what a command makes of the outer parts of the state, read off for each of them. -/
theorem everyCommandAnswers : Obligations.EveryCommandAnswers := by
  unfold Obligations.EveryCommandAnswers
  intro c s
  have hnext : ∃ t, exec c s = .next t := by
    rcases hr : recordOf c with _ | r
    · exact ⟨_, exec_event hr s⟩
    · exact ⟨_, exec_record hr s⟩
  obtain ⟨t, ht⟩ := hnext
  refine ⟨t, ht, ?_⟩
  have ho := exec_outer ht
  obtain ⟨hnow, hpins, hstraps, hchoices, hpending⟩ : t.now = (c.outerAfter s.outer).now
      ∧ t.pins = (c.outerAfter s.outer).pins ∧ t.run.straps = (c.outerAfter s.outer).straps
      ∧ t.choices = (c.outerAfter s.outer).choices ∧ t.pending = (c.outerAfter s.outer).pending := by
    rw [← ho]
    exact ⟨rfl, rfl, rfl, rfl, rfl⟩
  rw [hnow, hpins, hstraps, hchoices, hpending]
  cases c
  case powerOn x => exact ⟨rfl, rfl, fun h => absurd rfl (h x), by simp [Instr.outerAfter, State.outer]⟩
  case resetPin x => simp [Instr.outerAfter, State.outer]
  case sheetPresentActive g =>
    refine ⟨rfl, rfl, fun _ => ⟨rfl, fun _ => rfl⟩, by simp [Instr.outerAfter, State.outer], fun f => ?_⟩
    simp [Instr.outerAfter, State.outer, Vector.getElem_set, Fin.val_inj]
  case sheetPresentInactive g =>
    refine ⟨rfl, rfl, fun _ => ⟨rfl, fun _ => rfl⟩, by simp [Instr.outerAfter, State.outer], fun f => ?_⟩
    simp [Instr.outerAfter, State.outer, Vector.getElem_set, Fin.val_inj]
  all_goals simp [Instr.outerAfter, State.outer]

end Sys2Proof.Proofs
end

section
/-! SUPPORT. The setters whose changes touch entries (R158): which parts of the state each leaves alone, and what it gives
the part it names. -/

namespace Sys2Proof.Machine

section
variable (w : Work)

/-! ### The shapes of the other setters -/

theorem Work.setClassQueue_shape (c : ClassId) (q : List Handle) : ∃ m o, w.setClassQueue c q =
    { w with reg := { w.reg with queues := Sparse.put [] w.reg.queues c q }
             tables := { w.tables with mark := m }, occasion := o } := by
  unfold Work.setClassQueue
  dsimp only [Work.occasionIf]
  obtain ⟨m, h⟩ := Work.touchIf_shape
    { w with reg := { w.reg with queues := Sparse.put [] w.reg.queues c q }
             occasion := w.occasion || decide (q.head? ≠ (w.classQueue c).head?) }
    (decide (q.length ≠ (w.classQueue c).length)) (.cls c)
  exact ⟨m, _, h⟩

theorem Work.setBin_shape (b : BinId) (r : BinRec) : ∃ m, w.setBin b r =
    { w with ret := { w.ret with bins := w.ret.bins.set b r }, tables := { w.tables with mark := m } } := by
  unfold Work.setBin
  obtain ⟨m, h⟩ := Work.touchIf_shape { w with ret := { w.ret with bins := w.ret.bins.set b r } }
    (decide (r.fill ≠ w.ret.bins[b].fill)) (.bin b)
  exact ⟨m, h⟩

theorem Work.setRunState_shape (st : RunState) : ∃ o, w.setRunState st =
    { w with run := { w.run with state := st }, occasion := o } := ⟨_, rfl⟩

/-! ### `setPack` -/

@[simp] theorem Work.setPack_reg (k : Handle) (r : PackRec) :
    (w.setPack k r).reg = { w.reg with packs := Sparse.put PackRec.cleared w.reg.packs k r } := by
  obtain ⟨m, o, h⟩ := w.setPack_shape k r; rw [h]
@[simp] theorem Work.setPack_now (k : Handle) (r : PackRec) : (w.setPack k r).now = w.now := by
  obtain ⟨m, o, h⟩ := w.setPack_shape k r; rw [h]
@[simp] theorem Work.setPack_pins (k : Handle) (r : PackRec) : (w.setPack k r).pins = w.pins := by
  obtain ⟨m, o, h⟩ := w.setPack_shape k r; rw [h]
@[simp] theorem Work.setPack_link (k : Handle) (r : PackRec) : (w.setPack k r).link = w.link := by
  obtain ⟨m, o, h⟩ := w.setPack_shape k r; rw [h]
@[simp] theorem Work.setPack_feeds (k : Handle) (r : PackRec) : (w.setPack k r).feeds = w.feeds := by
  obtain ⟨m, o, h⟩ := w.setPack_shape k r; rw [h]
@[simp] theorem Work.setPack_arb (k : Handle) (r : PackRec) : (w.setPack k r).arb = w.arb := by
  obtain ⟨m, o, h⟩ := w.setPack_shape k r; rw [h]
@[simp] theorem Work.setPack_pockets (k : Handle) (r : PackRec) : (w.setPack k r).pockets = w.pockets := by
  obtain ⟨m, o, h⟩ := w.setPack_shape k r; rw [h]
@[simp] theorem Work.setPack_stapler (k : Handle) (r : PackRec) : (w.setPack k r).stapler = w.stapler := by
  obtain ⟨m, o, h⟩ := w.setPack_shape k r; rw [h]
@[simp] theorem Work.setPack_ret (k : Handle) (r : PackRec) : (w.setPack k r).ret = w.ret := by
  obtain ⟨m, o, h⟩ := w.setPack_shape k r; rw [h]
@[simp] theorem Work.setPack_attn (k : Handle) (r : PackRec) : (w.setPack k r).attn = w.attn := by
  obtain ⟨m, o, h⟩ := w.setPack_shape k r; rw [h]
@[simp] theorem Work.setPack_run (k : Handle) (r : PackRec) : (w.setPack k r).run = w.run := by
  obtain ⟨m, o, h⟩ := w.setPack_shape k r; rw [h]
@[simp] theorem Work.setPack_releasePulses (k : Handle) (r : PackRec) : (w.setPack k r).releasePulses = w.releasePulses := by
  obtain ⟨m, o, h⟩ := w.setPack_shape k r; rw [h]
@[simp] theorem Work.setPack_notices (k : Handle) (r : PackRec) : (w.setPack k r).notices = w.notices := by
  obtain ⟨m, o, h⟩ := w.setPack_shape k r; rw [h]
@[simp] theorem Work.setPack_drains (k : Handle) (r : PackRec) : (w.setPack k r).drains = w.drains := by
  obtain ⟨m, o, h⟩ := w.setPack_shape k r; rw [h]
@[simp] theorem Work.setPack_report (k : Handle) (r : PackRec) : (w.setPack k r).report = w.report := by
  obtain ⟨m, o, h⟩ := w.setPack_shape k r; rw [h]
@[simp] theorem Work.setPack_reply (k : Handle) (r : PackRec) : (w.setPack k r).reply = w.reply := by
  obtain ⟨m, o, h⟩ := w.setPack_shape k r; rw [h]
@[simp] theorem Work.setPack_progress (k : Handle) (r : PackRec) : (w.setPack k r).progress = w.progress := by
  obtain ⟨m, o, h⟩ := w.setPack_shape k r; rw [h]
@[simp] theorem Work.setPack_unmarked (k : Handle) (r : PackRec) :
    { (w.setPack k r).tables with mark := none } = { w.tables with mark := none } := by
  obtain ⟨m, o, h⟩ := w.setPack_shape k r; rw [h]
@[simp] theorem Work.setPack_jobs (k : Handle) (r : PackRec) : (w.setPack k r).tables.jobs = w.tables.jobs := by
  obtain ⟨m, o, h⟩ := w.setPack_shape k r; rw [h]
@[simp] theorem Work.setPack_classes (k : Handle) (r : PackRec) : (w.setPack k r).tables.classes = w.tables.classes := by
  obtain ⟨m, o, h⟩ := w.setPack_shape k r; rw [h]
@[simp] theorem Work.setPack_roster (k : Handle) (r : PackRec) : (w.setPack k r).tables.roster = w.tables.roster := by
  obtain ⟨m, o, h⟩ := w.setPack_shape k r; rw [h]
@[simp] theorem Work.setPack_media (k : Handle) (r : PackRec) : (w.setPack k r).tables.media = w.tables.media := by
  obtain ⟨m, o, h⟩ := w.setPack_shape k r; rw [h]
@[simp] theorem Work.setPack_travel (k : Handle) (r : PackRec) : (w.setPack k r).tables.travel = w.tables.travel := by
  obtain ⟨m, o, h⟩ := w.setPack_shape k r; rw [h]
@[simp] theorem Work.setPack_settings (k : Handle) (r : PackRec) : (w.setPack k r).tables.settings = w.tables.settings := by
  obtain ⟨m, o, h⟩ := w.setPack_shape k r; rw [h]
@[simp] theorem Work.setPack_masks (k : Handle) (r : PackRec) : (w.setPack k r).tables.masks = w.tables.masks := by
  obtain ⟨m, o, h⟩ := w.setPack_shape k r; rw [h]
@[simp] theorem Work.setPack_group (k : Handle) (r : PackRec) : (w.setPack k r).tables.group = w.tables.group := by
  obtain ⟨m, o, h⟩ := w.setPack_shape k r; rw [h]

/-! ### `setClassQueue` -/

@[simp] theorem Work.setClassQueue_reg (c : ClassId) (q : List Handle) :
    (w.setClassQueue c q).reg = { w.reg with queues := Sparse.put [] w.reg.queues c q } := by
  obtain ⟨m, o, h⟩ := w.setClassQueue_shape c q; rw [h]
@[simp] theorem Work.setClassQueue_now (c : ClassId) (q : List Handle) : (w.setClassQueue c q).now = w.now := by
  obtain ⟨m, o, h⟩ := w.setClassQueue_shape c q; rw [h]
@[simp] theorem Work.setClassQueue_pins (c : ClassId) (q : List Handle) : (w.setClassQueue c q).pins = w.pins := by
  obtain ⟨m, o, h⟩ := w.setClassQueue_shape c q; rw [h]
@[simp] theorem Work.setClassQueue_link (c : ClassId) (q : List Handle) : (w.setClassQueue c q).link = w.link := by
  obtain ⟨m, o, h⟩ := w.setClassQueue_shape c q; rw [h]
@[simp] theorem Work.setClassQueue_feeds (c : ClassId) (q : List Handle) : (w.setClassQueue c q).feeds = w.feeds := by
  obtain ⟨m, o, h⟩ := w.setClassQueue_shape c q; rw [h]
@[simp] theorem Work.setClassQueue_arb (c : ClassId) (q : List Handle) : (w.setClassQueue c q).arb = w.arb := by
  obtain ⟨m, o, h⟩ := w.setClassQueue_shape c q; rw [h]
@[simp] theorem Work.setClassQueue_pockets (c : ClassId) (q : List Handle) : (w.setClassQueue c q).pockets = w.pockets := by
  obtain ⟨m, o, h⟩ := w.setClassQueue_shape c q; rw [h]
@[simp] theorem Work.setClassQueue_stapler (c : ClassId) (q : List Handle) : (w.setClassQueue c q).stapler = w.stapler := by
  obtain ⟨m, o, h⟩ := w.setClassQueue_shape c q; rw [h]
@[simp] theorem Work.setClassQueue_ret (c : ClassId) (q : List Handle) : (w.setClassQueue c q).ret = w.ret := by
  obtain ⟨m, o, h⟩ := w.setClassQueue_shape c q; rw [h]
@[simp] theorem Work.setClassQueue_attn (c : ClassId) (q : List Handle) : (w.setClassQueue c q).attn = w.attn := by
  obtain ⟨m, o, h⟩ := w.setClassQueue_shape c q; rw [h]
@[simp] theorem Work.setClassQueue_run (c : ClassId) (q : List Handle) : (w.setClassQueue c q).run = w.run := by
  obtain ⟨m, o, h⟩ := w.setClassQueue_shape c q; rw [h]
@[simp] theorem Work.setClassQueue_releasePulses (c : ClassId) (q : List Handle) : (w.setClassQueue c q).releasePulses = w.releasePulses := by
  obtain ⟨m, o, h⟩ := w.setClassQueue_shape c q; rw [h]
@[simp] theorem Work.setClassQueue_notices (c : ClassId) (q : List Handle) : (w.setClassQueue c q).notices = w.notices := by
  obtain ⟨m, o, h⟩ := w.setClassQueue_shape c q; rw [h]
@[simp] theorem Work.setClassQueue_drains (c : ClassId) (q : List Handle) : (w.setClassQueue c q).drains = w.drains := by
  obtain ⟨m, o, h⟩ := w.setClassQueue_shape c q; rw [h]
@[simp] theorem Work.setClassQueue_report (c : ClassId) (q : List Handle) : (w.setClassQueue c q).report = w.report := by
  obtain ⟨m, o, h⟩ := w.setClassQueue_shape c q; rw [h]
@[simp] theorem Work.setClassQueue_reply (c : ClassId) (q : List Handle) : (w.setClassQueue c q).reply = w.reply := by
  obtain ⟨m, o, h⟩ := w.setClassQueue_shape c q; rw [h]
@[simp] theorem Work.setClassQueue_progress (c : ClassId) (q : List Handle) : (w.setClassQueue c q).progress = w.progress := by
  obtain ⟨m, o, h⟩ := w.setClassQueue_shape c q; rw [h]
@[simp] theorem Work.setClassQueue_unmarked (c : ClassId) (q : List Handle) :
    { (w.setClassQueue c q).tables with mark := none } = { w.tables with mark := none } := by
  obtain ⟨m, o, h⟩ := w.setClassQueue_shape c q; rw [h]
@[simp] theorem Work.setClassQueue_jobs (c : ClassId) (q : List Handle) : (w.setClassQueue c q).tables.jobs = w.tables.jobs := by
  obtain ⟨m, o, h⟩ := w.setClassQueue_shape c q; rw [h]
@[simp] theorem Work.setClassQueue_classes (c : ClassId) (q : List Handle) : (w.setClassQueue c q).tables.classes = w.tables.classes := by
  obtain ⟨m, o, h⟩ := w.setClassQueue_shape c q; rw [h]
@[simp] theorem Work.setClassQueue_roster (c : ClassId) (q : List Handle) : (w.setClassQueue c q).tables.roster = w.tables.roster := by
  obtain ⟨m, o, h⟩ := w.setClassQueue_shape c q; rw [h]
@[simp] theorem Work.setClassQueue_media (c : ClassId) (q : List Handle) : (w.setClassQueue c q).tables.media = w.tables.media := by
  obtain ⟨m, o, h⟩ := w.setClassQueue_shape c q; rw [h]
@[simp] theorem Work.setClassQueue_travel (c : ClassId) (q : List Handle) : (w.setClassQueue c q).tables.travel = w.tables.travel := by
  obtain ⟨m, o, h⟩ := w.setClassQueue_shape c q; rw [h]
@[simp] theorem Work.setClassQueue_settings (c : ClassId) (q : List Handle) : (w.setClassQueue c q).tables.settings = w.tables.settings := by
  obtain ⟨m, o, h⟩ := w.setClassQueue_shape c q; rw [h]
@[simp] theorem Work.setClassQueue_masks (c : ClassId) (q : List Handle) : (w.setClassQueue c q).tables.masks = w.tables.masks := by
  obtain ⟨m, o, h⟩ := w.setClassQueue_shape c q; rw [h]
@[simp] theorem Work.setClassQueue_group (c : ClassId) (q : List Handle) : (w.setClassQueue c q).tables.group = w.tables.group := by
  obtain ⟨m, o, h⟩ := w.setClassQueue_shape c q; rw [h]

/-! ### `setFeed` -/

@[simp] theorem Work.setFeed_feeds (f : FeedId) (r : FeedRec) :
    (w.setFeed f r).feeds = w.feeds.set f r := by
  obtain ⟨m, o, h⟩ := w.setFeed_shape f r; rw [h]
@[simp] theorem Work.setFeed_now (f : FeedId) (r : FeedRec) : (w.setFeed f r).now = w.now := by
  obtain ⟨m, o, h⟩ := w.setFeed_shape f r; rw [h]
@[simp] theorem Work.setFeed_pins (f : FeedId) (r : FeedRec) : (w.setFeed f r).pins = w.pins := by
  obtain ⟨m, o, h⟩ := w.setFeed_shape f r; rw [h]
@[simp] theorem Work.setFeed_link (f : FeedId) (r : FeedRec) : (w.setFeed f r).link = w.link := by
  obtain ⟨m, o, h⟩ := w.setFeed_shape f r; rw [h]
@[simp] theorem Work.setFeed_reg (f : FeedId) (r : FeedRec) : (w.setFeed f r).reg = w.reg := by
  obtain ⟨m, o, h⟩ := w.setFeed_shape f r; rw [h]
@[simp] theorem Work.setFeed_arb (f : FeedId) (r : FeedRec) : (w.setFeed f r).arb = w.arb := by
  obtain ⟨m, o, h⟩ := w.setFeed_shape f r; rw [h]
@[simp] theorem Work.setFeed_pockets (f : FeedId) (r : FeedRec) : (w.setFeed f r).pockets = w.pockets := by
  obtain ⟨m, o, h⟩ := w.setFeed_shape f r; rw [h]
@[simp] theorem Work.setFeed_stapler (f : FeedId) (r : FeedRec) : (w.setFeed f r).stapler = w.stapler := by
  obtain ⟨m, o, h⟩ := w.setFeed_shape f r; rw [h]
@[simp] theorem Work.setFeed_ret (f : FeedId) (r : FeedRec) : (w.setFeed f r).ret = w.ret := by
  obtain ⟨m, o, h⟩ := w.setFeed_shape f r; rw [h]
@[simp] theorem Work.setFeed_attn (f : FeedId) (r : FeedRec) : (w.setFeed f r).attn = w.attn := by
  obtain ⟨m, o, h⟩ := w.setFeed_shape f r; rw [h]
@[simp] theorem Work.setFeed_run (f : FeedId) (r : FeedRec) : (w.setFeed f r).run = w.run := by
  obtain ⟨m, o, h⟩ := w.setFeed_shape f r; rw [h]
@[simp] theorem Work.setFeed_releasePulses (f : FeedId) (r : FeedRec) : (w.setFeed f r).releasePulses = w.releasePulses := by
  obtain ⟨m, o, h⟩ := w.setFeed_shape f r; rw [h]
@[simp] theorem Work.setFeed_notices (f : FeedId) (r : FeedRec) : (w.setFeed f r).notices = w.notices := by
  obtain ⟨m, o, h⟩ := w.setFeed_shape f r; rw [h]
@[simp] theorem Work.setFeed_drains (f : FeedId) (r : FeedRec) : (w.setFeed f r).drains = w.drains := by
  obtain ⟨m, o, h⟩ := w.setFeed_shape f r; rw [h]
@[simp] theorem Work.setFeed_report (f : FeedId) (r : FeedRec) : (w.setFeed f r).report = w.report := by
  obtain ⟨m, o, h⟩ := w.setFeed_shape f r; rw [h]
@[simp] theorem Work.setFeed_reply (f : FeedId) (r : FeedRec) : (w.setFeed f r).reply = w.reply := by
  obtain ⟨m, o, h⟩ := w.setFeed_shape f r; rw [h]
@[simp] theorem Work.setFeed_progress (f : FeedId) (r : FeedRec) : (w.setFeed f r).progress = w.progress := by
  obtain ⟨m, o, h⟩ := w.setFeed_shape f r; rw [h]
@[simp] theorem Work.setFeed_unmarked (f : FeedId) (r : FeedRec) :
    { (w.setFeed f r).tables with mark := none } = { w.tables with mark := none } := by
  obtain ⟨m, o, h⟩ := w.setFeed_shape f r; rw [h]
@[simp] theorem Work.setFeed_jobs (f : FeedId) (r : FeedRec) : (w.setFeed f r).tables.jobs = w.tables.jobs := by
  obtain ⟨m, o, h⟩ := w.setFeed_shape f r; rw [h]
@[simp] theorem Work.setFeed_classes (f : FeedId) (r : FeedRec) : (w.setFeed f r).tables.classes = w.tables.classes := by
  obtain ⟨m, o, h⟩ := w.setFeed_shape f r; rw [h]
@[simp] theorem Work.setFeed_roster (f : FeedId) (r : FeedRec) : (w.setFeed f r).tables.roster = w.tables.roster := by
  obtain ⟨m, o, h⟩ := w.setFeed_shape f r; rw [h]
@[simp] theorem Work.setFeed_media (f : FeedId) (r : FeedRec) : (w.setFeed f r).tables.media = w.tables.media := by
  obtain ⟨m, o, h⟩ := w.setFeed_shape f r; rw [h]
@[simp] theorem Work.setFeed_travel (f : FeedId) (r : FeedRec) : (w.setFeed f r).tables.travel = w.tables.travel := by
  obtain ⟨m, o, h⟩ := w.setFeed_shape f r; rw [h]
@[simp] theorem Work.setFeed_settings (f : FeedId) (r : FeedRec) : (w.setFeed f r).tables.settings = w.tables.settings := by
  obtain ⟨m, o, h⟩ := w.setFeed_shape f r; rw [h]
@[simp] theorem Work.setFeed_masks (f : FeedId) (r : FeedRec) : (w.setFeed f r).tables.masks = w.tables.masks := by
  obtain ⟨m, o, h⟩ := w.setFeed_shape f r; rw [h]
@[simp] theorem Work.setFeed_group (f : FeedId) (r : FeedRec) : (w.setFeed f r).tables.group = w.tables.group := by
  obtain ⟨m, o, h⟩ := w.setFeed_shape f r; rw [h]

/-! ### `setPocket` -/

@[simp] theorem Work.setPocket_pockets (p : PocketId) (r : PocketRec) :
    (w.setPocket p r).pockets = w.pockets.set p r := by
  obtain ⟨m, o, h⟩ := w.setPocket_shape p r; rw [h]
@[simp] theorem Work.setPocket_now (p : PocketId) (r : PocketRec) : (w.setPocket p r).now = w.now := by
  obtain ⟨m, o, h⟩ := w.setPocket_shape p r; rw [h]
@[simp] theorem Work.setPocket_pins (p : PocketId) (r : PocketRec) : (w.setPocket p r).pins = w.pins := by
  obtain ⟨m, o, h⟩ := w.setPocket_shape p r; rw [h]
@[simp] theorem Work.setPocket_link (p : PocketId) (r : PocketRec) : (w.setPocket p r).link = w.link := by
  obtain ⟨m, o, h⟩ := w.setPocket_shape p r; rw [h]
@[simp] theorem Work.setPocket_reg (p : PocketId) (r : PocketRec) : (w.setPocket p r).reg = w.reg := by
  obtain ⟨m, o, h⟩ := w.setPocket_shape p r; rw [h]
@[simp] theorem Work.setPocket_feeds (p : PocketId) (r : PocketRec) : (w.setPocket p r).feeds = w.feeds := by
  obtain ⟨m, o, h⟩ := w.setPocket_shape p r; rw [h]
@[simp] theorem Work.setPocket_arb (p : PocketId) (r : PocketRec) : (w.setPocket p r).arb = w.arb := by
  obtain ⟨m, o, h⟩ := w.setPocket_shape p r; rw [h]
@[simp] theorem Work.setPocket_stapler (p : PocketId) (r : PocketRec) : (w.setPocket p r).stapler = w.stapler := by
  obtain ⟨m, o, h⟩ := w.setPocket_shape p r; rw [h]
@[simp] theorem Work.setPocket_ret (p : PocketId) (r : PocketRec) : (w.setPocket p r).ret = w.ret := by
  obtain ⟨m, o, h⟩ := w.setPocket_shape p r; rw [h]
@[simp] theorem Work.setPocket_attn (p : PocketId) (r : PocketRec) : (w.setPocket p r).attn = w.attn := by
  obtain ⟨m, o, h⟩ := w.setPocket_shape p r; rw [h]
@[simp] theorem Work.setPocket_run (p : PocketId) (r : PocketRec) : (w.setPocket p r).run = w.run := by
  obtain ⟨m, o, h⟩ := w.setPocket_shape p r; rw [h]
@[simp] theorem Work.setPocket_releasePulses (p : PocketId) (r : PocketRec) : (w.setPocket p r).releasePulses = w.releasePulses := by
  obtain ⟨m, o, h⟩ := w.setPocket_shape p r; rw [h]
@[simp] theorem Work.setPocket_notices (p : PocketId) (r : PocketRec) : (w.setPocket p r).notices = w.notices := by
  obtain ⟨m, o, h⟩ := w.setPocket_shape p r; rw [h]
@[simp] theorem Work.setPocket_drains (p : PocketId) (r : PocketRec) : (w.setPocket p r).drains = w.drains := by
  obtain ⟨m, o, h⟩ := w.setPocket_shape p r; rw [h]
@[simp] theorem Work.setPocket_report (p : PocketId) (r : PocketRec) : (w.setPocket p r).report = w.report := by
  obtain ⟨m, o, h⟩ := w.setPocket_shape p r; rw [h]
@[simp] theorem Work.setPocket_reply (p : PocketId) (r : PocketRec) : (w.setPocket p r).reply = w.reply := by
  obtain ⟨m, o, h⟩ := w.setPocket_shape p r; rw [h]
@[simp] theorem Work.setPocket_progress (p : PocketId) (r : PocketRec) : (w.setPocket p r).progress = w.progress := by
  obtain ⟨m, o, h⟩ := w.setPocket_shape p r; rw [h]
@[simp] theorem Work.setPocket_unmarked (p : PocketId) (r : PocketRec) :
    { (w.setPocket p r).tables with mark := none } = { w.tables with mark := none } := by
  obtain ⟨m, o, h⟩ := w.setPocket_shape p r; rw [h]
@[simp] theorem Work.setPocket_jobs (p : PocketId) (r : PocketRec) : (w.setPocket p r).tables.jobs = w.tables.jobs := by
  obtain ⟨m, o, h⟩ := w.setPocket_shape p r; rw [h]
@[simp] theorem Work.setPocket_classes (p : PocketId) (r : PocketRec) : (w.setPocket p r).tables.classes = w.tables.classes := by
  obtain ⟨m, o, h⟩ := w.setPocket_shape p r; rw [h]
@[simp] theorem Work.setPocket_roster (p : PocketId) (r : PocketRec) : (w.setPocket p r).tables.roster = w.tables.roster := by
  obtain ⟨m, o, h⟩ := w.setPocket_shape p r; rw [h]
@[simp] theorem Work.setPocket_media (p : PocketId) (r : PocketRec) : (w.setPocket p r).tables.media = w.tables.media := by
  obtain ⟨m, o, h⟩ := w.setPocket_shape p r; rw [h]
@[simp] theorem Work.setPocket_travel (p : PocketId) (r : PocketRec) : (w.setPocket p r).tables.travel = w.tables.travel := by
  obtain ⟨m, o, h⟩ := w.setPocket_shape p r; rw [h]
@[simp] theorem Work.setPocket_settings (p : PocketId) (r : PocketRec) : (w.setPocket p r).tables.settings = w.tables.settings := by
  obtain ⟨m, o, h⟩ := w.setPocket_shape p r; rw [h]
@[simp] theorem Work.setPocket_masks (p : PocketId) (r : PocketRec) : (w.setPocket p r).tables.masks = w.tables.masks := by
  obtain ⟨m, o, h⟩ := w.setPocket_shape p r; rw [h]
@[simp] theorem Work.setPocket_group (p : PocketId) (r : PocketRec) : (w.setPocket p r).tables.group = w.tables.group := by
  obtain ⟨m, o, h⟩ := w.setPocket_shape p r; rw [h]

/-! ### `setBin` -/

@[simp] theorem Work.setBin_ret (b : BinId) (r : BinRec) :
    (w.setBin b r).ret = { w.ret with bins := w.ret.bins.set b r } := by
  obtain ⟨m, h⟩ := w.setBin_shape b r; rw [h]
@[simp] theorem Work.setBin_now (b : BinId) (r : BinRec) : (w.setBin b r).now = w.now := by
  obtain ⟨m, h⟩ := w.setBin_shape b r; rw [h]
@[simp] theorem Work.setBin_pins (b : BinId) (r : BinRec) : (w.setBin b r).pins = w.pins := by
  obtain ⟨m, h⟩ := w.setBin_shape b r; rw [h]
@[simp] theorem Work.setBin_link (b : BinId) (r : BinRec) : (w.setBin b r).link = w.link := by
  obtain ⟨m, h⟩ := w.setBin_shape b r; rw [h]
@[simp] theorem Work.setBin_reg (b : BinId) (r : BinRec) : (w.setBin b r).reg = w.reg := by
  obtain ⟨m, h⟩ := w.setBin_shape b r; rw [h]
@[simp] theorem Work.setBin_feeds (b : BinId) (r : BinRec) : (w.setBin b r).feeds = w.feeds := by
  obtain ⟨m, h⟩ := w.setBin_shape b r; rw [h]
@[simp] theorem Work.setBin_arb (b : BinId) (r : BinRec) : (w.setBin b r).arb = w.arb := by
  obtain ⟨m, h⟩ := w.setBin_shape b r; rw [h]
@[simp] theorem Work.setBin_pockets (b : BinId) (r : BinRec) : (w.setBin b r).pockets = w.pockets := by
  obtain ⟨m, h⟩ := w.setBin_shape b r; rw [h]
@[simp] theorem Work.setBin_stapler (b : BinId) (r : BinRec) : (w.setBin b r).stapler = w.stapler := by
  obtain ⟨m, h⟩ := w.setBin_shape b r; rw [h]
@[simp] theorem Work.setBin_attn (b : BinId) (r : BinRec) : (w.setBin b r).attn = w.attn := by
  obtain ⟨m, h⟩ := w.setBin_shape b r; rw [h]
@[simp] theorem Work.setBin_run (b : BinId) (r : BinRec) : (w.setBin b r).run = w.run := by
  obtain ⟨m, h⟩ := w.setBin_shape b r; rw [h]
@[simp] theorem Work.setBin_releasePulses (b : BinId) (r : BinRec) : (w.setBin b r).releasePulses = w.releasePulses := by
  obtain ⟨m, h⟩ := w.setBin_shape b r; rw [h]
@[simp] theorem Work.setBin_notices (b : BinId) (r : BinRec) : (w.setBin b r).notices = w.notices := by
  obtain ⟨m, h⟩ := w.setBin_shape b r; rw [h]
@[simp] theorem Work.setBin_drains (b : BinId) (r : BinRec) : (w.setBin b r).drains = w.drains := by
  obtain ⟨m, h⟩ := w.setBin_shape b r; rw [h]
@[simp] theorem Work.setBin_report (b : BinId) (r : BinRec) : (w.setBin b r).report = w.report := by
  obtain ⟨m, h⟩ := w.setBin_shape b r; rw [h]
@[simp] theorem Work.setBin_reply (b : BinId) (r : BinRec) : (w.setBin b r).reply = w.reply := by
  obtain ⟨m, h⟩ := w.setBin_shape b r; rw [h]
@[simp] theorem Work.setBin_progress (b : BinId) (r : BinRec) : (w.setBin b r).progress = w.progress := by
  obtain ⟨m, h⟩ := w.setBin_shape b r; rw [h]
@[simp] theorem Work.setBin_unmarked (b : BinId) (r : BinRec) :
    { (w.setBin b r).tables with mark := none } = { w.tables with mark := none } := by
  obtain ⟨m, h⟩ := w.setBin_shape b r; rw [h]
@[simp] theorem Work.setBin_jobs (b : BinId) (r : BinRec) : (w.setBin b r).tables.jobs = w.tables.jobs := by
  obtain ⟨m, h⟩ := w.setBin_shape b r; rw [h]
@[simp] theorem Work.setBin_classes (b : BinId) (r : BinRec) : (w.setBin b r).tables.classes = w.tables.classes := by
  obtain ⟨m, h⟩ := w.setBin_shape b r; rw [h]
@[simp] theorem Work.setBin_roster (b : BinId) (r : BinRec) : (w.setBin b r).tables.roster = w.tables.roster := by
  obtain ⟨m, h⟩ := w.setBin_shape b r; rw [h]
@[simp] theorem Work.setBin_media (b : BinId) (r : BinRec) : (w.setBin b r).tables.media = w.tables.media := by
  obtain ⟨m, h⟩ := w.setBin_shape b r; rw [h]
@[simp] theorem Work.setBin_travel (b : BinId) (r : BinRec) : (w.setBin b r).tables.travel = w.tables.travel := by
  obtain ⟨m, h⟩ := w.setBin_shape b r; rw [h]
@[simp] theorem Work.setBin_settings (b : BinId) (r : BinRec) : (w.setBin b r).tables.settings = w.tables.settings := by
  obtain ⟨m, h⟩ := w.setBin_shape b r; rw [h]
@[simp] theorem Work.setBin_masks (b : BinId) (r : BinRec) : (w.setBin b r).tables.masks = w.tables.masks := by
  obtain ⟨m, h⟩ := w.setBin_shape b r; rw [h]
@[simp] theorem Work.setBin_group (b : BinId) (r : BinRec) : (w.setBin b r).tables.group = w.tables.group := by
  obtain ⟨m, h⟩ := w.setBin_shape b r; rw [h]

/-! ### `setRunState` -/

@[simp] theorem Work.setRunState_run (st : RunState) :
    (w.setRunState st).run = { w.run with state := st } := by
  obtain ⟨o, h⟩ := w.setRunState_shape st; rw [h]
@[simp] theorem Work.setRunState_now (st : RunState) : (w.setRunState st).now = w.now := by
  obtain ⟨o, h⟩ := w.setRunState_shape st; rw [h]
@[simp] theorem Work.setRunState_pins (st : RunState) : (w.setRunState st).pins = w.pins := by
  obtain ⟨o, h⟩ := w.setRunState_shape st; rw [h]
@[simp] theorem Work.setRunState_link (st : RunState) : (w.setRunState st).link = w.link := by
  obtain ⟨o, h⟩ := w.setRunState_shape st; rw [h]
@[simp] theorem Work.setRunState_reg (st : RunState) : (w.setRunState st).reg = w.reg := by
  obtain ⟨o, h⟩ := w.setRunState_shape st; rw [h]
@[simp] theorem Work.setRunState_feeds (st : RunState) : (w.setRunState st).feeds = w.feeds := by
  obtain ⟨o, h⟩ := w.setRunState_shape st; rw [h]
@[simp] theorem Work.setRunState_arb (st : RunState) : (w.setRunState st).arb = w.arb := by
  obtain ⟨o, h⟩ := w.setRunState_shape st; rw [h]
@[simp] theorem Work.setRunState_pockets (st : RunState) : (w.setRunState st).pockets = w.pockets := by
  obtain ⟨o, h⟩ := w.setRunState_shape st; rw [h]
@[simp] theorem Work.setRunState_stapler (st : RunState) : (w.setRunState st).stapler = w.stapler := by
  obtain ⟨o, h⟩ := w.setRunState_shape st; rw [h]
@[simp] theorem Work.setRunState_ret (st : RunState) : (w.setRunState st).ret = w.ret := by
  obtain ⟨o, h⟩ := w.setRunState_shape st; rw [h]
@[simp] theorem Work.setRunState_attn (st : RunState) : (w.setRunState st).attn = w.attn := by
  obtain ⟨o, h⟩ := w.setRunState_shape st; rw [h]
@[simp] theorem Work.setRunState_releasePulses (st : RunState) : (w.setRunState st).releasePulses = w.releasePulses := by
  obtain ⟨o, h⟩ := w.setRunState_shape st; rw [h]
@[simp] theorem Work.setRunState_notices (st : RunState) : (w.setRunState st).notices = w.notices := by
  obtain ⟨o, h⟩ := w.setRunState_shape st; rw [h]
@[simp] theorem Work.setRunState_drains (st : RunState) : (w.setRunState st).drains = w.drains := by
  obtain ⟨o, h⟩ := w.setRunState_shape st; rw [h]
@[simp] theorem Work.setRunState_report (st : RunState) : (w.setRunState st).report = w.report := by
  obtain ⟨o, h⟩ := w.setRunState_shape st; rw [h]
@[simp] theorem Work.setRunState_reply (st : RunState) : (w.setRunState st).reply = w.reply := by
  obtain ⟨o, h⟩ := w.setRunState_shape st; rw [h]
@[simp] theorem Work.setRunState_progress (st : RunState) : (w.setRunState st).progress = w.progress := by
  obtain ⟨o, h⟩ := w.setRunState_shape st; rw [h]
@[simp] theorem Work.setRunState_tables (st : RunState) : (w.setRunState st).tables = w.tables := rfl

end

/-! ### The lists of all feeds, pockets and bins -/

@[simp] theorem mem_allFeeds (f : FeedId) : f ∈ allFeeds := by
  revert f
  decide

@[simp] theorem mem_allPockets (p : PocketId) : p ∈ allPockets := by
  revert p
  decide

@[simp] theorem mem_allBins (b : BinId) : b ∈ allBins := by
  revert b
  decide

end Sys2Proof.Machine
end

section
/-! SUPPORT. What the operations of a step come down to: changes of one block's record each (`Move`), with what is known
of them in the phase of the command they are made in. One lemma per operation, in the form "whatever moved to `w` moved to
the operation on `w`"; every rule of the whole machine is then a case split over the moves. -/

namespace Sys2Proof.Machine

/-! ### The moves -/

/-- The phases of a command: its own work with the end of a start-up, the taking of a STOP or a jam, RESUME, and then what
the work brings about: the rest of the blocks going on, the start of a delivery, and the release decisions. -/
inductive Phase where
  | work | stop | resume | rest | deliver | release
  deriving DecidableEq

/-- A change of a pack record other than an announcement: the generation rises no further than RESTART_LIMIT allows, and
a pack goes DELIVERING by the start of a delivery alone. -/
structure PackMove (ph : Phase) (limit : Nat) (r r' : PackRec) : Prop where
  step : PackStep r r'
  gen : r'.gen ≤ r.gen ∨ r'.gen ≤ limit
  delivers : r'.state = .delivering → r.state = .delivering ∨ ph = .deliver

/-- The run state is HALT. -/
def RunState.halts : RunState → Bool
  | .halt _ _ => true
  | _ => false

/-- The run state is STARTING. -/
def RunState.starts : RunState → Bool
  | .starting _ _ => true
  | _ => false

/-- What may become of the run state: outside STARTING the work neither enters nor leaves HALT, a STOP does not leave it,
RESUME does not enter it, and as the blocks go on only STOPPING ends. -/
def RunMove (ph : Phase) (old new : RunState) : Prop :=
  match ph with
  | .work => old.starts = true ∨ (old.halts = false ∧ new.halts = false ∧ new.starts = false)
  | .stop => old.halts = false ∧ (new.starts = true → old.starts = true)
  | .resume => new.halts = false ∧ new.starts = false
  | .rest => (∃ o, old = .stopping o) ∧ new = .standby
  | .deliver => False
  | .release => False

/-- A change of the arbiter's record that releases nothing: sheets leave the in-flight list at its head, before the release
decisions alone, and the release decisions alone bound the age of A_last. -/
structure ArbMove (ph : Phase) (now : Time) (r r' : MergeArbiter) : Prop where
  inFlight : r'.inFlight = r.inFlight ∨ (ph ≠ .release ∧ ∃ n, r'.inFlight = r.inFlight.drop n)
  aLast : r'.aLast = r.aLast ∨ (ph = .release ∧ r'.aLast = boundedALast now r.aLast)

/-- One change of one block's record; BIN_FULL is latched in the last phase alone. -/
inductive Move (ph : Phase) : Work → Work → Prop
  | same {w w' : Work} (hreg : w'.reg = w.reg) (hfeeds : w'.feeds = w.feeds) (harb : w'.arb = w.arb)
    (hpockets : w'.pockets = w.pockets) (hstapler : w'.stapler = w.stapler) (hret : w'.ret = w.ret)
    (hrun : w'.run = w.run) (hpulses : w'.releasePulses = w.releasePulses)
    (htables : { w'.tables with mark := none } = { w.tables with mark := none }) (hnow : w'.now = w.now)
    (hfull : w'.latched .binFull = true → w.latched .binFull = true ∨ ph = .release := by exact .inl) : Move ph w w'
  | setPack (w : Work) (k : Handle) (r : PackRec) (h : PackMove ph w.tables.settings.restartLimit (w.pack k) r) :
    Move ph w (w.setPack k r)
  | setClassQueue (w : Work) (c : ClassId) (q : List Handle) : Move ph w (w.setClassQueue c q)
  | setFeed (w : Work) (f : FeedId) (r : FeedRec)
    (h : r.queue.length ≤ w.feeds[f].queue.length ∨ r.queue.length ≤ Config.stagingSize) : Move ph w (w.setFeed f r)
  | setPocket (w : Work) (p : PocketId) (r : PocketRec) : Move ph w (w.setPocket p r)
  | setBin (w : Work) (b : BinId) (r : BinRec) (h : r.capacity = w.ret.bins[b].capacity
      ∧ r.inService = w.ret.bins[b].inService ∧ r.lampMode = w.ret.bins[b].lampMode) : Move ph w (w.setBin b r)
  | setRunState (w : Work) (st : RunState) (h : RunMove ph w.run.state st) : Move ph w (w.setRunState st)
  | setReg (w : Work) (r : PackRegister) (hp : r.packs = w.reg.packs) (hq : r.queues = w.reg.queues)
    (hm : r.markers.length ≤ w.reg.markers.length ∨ r.markers.length ≤ Config.markerLimit) : Move ph w (w.setReg r)
  | setGroup (w : Work) (g : Option (List Staged)) (hl : (g.getD []).length ≤ Config.groupSize)
    (hc : (∀ x ∈ w.tables.group.getD [], x.entry.clamp = x.entry) → ∀ x ∈ g.getD [], x.entry.clamp = x.entry) :
    Move ph w (w.setGroup g)
  | setArb (w : Work) (r : MergeArbiter) (h : ArbMove ph w.now w.arb r) : Move ph w (w.setArb r)
  | setStaplerRec (w : Work) (r : Stapler) : Move ph w (w.setStaplerRec r)
  | setRet (w : Work) (r : ReturnUnit) (h : ∀ b : BinId, r.bins[b].unlit = w.ret.bins[b].unlit) : Move ph w (w.setRet r)
  | pulse (w : Work) (f : FeedId) (h : ph = .release) (hr : w.releasing = true) : Move ph w (w.pulse f)
  | append (w : Work) (f : FeedId) (k : Option Handle) (p g : Nat) (t : EntryTag) (d : Disposition) (h : ph = .release)
    (hr : w.releasing = true) (hdue : w.due f = true) (hroom : w.arb.inFlight.length < Config.inFlightSize) :
    Move ph w (w.appendInFlight f k p g t d)

/-- Any number of moves of one phase. -/
abbrev Moves (ph : Phase) : Work → Work → Prop := Relation.ReflTransGen (Move ph)

variable {ph : Phase} {a w : Work}

/-! ### The setters -/

theorem Moves.same (h : Moves ph a w) {w' : Work} (hreg : w'.reg = w.reg) (hfeeds : w'.feeds = w.feeds)
    (harb : w'.arb = w.arb) (hpockets : w'.pockets = w.pockets) (hstapler : w'.stapler = w.stapler)
    (hret : w'.ret = w.ret) (hrun : w'.run = w.run) (hpulses : w'.releasePulses = w.releasePulses)
    (htables : { w'.tables with mark := none } = { w.tables with mark := none }) (hnow : w'.now = w.now)
    (hfull : w'.latched .binFull = true → w.latched .binFull = true ∨ ph = .release := by exact .inl) :
    Moves ph a w' :=
  h.tail (.same hreg hfeeds harb hpockets hstapler hret hrun hpulses htables hnow hfull)

theorem Moves.latch (h : Moves ph a w) (c : Cause) (hc : causeIndex c ≠ causeIndex .binFull := by decide) :
    Moves ph a (w.latch c) :=
  h.same rfl rfl rfl rfl rfl rfl rfl rfl rfl rfl fun hl => .inl <| by
    rwa [Work.latched_latch, decide_eq_false hc, Bool.false_or] at hl
theorem Moves.notify (h : Moves ph a w) (r : OutRecord) : Moves ph a (w.notify r) :=
  h.same rfl rfl rfl rfl rfl rfl rfl rfl rfl rfl
theorem Moves.addDrains (h : Moves ph a w) (l : List Byte) : Moves ph a (w.addDrains l) :=
  h.same rfl rfl rfl rfl rfl rfl rfl rfl rfl rfl
theorem Moves.setReport (h : Moves ph a w) (r : Report) : Moves ph a (w.setReport r) :=
  h.same rfl rfl rfl rfl rfl rfl rfl rfl rfl rfl
theorem Moves.occasionIf (h : Moves ph a w) (b : Bool) : Moves ph a (w.occasionIf b) :=
  h.same rfl rfl rfl rfl rfl rfl rfl rfl rfl rfl
theorem Moves.restartTimer (h : Moves ph a w) : Moves ph a w.restartTimer :=
  h.same rfl rfl rfl rfl rfl rfl rfl rfl rfl rfl

theorem Moves.touchIf (h : Moves ph a w) (b : Bool) (e : EntryRef) : Moves ph a (w.touchIf b e) := by
  obtain ⟨m, hm⟩ := w.touchIf_shape b e
  rw [hm]
  exact h.same rfl rfl rfl rfl rfl rfl rfl rfl rfl rfl

theorem Moves.setPack (h : Moves ph a w) {k : Handle} {r : PackRec}
    (hr : PackMove ph w.tables.settings.restartLimit (w.pack k) r) : Moves ph a (w.setPack k r) :=
  h.tail (.setPack w k r hr)

theorem Moves.setClassQueue (h : Moves ph a w) (c : ClassId) (q : List Handle) : Moves ph a (w.setClassQueue c q) :=
  h.tail (.setClassQueue w c q)

theorem Moves.setFeed (h : Moves ph a w) (f : FeedId) (r : FeedRec)
    (hr : r.queue.length ≤ w.feeds[f].queue.length ∨ r.queue.length ≤ Config.stagingSize) : Moves ph a (w.setFeed f r) :=
  h.tail (.setFeed w f r hr)

theorem Moves.setPocket (h : Moves ph a w) (p : PocketId) (r : PocketRec) : Moves ph a (w.setPocket p r) :=
  h.tail (.setPocket w p r)

theorem Moves.setBin (h : Moves ph a w) (b : BinId) (r : BinRec) (hr : r.capacity = w.ret.bins[b].capacity
    ∧ r.inService = w.ret.bins[b].inService ∧ r.lampMode = w.ret.bins[b].lampMode) : Moves ph a (w.setBin b r) :=
  h.tail (.setBin w b r hr)

theorem Moves.setRunState (h : Moves ph a w) {st : RunState} (hr : RunMove ph w.run.state st) :
    Moves ph a (w.setRunState st) :=
  h.tail (.setRunState w st hr)

theorem Moves.setReg (h : Moves ph a w) {r : PackRegister} (hp : r.packs = w.reg.packs)
    (hq : r.queues = w.reg.queues)
    (hm : r.markers.length ≤ w.reg.markers.length ∨ r.markers.length ≤ Config.markerLimit) : Moves ph a (w.setReg r) :=
  h.tail (.setReg w r hp hq hm)

theorem Moves.setArb (h : Moves ph a w) {r : MergeArbiter} (hr : ArbMove ph w.now w.arb r) : Moves ph a (w.setArb r) :=
  h.tail (.setArb w r hr)

/-- The arbiter's record changes but for the in-flight list and A_last. -/
theorem Moves.setArb_same (h : Moves ph a w) {r : MergeArbiter} (hi : r.inFlight = w.arb.inFlight)
    (ha : r.aLast = w.arb.aLast) : Moves ph a (w.setArb r) := h.setArb ⟨.inl hi, .inl ha⟩

theorem Moves.setStaplerRec (h : Moves ph a w) (r : Stapler) : Moves ph a (w.setStaplerRec r) :=
  h.tail (.setStaplerRec w r)

theorem Moves.setRet (h : Moves ph a w) {r : ReturnUnit} (hr : ∀ b : BinId, r.bins[b].unlit = w.ret.bins[b].unlit) :
    Moves ph a (w.setRet r) :=
  h.tail (.setRet w r hr)

/-- The Return Unit's record changes but for the bins. -/
theorem Moves.setRet_same (h : Moves ph a w) {r : ReturnUnit} (hr : r.bins = w.ret.bins) : Moves ph a (w.setRet r) :=
  h.setRet fun b => by rw [hr]

theorem Moves.each {α : Type} (h : Moves ph a w) (f : Work → α → Work) (l : List α)
    (hf : ∀ x y, Moves ph a x → Moves ph a (f x y)) : Moves ph a (w.each f l) := by
  induction l generalizing w with
  | nil => exact h
  | cons y l ih => exact ih (hf w y h)

/-! ### Moves of a pack record -/

section
variable {limit : Nat} {r r' : PackRec}

/-- A record moves on to a state that holds neither page 1 back nor a delivery under way. -/
theorem PackMove.toState (hl : r ≠ PackRec.cleared) {st : PackState} {fl : PackFlags}
    (hs : st ≠ .free ∧ st ≠ .announced ∧ st ≠ .restarting ∧ st ≠ .delivering) :
    PackMove ph limit r { r with state := st, flags := fl } where
  step := .move hl rfl rfl rfl rfl rfl (.inl hs.1) (.inl ⟨hs.2.1, hs.2.2.1⟩)
  gen := .inl le_rfl
  delivers hd := absurd hd hs.2.2.2

theorem PackMove.cleared (r : PackRec) : PackMove ph limit r PackRec.cleared :=
  ⟨.cleared r, .inl (Nat.zero_le _), by simp [PackRec.cleared]⟩

theorem PackMove.restarted (hl : r ≠ PackRec.cleared) (hg : r.gen < limit) : PackMove ph limit r r.restarted :=
  ⟨.restarted hl, .inr hg, by cases hp : r.pocket <;> simp [PackRec.restarted, hp]⟩

end

/-! ### The Pocket Controller and the Pack Register -/

theorem Moves.judge (h : Moves ph a w) : Moves ph a w.judge := h.setRet_same rfl

theorem Moves.requestPurge (h : Moves ph a w) (p : PocketId) : Moves ph a (w.requestPurge p) := by
  unfold Work.requestPurge
  dsimp only
  split
  · exact h.setPocket _ _
  · exact h.setPocket _ _
  · exact h.setPocket _ _
  all_goals exact h

theorem Moves.startPurges (h : Moves ph a w) : Moves ph a w.startPurges :=
  h.each _ _ fun x p hx => by
    unfold Work.startPurge
    dsimp only
    split
    · exact hx.setPocket _ _
    · exact hx

theorem Moves.cutOffPurges (h : Moves ph a w) : Moves ph a (w.each Work.cutOffPurge allPockets) :=
  h.each _ _ fun x p hx => by
    unfold Work.cutOffPurge
    dsimp only
    split
    · exact hx.setPocket _ _
    · exact hx

theorem unwatch_markers_le (k : Handle) (ms : List Marker) (p : Marker → Bool) :
    ((unwatch k ms).filter p).length ≤ ms.length :=
  (List.length_filter_le _ _).trans (by simp [unwatch])

theorem Moves.freePack (h : Moves ph a w) (k : Handle) : Moves ph a (w.freePack k) := by
  unfold Work.freePack
  refine Moves.addDrains (Moves.setReg (h.setPack (.cleared _)) ?_ ?_ ?_) _
  · rfl
  · rfl
  · exact .inl (unwatch_markers_le _ _ _)

theorem Moves.leaveClassQueue (h : Moves ph a w) (k : Handle) : Moves ph a (w.leaveClassQueue k) := h.setClassQueue _ _

theorem Moves.leaveStapleQueue (h : Moves ph a w) (k : Handle) : Moves ph a (w.leaveStapleQueue k) := h.setStaplerRec _

theorem Moves.leaveDeliveryQueue (h : Moves ph a w) (k : Handle) : Moves ph a (w.leaveDeliveryQueue k) :=
  h.setRet_same rfl

theorem Moves.purgeHeld (h : Moves ph a w) (p : Option PocketId) : Moves ph a (w.purgeHeld p) := by
  cases p with
  | none => exact h
  | some p => exact h.requestPurge p

theorem Moves.restartPack (h : Moves ph a w) (k : Handle) (c : RestartCause) (hl : (w.pack k).state ≠ .free)
    (hg : (w.pack k).gen < w.tables.settings.restartLimit) : Moves ph a (w.restartPack k c) :=
  ((((h.setPack (.restarted (PackRec.not_cleared hl) hg)).leaveStapleQueue k).leaveDeliveryQueue k).purgeHeld
    _).notify _ |>.latch _

theorem Moves.abandonPack (h : Moves ph a w) (k : Handle) (c : RestartCause) : Moves ph a (w.abandonPack k c) := by
  unfold Work.abandonPack
  have hleft := ((((h.leaveClassQueue k).leaveStapleQueue k).leaveDeliveryQueue k).notify
    (.packAbandoned k c)).latch .abandon
  dsimp only
  split
  · exact hleft.freePack k
  · next p hp =>
    refine (hleft.setPack ?_).requestPurge _
    have hl : w.pack k ≠ PackRec.cleared := by intro hc; rw [hc] at hp; cases hp
    simpa using PackMove.toState (r := w.pack k) (fl := (w.pack k).flags) hl (by simp)

theorem State.takesRestart_live {s : State} {k : Handle} {g : Nat} (h : s.takesRestart k g = true) :
    (s.pack k).state ≠ .free := by
  simp only [State.takesRestart, Bool.and_eq_true, decide_eq_true_eq] at h
  exact h.1.1

theorem Moves.requestRestart (h : Moves ph a w) (k : Handle) (g : Nat) (c : RestartCause) :
    Moves ph a (w.requestRestart k g c) := by
  unfold Work.requestRestart
  split
  · next ht =>
    split
    · next hg => exact (h.restartPack k c (State.takesRestart_live ht) hg).judge
    · exact (h.abandonPack k c).judge
  · exact h

theorem Moves.purgeEnded (h : Moves ph a w) (k : Handle) : Moves ph a (w.purgeEnded k) := by
  unfold Work.purgeEnded
  dsimp only
  split
  next hr =>
    refine h.setPack ⟨.move (PackRec.not_cleared (by simp [hr])) rfl rfl rfl rfl rfl (.inl (by simp)) (.inr (.inr hr)),
      .inl le_rfl, by simp⟩
  · exact h.freePack k
  · exact h

theorem Moves.endPurge (h : Moves ph a w) (p : PocketId) (r : PocketRec) : Moves ph a (w.endPurge p r) := by
  unfold Work.endPurge
  dsimp only
  split
  · exact h.setPocket _ _
  · exact (h.setPocket _ _).purgeEnded _

theorem Moves.goReady (h : Moves ph a w) (k : Handle) (f : PackFlags) (hl : w.pack k ≠ PackRec.cleared) :
    Moves ph a (w.goReady k f) := by
  unfold Work.goReady
  exact (h.setPack (.toState hl (by simp))).judge

theorem Moves.deliveredPack (h : Moves ph a w) (k : Handle) : Moves ph a (w.deliveredPack k) :=
  (h.leaveClassQueue k).freePack k

theorem Moves.withdrawPack (h : Moves ph a w) (k : Handle) (hl : (w.pack k).state ≠ .free) :
    Moves ph a (w.withdrawPack k) := by
  unfold Work.withdrawPack
  have hleft := ((h.leaveClassQueue k).leaveStapleQueue k).leaveDeliveryQueue k
  dsimp only
  split
  · exact hleft.freePack k
  · refine (hleft.setPack ?_).purgeHeld _
    simpa using PackMove.toState (fl := (w.pack k).flags) (PackRec.not_cleared hl) (by simp)

/-! ### The Stapler -/

theorem Moves.judgeStaples (h : Moves ph a w) : Moves ph a w.judgeStaples := by
  unfold Work.judgeStaples
  split
  · exact h.latch _
  · exact h

theorem Moves.setRemaining (h : Moves ph a w) (n : Nat) : Moves ph a (w.setRemaining n) :=
  ((h.setStaplerRec _).touchIf _ _).judgeStaples

theorem Moves.setStapler (h : Moves ph a w) (st : StaplerState) (k : Option WorkRec) (c : Option (PocketId × Nat)) :
    Moves ph a (w.setStapler st k c) := h.setStaplerRec _

theorem Moves.finishPack (h : Moves ph a w) (k : Handle) (f : PackFlags) (hl : w.pack k ≠ PackRec.cleared) :
    Moves ph a (w.finishPack k f) := by
  unfold Work.finishPack
  dsimp only
  split
  · exact (h.setStaplerRec _).goReady k f (by simpa using hl)
  · exact ((h.setStaplerRec _).setPocket _ _).goReady k f (by simpa using hl)

theorem Moves.shortVolume (h : Moves ph a w) (k : WorkRec) : Moves ph a (w.shortVolume k) := by
  unfold Work.shortVolume
  dsimp only
  split
  · exact (h.latch _).setStapler _ _ _
  · next hd =>
    refine (h.latch _).finishPack _ _ ?_
    rw [Work.pack_latch]
    intro hc
    rw [hc] at hd
    cases hd

theorem Moves.startVolume (h : Moves ph a w) (k : WorkRec) : Moves ph a (w.startVolume k) := by
  unfold Work.startVolume
  dsimp only
  split
  · exact h.shortVolume k
  · have hcount := h.setRemaining (w.stapler.remaining - patternCount (w.pack k.handle).snap.pattern)
    have hmove {limit : Nat} (hc : (w.pack k.handle).state = .complete) :
        PackMove ph limit (w.pack k.handle) { w.pack k.handle with state := .stapling } :=
      .toState (fl := (w.pack k.handle).flags) (PackRec.not_cleared (by simp [hc])) (by simp)
    refine Moves.setStapler ?_ _ _ _
    split <;> split
    case isTrue hk => exact hcount.setPack (by simpa using hmove hk.2)
    · exact hcount
    case isTrue hk => exact (hcount.setPack (by simpa using hmove hk.2)).setPocket _ _
    · exact hcount.setPocket _ _

theorem Moves.staple (h : Moves ph a w) : Moves ph a w.staple := by
  unfold Work.staple
  generalize w.stapler.queue.length + 1 = n
  induction n generalizing w with
  | zero => exact h
  | succ n ih =>
    unfold Work.takeUp
    split
    · exact h
    · split
      · exact ih (h.startVolume _)
      · exact h

theorem Moves.volumeDone (h : Moves ph a w) (k : WorkRec) : Moves ph a (w.volumeDone k) := by
  unfold Work.volumeDone
  dsimp only
  split
  · next hs =>
    split
    · exact h.setStapler _ _ _
    · exact h.finishPack _ _ (State.stillStapling_not_cleared hs)
  · exact h.setStapler _ _ _

theorem Moves.volumeTimedOut (h : Moves ph a w) (k : WorkRec) : Moves ph a (w.volumeTimedOut k) :=
  (h.setStapler _ _ _).latch _

theorem Moves.cutOffVolume (h : Moves ph a w) : Moves ph a w.cutOffVolume := by
  unfold Work.cutOffVolume
  split
  · exact h
  · exact h.setStapler _ _ _

theorem Moves.reissueVolume (h : Moves ph a w) : Moves ph a w.reissueVolume := by
  unfold Work.reissueVolume
  split
  · exact h
  · split
    · split
      · exact h.startVolume _
      · exact h.setStapler _ _ _
    · exact h

theorem Moves.fitCartridge (h : Moves ph a w) : Moves ph a w.fitCartridge := by
  unfold Work.fitCartridge
  dsimp only
  split
  · exact (h.setRemaining _).setStapler _ _ _
  · exact h.setRemaining _

/-! ### The Return Unit -/

theorem Moves.startDelivery (h : Moves .deliver a w) : Moves .deliver a w.startDelivery := by
  unfold Work.startDelivery
  split
  · split
    · exact h
    · next k hf =>
      have hready := State.eligible_ready (List.find?_some hf)
      split
      · unfold Work.beginDelivery
        refine Moves.setRet_same (Moves.setPocket (Moves.setPack (h.leaveDeliveryQueue k) ?_) _ _) rfl
        exact ⟨.move (PackRec.not_cleared (by simp [hready])) rfl rfl rfl rfl rfl (.inl (by simp)) (.inl (by simp)),
          .inl le_rfl, fun _ => .inr rfl⟩
      · exact h
  · exact h

theorem Moves.dropDelivery (h : Moves ph a w) : Moves ph a w.dropDelivery := h.setRet_same rfl

theorem BinRec.flashed_kept (r : BinRec) (now : Time) : (r.flashed now).capacity = r.capacity
    ∧ (r.flashed now).inService = r.inService ∧ (r.flashed now).lampMode = r.lampMode := by
  unfold BinRec.flashed
  split <;> exact ⟨rfl, rfl, rfl⟩

theorem Moves.completeDelivery (h : Moves ph a w) (d : DeliveryRec) : Moves ph a (w.completeDelivery d) := by
  unfold Work.completeDelivery
  dsimp only
  have hbin := ((h.setBin d.bin _ (BinRec.flashed_kept
    { w.ret.bins[d.bin] with fill := w.ret.bins[d.bin].fill + d.units } w.now)).dropDelivery).setPocket d.pocket
  refine Moves.judge ?_
  split
  · exact ((hbin _).deliveredPack _).notify _
  · exact hbin _

theorem Moves.loseDelivery (h : Moves ph a w) (d : DeliveryRec) : Moves ph a (w.loseDelivery d) := by
  unfold Work.loseDelivery
  refine Moves.requestRestart (Moves.dropDelivery (Moves.setPack (h.setPocket _ _) ?_)) _ _ _
  exact ⟨⟨.inr ⟨rfl, le_rfl⟩, fun hc => by rw [hc]; rfl, fun hf => .inr hf, id⟩, .inl le_rfl, .inl⟩

theorem Moves.deliveryTimedOut (h : Moves ph a w) : Moves ph a w.deliveryTimedOut := by
  refine Moves.latch (Moves.setRet_same h ?_) _
  rfl

theorem Moves.cutOffDelivery (h : Moves ph a w) : Moves ph a w.cutOffDelivery := by
  unfold Work.cutOffDelivery
  split
  · exact h
  · exact h.setRet_same rfl

theorem Moves.reissueDelivery (h : Moves ph a w) : Moves ph a w.reissueDelivery := by
  unfold Work.reissueDelivery
  split
  · exact h
  · split
    · exact h.setRet_same rfl
    · exact h

theorem Moves.judgeBinFull (h : Moves .release a w) (s : State) : Moves .release a (w.judgeBinFull s) := by
  unfold Work.judgeBinFull
  split
  · exact h.same rfl rfl rfl rfl rfl rfl rfl rfl rfl rfl fun _ => .inr rfl
  · exact h

theorem Moves.driveLamps (h : Moves ph a w) : Moves ph a w.driveLamps :=
  h.each _ _ fun x b hx => by
    unfold Work.driveLamp
    dsimp only
    split
    · exact hx
    · refine hx.setRet fun c => ?_
      simp only [Fin.getElem_fin, Vector.getElem_set]
      split
      · next hc => simp only [BinRec.unlit, hc]
      · rfl

/-! ### The release decisions -/

theorem Moves.boundALast (h : Moves .release a w) : Moves .release a w.boundALast :=
  h.setArb ⟨.inl rfl, .inr ⟨rfl, rfl⟩⟩

theorem Moves.dropPick (h : Moves ph a w) : Moves ph a w.dropPick := by
  unfold Work.dropPick
  split
  · exact h
  · split
    · exact h
    · exact h.setArb_same rfl rfl

/-- What a release asks of the run state, the time and the in-flight list is not changed by the feed's own record. -/
theorem Work.due_setFeed (w : Work) (f g : FeedId) (r : FeedRec) :
    (w.setFeed f r).due g = w.due g ∧ (w.setFeed f r).arb = w.arb ∧ (w.setFeed f r).releasing = w.releasing := by
  obtain ⟨m, o, h⟩ := w.setFeed_shape f r
  rw [h]
  exact ⟨rfl, rfl, rfl⟩

section
variable (h : Moves .release a w) {f : FeedId} (hrel : w.releasing = true) (hdue : w.due f = true)
  (hroom : w.arb.inFlight.length < Config.inFlightSize)
include h hrel hdue hroom

theorem Moves.releaseBare (t : EntryTag) (d : Disposition) : Moves .release a (w.releaseBare f t d) := by
  obtain ⟨hd, ha, hr⟩ := w.due_setFeed f f { w.feeds[f] with shelf := .clearing, discard := false }
  exact (h.setFeed f { w.feeds[f] with shelf := .clearing, discard := false } (.inl le_rfl)).tail
    (.append _ f none 0 0 t d rfl (by rw [hr]; exact hrel) (by rw [hd]; exact hdue)
      (by rw [ha]; exact hroom))

theorem Moves.releaseHead (e : StagingEntry) (d : Disposition) : Moves .release a (w.releaseHead f e d) := by
  obtain ⟨hd, ha, hr⟩ := w.due_setFeed f f { w.feeds[f] with shelf := .clearing, queue := w.feeds[f].queue.tail }
  exact (h.setFeed f { w.feeds[f] with shelf := .clearing, queue := w.feeds[f].queue.tail } (.inl (by simp))).tail
    (.append _ f _ _ _ _ d rfl (by rw [hr]; exact hrel) (by rw [hd]; exact hdue)
      (by rw [ha]; exact hroom))

end

theorem Moves.openPack (h : Moves ph a w) (k : Handle) (p : PocketId) (ha : (w.pack k).state = .announced)
    (hp : 1 ≤ (w.pack k).pages) : Moves ph a (w.openPack k p) := by
  unfold Work.openPack
  have hmove {limit : Nat} {fl : PackFlags} : PackMove ph limit (w.pack k) { w.pack k with
      state := .opened, pocket := some p, released := 1, flags := fl } :=
    ⟨⟨.inr ⟨rfl, le_rfl⟩, fun hc => by simp [hc, PackRec.cleared] at ha, by simp,
      fun hc => ⟨by have := hc.2.2 (.inl ha); simp [this.2], hp, by simp⟩⟩, .inl le_rfl, by simp⟩
  dsimp only
  split
  · refine Moves.latch (Moves.notify (Moves.setArb_same (Moves.setPack (h.setPocket p _) ?_) ?_ ?_) _) _
    · rw [Work.pack_setPocket]
      exact hmove
    · rfl
    · rfl
  · refine Moves.setPack (h.setPocket p _) ?_
    rw [Work.pack_setPocket]
    exact hmove

theorem Moves.pageReleased (h : Moves ph a w) (k : Handle) (ho : (w.pack k).state = .opened)
    (hp : (w.pack k).released + 1 ≤ (w.pack k).pages) : Moves ph a (w.pageReleased k) :=
  h.setPack ⟨⟨.inr ⟨rfl, le_rfl⟩, fun hc => by simp [hc, PackRec.cleared] at ho, by simp [ho],
    fun hc => ⟨by have := hc.1; simp; omega, hp, by simp [ho]⟩⟩, .inl le_rfl, by simp [ho]⟩

theorem State.candidate_room {s : State} {f : FeedId} (h : s.candidate f = true) :
    s.arb.inFlight.length < Config.inFlightSize := by
  simp only [State.candidate, Bool.and_eq_true, decide_eq_true_eq] at h
  exact h.2

/-- A feed chosen is due (R51). -/
theorem State.choose_due {s : State} {f : FeedId} (h : s.choose = some f) : s.due f = true := by
  have due {t : Verdict → Bool} (hd : s.dueWith f t = true) : s.due f = true := (Bool.and_eq_true_iff.1 hd).2
  unfold State.choose at h
  split at h
  · split at h
    · next hd => cases h; exact due hd
    · cases h
  · split at h
    · next hf => cases h; exact due (t := Verdict.isPlain) (by simpa using List.find?_some hf)
    · exact due (t := Verdict.isCollate) (by simpa using (List.mem_filter.1 (firstBy_mem h)).2)

theorem Moves.release (h : Moves .release a w) {f : FeedId} (hc : w.choose = some f) :
    Moves .release a (w.release f) := by
  have hcand := State.choose_candidate hc
  have hrel : (w.pulse f).restartTimer.releasing = true := (State.candidate_present hcand).2
  have hdue : (w.pulse f).restartTimer.due f = true := State.choose_due hc
  have hroom : (w.pulse f).restartTimer.arb.inFlight.length < Config.inFlightSize := State.candidate_room hcand
  have hpulse : Moves .release a (w.pulse f).restartTimer :=
    Moves.restartTimer (h.tail (.pulse w f rfl (State.candidate_present hcand).2))
  unfold Work.release
  dsimp only
  split
  · exact h
  · exact hpulse.releaseBare hrel hdue hroom _ _
  · exact (hpulse.releaseBare hrel hdue hroom _ _).latch _
  · exact h
  · exact hpulse.releaseHead hrel hdue hroom _ _
  next hv _ hq =>
    obtain ⟨ha, -, hp⟩ := State.judgeEntry_open (State.verdict_collate hv hq)
    exact (hpulse.releaseHead hrel hdue hroom _ _).openPack _ _ (by simpa using ha) (by simpa using hp)
  next hv _ hq =>
    obtain ⟨ho, -, hp⟩ := State.judgeEntry_next (State.verdict_collate hv hq)
    exact (hpulse.releaseHead hrel hdue hroom _ _).pageReleased _ (by simpa using ho) (by simpa using hp)

theorem Moves.decideUpTo (n : Nat) (h : Moves .release a w) : Moves .release a (w.decideUpTo n) := by
  induction n generalizing w with
  | zero => exact h
  | succ n ih =>
    unfold Work.decideUpTo
    dsimp only
    split
    · exact h.boundALast.dropPick
    · next hc => exact ih (h.boundALast.dropPick.release hc)

theorem Moves.decideReleases (h : Moves .release a w) : Moves .release a w.decideReleases := by
  unfold Work.decideReleases
  split
  · exact h.decideUpTo 5
  · exact h

theorem Moves.timeWaits (h : Moves ph a w) : Moves ph a w.timeWaits :=
  h.each _ _ fun x f hx => by
    unfold Work.timeWait
    dsimp only
    split <;> split <;> first | exact hx | exact hx.setFeed _ _ (.inl le_rfl)

theorem Moves.timeBlock (h : Moves ph a w) : Moves ph a w.timeBlock := h.setArb_same rfl rfl

/-! ### Arrivals and break actions -/

theorem Moves.setGate (h : Moves ph a w) (g : Gate) : Moves ph a (w.setGate g) := h.setArb_same rfl rfl

theorem Moves.dropHead (h : Moves ph a w) (hph : ph ≠ .release) : Moves ph a w.dropHead :=
  h.setArb ⟨.inr ⟨hph, 1, by simp⟩, .inl rfl⟩

theorem Moves.faultFeed (h : Moves ph a w) (f : FeedId) : Moves ph a (w.faultFeed f) := h.setFeed _ _ (.inl le_rfl)

theorem Moves.requestFor (h : Moves ph a w) (e : InFlight) (c : RestartCause) : Moves ph a (w.requestFor e c) := by
  unfold Work.requestFor
  split
  · exact h.requestRestart _ _ _
  · exact h

theorem Moves.admitSheet (h : Moves ph a w) (k : Handle) (p : PocketId) : Moves ph a (w.admitSheet k p) := by
  unfold Work.admitSheet
  dsimp only
  split
  · exact h
  · next hn =>
    have hmove {limit : Nat} (st : PackState) (hst : st = (w.pack k).state
          ∨ (st ≠ .free ∧ st ≠ .announced ∧ st ≠ .restarting ∧ st ≠ .delivering)) :
        PackMove ph limit (w.pack k) { w.pack k with received := (w.pack k).received + 1, state := st } :=
      ⟨⟨.inr ⟨rfl, le_rfl⟩, fun hc => by rw [hc] at hn; exact absurd (Nat.le_refl 0) hn,
        fun hf => .inr (hst.elim (fun x => x ▸ hf) fun x => absurd hf x.1),
        fun hc => ⟨by simp; omega, hc.2.1, fun hs => by
          rcases hst with x | x
          · have := hc.2.2 (x ▸ hs); omega
          · exact absurd hs (by simp [x.2.1, x.2.2.1])⟩⟩, .inl le_rfl,
        fun hd => .inl (hst.elim (fun x => x ▸ hd) fun x => absurd hd x.2.2.2)⟩
    have hpocket := h.setPocket p (w.pockets[p].admitted (w.pack k))
    split
    · split
      · exact (hpocket.setPack (by simpa using hmove .complete (.inr (by simp)))).setStaplerRec _
      · exact (hpocket.setPack (by simpa using hmove .ready (.inr (by simp)))).judge
    · exact hpocket.setPack (by simpa using hmove (w.pack k).state (.inl rfl))

theorem Moves.takeHead (h : Moves ph a w) (hph : ph ≠ .release) (e : InFlight) : Moves ph a (w.takeHead e) := by
  unfold Work.takeHead
  dsimp only
  have hdrop := h.dropHead hph
  split
  · exact hdrop.setGate _
  · exact hdrop.setGate _
  · exact hdrop.setGate _
  · split
    · split
      · exact (hdrop.setGate _).admitSheet _ _
      · exact hdrop.setGate _
    · exact hdrop.setGate _

theorem Moves.matchArrival (h : Moves ph a w) (hph : ph ≠ .release) (t : Option TagNum) :
    Moves ph a (w.matchArrival t) := by
  unfold Work.matchArrival
  have htimer := h.restartTimer
  dsimp only
  split
  · exact (h.setGate _).latch _
  · split
    · exact htimer.takeHead hph _
    · split
      · split
        · exact ((((htimer.dropHead hph).faultFeed _).latch _).requestFor _ _).takeHead hph _
        · exact (((htimer.setGate _).dropHead hph).latch _).requestFor _ _
      · exact (((htimer.setGate _).dropHead hph).latch _).requestFor _ _

theorem Moves.breakDelivery (h : Moves ph a w) (k : Handle) (hl : (w.pack k).state = .ready) :
    Moves ph a (w.breakDelivery k) := by
  unfold Work.breakDelivery
  refine Moves.judge (Moves.latch (Moves.notify (Moves.setPack h ?_) _) _)
  exact ⟨.move (PackRec.not_cleared (by simp [hl])) rfl rfl rfl rfl rfl (.inr rfl) (.inr (.inl rfl)), .inl le_rfl, .inl⟩

theorem Moves.breakBlock (h : Moves ph a w) : Moves ph a w.breakBlock := by
  unfold Work.breakBlock
  split
  · exact h.requestRestart _ _ _
  · split
    · refine Moves.occasionIf (Moves.setArb_same h ?_ ?_) _
      · rfl
      · rfl
    · split
      · next hb => exact h.breakDelivery _ (State.breakable_ready (List.of_mem_filter (firstBy_mem hb)))
      · split
        · exact h.requestRestart _ _ _
        · exact h

/-! ### Run Control -/

theorem Moves.halt (h : Moves ph a w) (c : HaltCause) (t : ResumeTarget) (hr : RunMove ph w.run.state (.halt c t)) :
    Moves ph a (w.halt c t) :=
  ((h.setRunState hr).cutOffVolume.cutOffDelivery).cutOffPurges

theorem resumeTargetOf_some {st : RunState} {t : ResumeTarget} (h : resumeTargetOf st = some t) :
    st.halts = false ∧ st.starts = false := by
  cases st <;> first | exact ⟨rfl, rfl⟩ | cases h

theorem Moves.requestHalt (h : Moves .stop a w) (c : HaltCause) : Moves .stop a (w.requestHalt c) := by
  unfold Work.requestHalt
  split
  · next hst => exact h.setRunState ⟨by rw [hst]; rfl, fun _ => by rw [hst]; rfl⟩
  · split
    · exact h
    · next ht => exact h.halt _ _ ⟨(resumeTargetOf_some ht).1, by simp [RunState.starts]⟩

theorem Moves.takeStop (h : Moves .stop a w) : Moves .stop a w.takeStop := (h.latch _).requestHalt _

theorem Moves.flushFeed (h : Moves ph a w) (f : FeedId) : Moves ph a (w.flushFeed f) := h.setFeed _ _ (.inl (by simp))

theorem Moves.enterBypass (h : Moves ph a w) (hr : RunMove ph w.run.state .bypass) : Moves ph a w.enterBypass :=
  (h.setRunState hr).each _ _ fun _ f hx => hx.flushFeed f

theorem Moves.enterTarget (h : Moves ph a w) (t : ResumeTarget) (hr : RunMove ph w.run.state t.state) :
    Moves ph a (w.enterTarget t) := by
  unfold Work.enterTarget
  split
  · exact h.enterBypass hr
  · exact h.setRunState hr

theorem Moves.endStartUp (h : Moves .work a w) : Moves .work a w.endStartUp := by
  unfold Work.endStartUp
  split
  · next hst =>
    have hr {st : RunState} : RunMove .work w.run.state st := .inl (by rw [hst]; rfl)
    split
    · exact h
    · unfold Work.leaveStarting
      dsimp only
      refine Moves.setReport ?_ _
      split
      · exact h.halt _ _ hr
      · exact h.enterTarget _ hr
  · exact h

theorem Moves.endStopping (h : Moves .rest a w) : Moves .rest a w.endStopping := by
  unfold Work.endStopping
  split
  · next o hst =>
    split
    · exact h.setRunState ⟨⟨o, hst⟩, rfl⟩
    · exact h
  · exact h

theorem Moves.flushInFlight (h : Moves ph a w) (hph : ph ≠ .release) : Moves ph a w.flushInFlight :=
  Moves.each (h.setArb (r := { w.arb with inFlight := [] }) ⟨.inr ⟨hph, w.arb.inFlight.length, by simp⟩, .inl rfl⟩) _ _
    fun _ e hx => hx.requestFor e _

theorem Moves.resume (h : Moves .resume a w) (t : ResumeTarget) : Moves .resume a (w.resume t) :=
  ((h.flushInFlight (by decide)).reissueVolume.reissueDelivery).enterTarget t (by cases t <;> exact ⟨rfl, rfl⟩)

/-! ### What follows a step's own effect -/

/-- The settling once the pending purges have started and a start-up that may end has ended: the work that goes on, the
start of a delivery, the end of STOPPING, and the release decisions, the timers, BIN_FULL and the lamps. -/
theorem Work.settle_moves (w : Work) (s : State) : ∃ w1 w2 w3, Moves .rest w.startPurges.endStartUp w1
    ∧ w2 = w1.startDelivery ∧ Moves .deliver w1 w2 ∧ Moves .rest w2 w3 ∧ Moves .release w3 (w.settle s) := by
  refine ⟨_, _, _, Moves.staple (Moves.judge .refl), rfl, Moves.startDelivery .refl, Moves.endStopping .refl, ?_⟩
  exact ((Moves.decideReleases .refl).timeWaits.timeBlock.judgeBinFull s).driveLamps

end Sys2Proof.Machine
end

section
/-! SUPPORT. What each command comes to in moves: its own work, done in its phase, and a settling after it (`Course`). A
write of entries and a reset come first where the command makes one (`Deed`). -/

namespace Sys2Proof.Machine

/-- A running state follows another. -/
theorem RunMove.running {old new : RunState} (ho : old.halts = false) (hh : new.halts = false)
    (hs : new.starts = false) : RunMove .work old new := .inr ⟨ho, hh, hs⟩

/-! ### Courses -/

/-- The moves of a settling: the end of a start-up, the work that goes on, the start of a delivery, the end of STOPPING,
and the release decisions. -/
def Aftermath (w v : Work) : Prop :=
  ∃ w1 w2 w3 w4, Moves .work w w1 ∧ Moves .rest w1 w2 ∧ Moves .deliver w2 w3 ∧ Moves .rest w3 w4 ∧ Moves .release w4 v

/-- The moves of a command: its own in its phase, then those of a settling. -/
def Course (ph : Phase) (w v : Work) : Prop := ∃ w1, Moves ph w w1 ∧ Aftermath w1 v

section
variable {ph : Phase} {w v : Work}

theorem Aftermath.refl : Aftermath w w := ⟨w, w, w, w, .refl, .refl, .refl, .refl, .refl⟩

theorem Aftermath.and_then (hc : Aftermath w v) {x : Work} (h : Moves .release v x) : Aftermath w x := by
  obtain ⟨w1, w2, w3, w4, h1, h2, h3, h4, h5⟩ := hc
  exact ⟨w1, w2, w3, w4, h1, h2, h3, h4, h5.trans h⟩

theorem Work.settle_aftermath (w : Work) (s : State) : Aftermath w (w.settle s) := by
  obtain ⟨w1, w2, w3, h1, -, h2, h3, h4⟩ := w.settle_moves s
  exact ⟨_, w1, w2, w3, Moves.endStartUp (Moves.startPurges .refl), h1, h2, h3, h4⟩

theorem Course.refl : Course ph w w := ⟨w, .refl, .refl⟩

theorem Course.after (h : Moves ph w v) {x : Work} (hc : Course ph v x) : Course ph w x := by
  obtain ⟨w1, h1, h2⟩ := hc
  exact ⟨w1, h.trans h1, h2⟩

theorem Course.and_then (hc : Course ph w v) {x : Work} (h : Moves .release v x) : Course ph w x := by
  obtain ⟨w1, h1, h2⟩ := hc
  exact ⟨w1, h1, h2.and_then h⟩

theorem Moves.course (h : Moves ph w v) : Course ph w v := .after h .refl

theorem Moves.settled (h : Moves ph w v) (s : State) : Course ph w (v.settle s) := ⟨v, h, v.settle_aftermath s⟩

theorem Moves.answer (h : Moves ph w v) (k : Byte) (st : Status) (d : List Byte) (n : Notes) :
    Moves ph w (v.answer k st d n) :=
  h.same rfl rfl rfl rfl rfl rfl rfl rfl rfl rfl

theorem Course.answer (h : Course ph w v) (k : Byte) (st : Status) (d : List Byte) (n : Notes) :
    Course ph w (v.answer k st d n) := h.and_then (Moves.answer .refl k st d n)

theorem Course.refused (k : Byte) (st : Status) (d : List Byte) (n : Notes) : Course ph w (w.answer k st d n) :=
  Course.refl.answer k st d n

theorem Moves.entered (h : Moves ph w v) (s : State) : Course ph w (v.entered s) := (h.settled s).answer _ _ _ _

theorem Moves.clearMark (h : Moves ph w v) : Moves ph w v.clearMark :=
  h.same rfl rfl rfl rfl rfl rfl rfl rfl rfl rfl

theorem Moves.setLink (h : Moves ph w v) (l : LinkPort) : Moves ph w { v with link := l } :=
  h.same rfl rfl rfl rfl rfl rfl rfl rfl rfl rfl

theorem Moves.setGroup (h : Moves ph w v) {g : Option (List Staged)} (hl : (g.getD []).length ≤ Config.groupSize)
    (hc : (∀ x ∈ v.tables.group.getD [], x.entry.clamp = x.entry) → ∀ x ∈ g.getD [], x.entry.clamp = x.entry) :
    Moves ph w (v.setGroup g) := h.tail (.setGroup v g hl hc)

end

/-! ### The receiver -/

section
variable (w : Work)

/-- The Link Port and the latches alone are changed. -/
def Work.LinkOnly (v : Work) : Prop := ∃ l a, v = { w with link := l, attn := a }

variable {w}

theorem Work.LinkOnly.refl : w.LinkOnly w := ⟨_, _, rfl⟩

theorem Work.LinkOnly.trans {v x : Work} (h : w.LinkOnly v) (h' : v.LinkOnly x) : w.LinkOnly x := by
  obtain ⟨l, a, rfl⟩ := h
  obtain ⟨l', a', rfl⟩ := h'
  exact ⟨l', a', rfl⟩

theorem Work.LinkOnly.course {ph : Phase} {v : Work} (h : w.LinkOnly v) : Course ph w v := by
  obtain ⟨l, a, rfl⟩ := h
  exact Course.refl.and_then (Moves.same .refl rfl rfl rfl rfl rfl rfl rfl rfl rfl rfl fun _ => .inr rfl)

variable (w)

theorem Work.linkOnly_setReceiver (r : Receiver) : w.LinkOnly (w.setReceiver r) := ⟨_, _, rfl⟩

theorem Work.linkOnly_receiverResult (k : Byte) (st : Status) : w.LinkOnly (w.receiverResult k st) := by
  unfold Work.receiverResult
  split
  · exact ⟨_, _, rfl⟩
  · exact .refl

theorem Work.linkOnly_spoil : w.LinkOnly w.spoil := by
  have hlatch : w.LinkOnly (w.latch .linkError) := ⟨_, _, rfl⟩
  unfold Work.spoil
  dsimp only
  split
  · exact (hlatch.trans (Work.linkOnly_receiverResult _ _ _)).trans (Work.linkOnly_setReceiver _ _)
  · exact hlatch.trans (Work.linkOnly_setReceiver _ _)

theorem Work.linkOnly_offer (r : Record) : w.LinkOnly (w.offer r) := w.offer_shape r

theorem Work.linkOnly_takeAddress (n : Nat) : w.LinkOnly (w.takeAddress n) := by
  unfold Work.takeAddress
  split
  · exact ⟨_, _, rfl⟩
  · split <;> exact ⟨_, _, rfl⟩

theorem Work.linkOnly_takeData (d : Byte) : w.LinkOnly (w.takeData d) := by
  unfold Work.takeData
  split
  · exact w.linkOnly_setReceiver _
  · split
    · exact w.linkOnly_spoil
    · split
      · exact (w.linkOnly_setReceiver _).trans (Work.linkOnly_offer _ _)
      · exact w.linkOnly_setReceiver _
  · split
    · exact (w.linkOnly_setReceiver _).trans (Work.linkOnly_offer _ _)
    · exact w.linkOnly_setReceiver _
  · exact .refl

/-- A character received changes the Link Port and the latches alone. -/
theorem Work.linkOnly_receive (sound mark : Bool) (d : Byte) : w.LinkOnly (w.receive sound mark d) := by
  have hecho : w.LinkOnly { w with link := w.link.echo ⟨mark, d⟩ } := ⟨_, _, rfl⟩
  unfold Work.receive
  dsimp only
  split
  · exact hecho.trans (Work.linkOnly_spoil _)
  · split
    · exact hecho.trans (Work.linkOnly_takeData _ _)
    · have hcut : w.LinkOnly (if ({ w with link := w.link.echo ⟨mark, d⟩ } : Work).link.receiver.isAssembling
          then ({ w with link := w.link.echo ⟨mark, d⟩ } : Work).spoil
          else { w with link := w.link.echo ⟨mark, d⟩ }) := by
        split
        · exact hecho.trans (Work.linkOnly_spoil _)
        · exact hecho
      split
      · exact hcut.trans (Work.linkOnly_takeAddress _ _)
      · exact hcut

end

/-! ### Pack Announce -/

/-- An accepted announcement: its handle's record is FREE, and the record it fills names what the tables give (R17,
R18). -/
theorem State.judgeAnnounce_accepted {s : State} {handle job : Byte} {student : Half} {pages : Byte} {k : Handle}
    {r : PackRec} {split : Bool} (h : s.judgeAnnounce handle job student pages = .accepted k r split) :
    (s.pack k).state = .free ∧ s.bypassing = false ∧ 1 ≤ pages.toNat ∧ pages.toNat ≤ 60
      ∧ ∃ j st c b, named 255 handle.toNat = some k ∧ named 32 job.toNat = some j
          ∧ namedFromZero 1024 student.toNat = some st
          ∧ s.rosterClass st = some c ∧ s.budgetFor s.tables.jobs[j] pages.toNat = .fits b
          ∧ r = s.announcedRecord j st c pages.toNat b ∧ split = b.splitLimit := by
  unfold State.judgeAnnounce at h
  split at h
  · cases h
  next hb =>
    split at h
    next k' j st hk hj hst =>
      unfold State.checkAnnounce at h
      dsimp only at h
      split at h
      · cases h
      next hfree =>
        split at h
        · cases h
        split at h
        · cases h
        next c hc =>
          split at h
          · cases h
          split at h
          · cases h
          next hp =>
            split at h
            · cases h
            · cases h
            next b hfits =>
              cases h
              exact ⟨by simpa using hfree, by simpa using hb, by omega, by omega, j, st, c, b, hk, hj, hst, hc,
                hfits, rfl, rfl⟩
    · cases h

section
variable (w : Work)

/-! ### Each command -/

theorem Work.course_sheetNotice (f h p g : Byte) (t : Half) : Course .work w (w.sheetNotice f h p g t) := by
  unfold Work.sheetNotice
  split
  · exact .refused _ _ _ _
  next n hn =>
    refine Moves.settled (Moves.setFeed .refl _ _ (.inr ?_)) _
    have hroom : w.feeds[n.feed].queue.length < Config.stagingSize := by
      unfold State.judgeNotice at hn
      split at hn
      · cases hn
      · split at hn
        · cases hn
        · dsimp only at hn
          split at hn
          · cases hn
          · split at hn
            · cases hn
            · next hlen =>
              split at hn
              · cases hn
              · split at hn
                · cases hn
                · cases hn; exact Nat.lt_of_not_le hlen
    simpa using hroom

theorem withdrawRefusal_none {st : PackState} (h : withdrawRefusal st = none) :
    st ≠ .free ∧ st ≠ .disposing ∧ st ≠ .delivering := by
  cases st <;> simp_all [withdrawRefusal]

theorem Work.course_packWithdraw (h : Byte) : Course .work w (w.packWithdraw h) := by
  unfold Work.packWithdraw
  split
  · exact .refused _ _ _ _
  · split
    · exact .refused _ _ _ _
    next hnone =>
      exact ((Moves.withdrawPack .refl _ (withdrawRefusal_none hnone).1).settled _).answer _ _ _ _

theorem Work.course_tableRead (b i n : Nat) : Course .work w (w.tableRead b i n) := by
  unfold Work.tableRead
  (repeat' split) <;> exact .refused _ _ _ _

theorem Work.course_tableMark (b i : Nat) : Course .work w (w.tableMark b i) := by
  unfold Work.tableMark
  split
  · exact .refused _ _ _ _
  · split
    · exact .refused _ _ _ _
    next r _ =>
      have hmark : Moves .work w { w with tables := { w.tables with mark := some r } } :=
        Moves.same .refl rfl rfl rfl rfl rfl rfl rfl rfl rfl rfl
      exact (hmark.answer _ _ _ _).course

theorem Work.course_groupOpen : Course .work w w.groupOpen := by
  unfold Work.groupOpen
  split
  · exact .refused _ _ _ _
  · exact ((Moves.setGroup .refl (by simp) (by simp)).answer _ _ _ _).course

theorem Work.course_groupDiscard : Course .work w w.groupDiscard := by
  unfold Work.groupDiscard
  split
  · exact .refused _ _ _ _
  · exact ((Moves.setGroup .refl (by simp) (by simp)).answer _ _ _ _).course

theorem Work.course_drainMarker (id : Byte) : Course .work w (w.drainMarker id) := by
  unfold Work.drainMarker
  dsimp only
  split
  · exact ((Moves.addDrains .refl _).answer _ _ _ _).course
  · split
    next hroom =>
      refine (Moves.answer (Moves.setReg .refl ?_ ?_ (.inr ?_)) _ _ _ _).course
      · rfl
      · rfl
      · simpa using hroom
    · exact .refused _ _ _ _

theorem Work.course_controlRun : Course .work w w.controlRun := by
  unfold Work.controlRun
  split
  next hst => exact Moves.entered (Moves.setRunState .refl (.running (by rw [hst]; rfl) rfl rfl)) _
  next hst => exact Moves.entered (Moves.setRunState .refl (.running (by rw [hst]; rfl) rfl rfl)) _
  · exact .refused _ _ _ _

theorem Work.course_controlPause : Course .work w w.controlPause := by
  unfold Work.controlPause
  split
  next hst => exact Moves.entered (Moves.setRunState .refl (.running (by rw [hst]; rfl) rfl rfl)) _
  · exact .refused _ _ _ _

theorem Work.course_controlStandby : Course .work w w.controlStandby := by
  unfold Work.controlStandby
  split
  next hst => exact Moves.entered (Moves.setRunState .refl (.running (by rw [hst]; rfl) rfl rfl)) _
  next hst => exact Moves.entered (Moves.setRunState .refl (.running (by rw [hst]; rfl) rfl rfl)) _
  next hst => exact Moves.entered (Moves.setRunState .refl (.running (by rw [hst]; rfl) rfl rfl)) _
  · exact .refused _ _ _ _

theorem Work.course_controlBypass : Course .work w w.controlBypass := by
  unfold Work.controlBypass
  split
  next hst => exact Moves.entered (Moves.enterBypass .refl (.running (by rw [hst]; rfl) rfl rfl)) _
  · exact .refused _ _ _ _

theorem Work.course_controlResume : Course .resume w w.controlResume := by
  unfold Work.controlResume
  split
  · split
    · exact Moves.entered (Moves.resume .refl _) _
    · exact .refused _ _ _ _
  · exact .refused _ _ _ _

theorem Work.course_clearStapler : Course .work w w.clearStapler := by
  unfold Work.clearStapler
  split
  · exact ((Moves.setStapler .refl _ _ _).settled _).answer _ _ _ _
  · exact .refused _ _ _ _

theorem Work.course_clearReturn (o : Byte) : Course .work w (w.clearReturn o) := by
  unfold Work.clearReturn
  split
  · split
    · exact .refused _ _ _ _
    next hd =>
      rcases Work.settleDelivery_cases _ hd with ⟨-, rfl⟩ | ⟨-, rfl⟩
      · exact ((Moves.completeDelivery .refl _).settled _).answer _ _ _ _
      · exact ((Moves.loseDelivery .refl _).settled _).answer _ _ _ _
  · exact .refused _ _ _ _

theorem Work.course_feedFlush (f : Byte) : Course .work w (w.feedFlush f) := by
  unfold Work.feedFlush
  split
  · exact .refused _ _ _ _
  · exact ((Moves.flushFeed .refl _).settled _).answer _ _ _ _

theorem Work.course_takeArrival (t : Option TagNum) : Course .work w (w.takeArrival t) := by
  unfold Work.takeArrival
  split
  · exact Course.and_then (((Moves.setGate .refl _).occasionIf _).course) (Moves.decideReleases .refl)
  · exact ((Moves.matchArrival .refl (by decide) _).occasionIf _).settled _

theorem Work.course_expireDeadline (e : InFlight) : Course .stop w (w.expireDeadline e) :=
  Moves.settled (((((Moves.dropHead .refl (by decide)).requestHalt _).latch _).faultFeed _).requestFor _ _) _

theorem Work.course_whenSome {α : Type} {ph : Phase} (o : Option α) (f : α → Work) (h : ∀ x, Course ph w (f x)) :
    Course ph w (w.whenSome o f) := by
  cases o
  · exact .refl
  · exact h _

theorem Work.course_sheetCame (f : FeedId) : Course .work w (w.sheetCame f) := by
  have hpins : Moves .work w (w.setPresent f true) := Moves.same .refl rfl rfl rfl rfl rfl rfl rfl rfl rfl rfl
  unfold Work.sheetCame
  dsimp only
  refine Moves.settled (hpins.setFeed _ _ ?_) _
  exact .inl le_rfl

theorem Work.course_sheetLeft (f : FeedId) : Course .work w (w.sheetLeft f) := by
  have hpins : Moves .work w (w.setPresent f false) := Moves.same .refl rfl rfl rfl rfl rfl rfl rfl rfl rfl rfl
  unfold Work.sheetLeft
  dsimp only
  refine Moves.settled (hpins.setFeed _ _ ?_) _
  exact .inl le_rfl

theorem Work.course_expireWait (f : FeedId) : Course .work w (w.expireWait f) := by
  unfold Work.expireWait
  refine Moves.settled (Moves.setFeed .refl _ _ ?_) _
  exact .inl le_rfl

theorem Work.moves_setBin_kept (b : BinId) (r : BinRec) (h : r.capacity = w.ret.bins[b].capacity
    ∧ r.inService = w.ret.bins[b].inService ∧ r.lampMode = w.ret.bins[b].lampMode) : Moves .work w (w.setBin b r) :=
  Moves.setBin .refl b r h

/-- An entry staged has its quantities within their ranges (R160). -/
theorem Work.course_stage (staged ws : List Staged) (st : Status) (c : Bool) (hg : w.tables.group = some staged)
    (hws : ∀ x ∈ ws, x.entry.clamp = x.entry) : Course .work w (w.stage staged st c ws) := by
  unfold Work.stage
  split
  · exact .refused _ _ _ _
  next hroom =>
    refine (Moves.answer (Moves.setGroup (g := some (staged ++ ws)) .refl ?_ ?_) _ _ _ _).course
    · simpa using hroom
    · intro h x hx
      rcases List.mem_append.1 hx with hx | hx
      · exact h x (by simpa [hg] using hx)
      · exact hws x hx

end

/-! ### Entries read and clamped -/

theorem clamp_clamp {lo hi : Nat} (h : lo ≤ hi) (n : Nat) : clamp lo hi (clamp lo hi n) = clamp lo hi n := by
  simp only [clamp]
  repeat' split
  all_goals omega

theorem clamp_bounds {lo hi : Nat} (h : lo ≤ hi) (n : Nat) : lo ≤ clamp lo hi n ∧ clamp lo hi n ≤ hi := by
  simp only [clamp]
  split
  · omega
  · split <;> omega

theorem clamp_of_bounds {lo hi n : Nat} (h : lo ≤ n) (h' : n ≤ hi) : clamp lo hi n = n := by
  simp only [clamp]
  split
  · omega
  · split <;> omega

theorem clamp_eq_self {lo hi n : Nat} (h : lo ≤ hi) : clamp lo hi n = n ↔ lo ≤ n ∧ n ≤ hi :=
  ⟨fun e => e ▸ clamp_bounds h n, fun ⟨h1, h2⟩ => clamp_of_bounds h1 h2⟩

theorem Settings.clamp_clamp (v : Settings) : v.clamp.clamp = v.clamp := by
  have hhigh := clamp_bounds (lo := 2) (hi := 32) (by decide) v.holdHigh
  have hlow := clamp_bounds (lo := 0) (hi := 31) (by decide) v.holdLow
  have hhold : Machine.clamp 0 31 (if Machine.clamp 2 32 v.holdHigh ≤ Machine.clamp 0 31 v.holdLow
      then Machine.clamp 2 32 v.holdHigh - 1 else Machine.clamp 0 31 v.holdLow)
      = if Machine.clamp 2 32 v.holdHigh ≤ Machine.clamp 0 31 v.holdLow
        then Machine.clamp 2 32 v.holdHigh - 1 else Machine.clamp 0 31 v.holdLow :=
    clamp_of_bounds (Nat.zero_le _) (by split <;> omega)
  simp only [Settings.clamp, Machine.clamp_clamp (show (1000 : Nat) ≤ 8000 by decide),
    Machine.clamp_clamp (show (2000 : Nat) ≤ 20000 by decide), Machine.clamp_clamp (show (200 : Nat) ≤ 2000 by decide),
    Machine.clamp_clamp (show (50 : Nat) ≤ 1000 by decide), Machine.clamp_clamp (show (2 : Nat) ≤ 60 by decide),
    Machine.clamp_clamp (show (1 : Nat) ≤ 3 by decide), Machine.clamp_clamp (show (2 : Nat) ≤ 32 by decide), hhold,
    Machine.clamp_clamp (show (2 : Nat) ≤ 8 by decide), Machine.clamp_clamp (show (500 : Nat) ≤ 5000 by decide),
    Machine.clamp_clamp (show (0 : Nat) ≤ 1000 by decide), Machine.clamp_clamp (show (1000 : Nat) ≤ 10000 by decide)]
  congr 1
  split <;> (try split) <;> omega

theorem Entry.clamp_clamp (e : Entry) : e.clamp.clamp = e.clamp := by
  cases e <;> simp only [Entry.clamp, Settings.clamp_clamp, Machine.clamp_clamp (show (40 : Nat) ≤ 600 by decide),
    Machine.clamp_clamp (show (300 : Nat) ≤ 6000 by decide), Machine.clamp_clamp (show (100 : Nat) ≤ 1500 by decide)]

theorem writeItems_clamped (bank index n : Nat) (l : List Byte) :
    ∀ x ∈ (writeItems bank index n l).map WriteItem.write, x.entry.clamp = x.entry := by
  simp only [writeItems, List.map_map, List.mem_map, Function.comp_apply]
  rintro _ ⟨x, -, rfl⟩
  exact Entry.clamp_clamp _

/-! ### Deeds -/

/-- What a write of entries does to the work in hand before the owning blocks meet it. -/
def Work.wrote (w : Work) (ws : List Staged) : Work := { w with toState := w.toState.writeAll ws }

/-- The defaults restored, with the time, the Link Port, the straps and the gate that the reset gives. -/
def Work.defaulted (w : Work) (now : Time) (l : LinkPort) (straps : Straps) (gate : Gate) : Work :=
  { w.resetDefaults with now := now, link := l, run := { w.run with straps := straps }, arb := { w.arb with gate := gate } }

/-- The work that a reset of a kind starts from: RESET WORK keeps the tables and the latches, the others restore their
defaults. -/
def Work.ResetsFrom (w : Work) : ResetKind → Work → Prop
  | .work, u => ∃ l, u = { w with link := l }
  | _, u => ∃ now l straps gate, u = w.defaulted now l straps gate

end Sys2Proof.Machine

namespace Sys2Proof

open Machine

/-- The phase of a command's own work. -/
def Instr.phase : Instr → Phase
  | .stopCharacter => .stop
  | .stopInputFall => .stop
  | .deadlineExpiry => .stop
  | .resume _ _ => .resume
  | _ => .work

/-- The command writes entries of the banks. -/
def Instr.writes : Instr → Bool
  | .tableWrite _ _ _ _ => true
  | .markedWrite _ _ _ _ => true
  | .groupClose _ => true
  | _ => false

/-- The reset a command makes. -/
def Instr.resets : Instr → Option ResetKind
  | .powerOn _ => some .powerOn
  | .resetPin _ => some .pin
  | .resetAll _ _ => some .all
  | .resetWork _ _ => some .work
  | _ => none

/-- What a command does to the work `w`, to leave `v`: moves; or a pack announced, and a settling; or entries written,
met by their blocks, and a settling; or a reset, and a settling. -/
inductive Instr.Deed (c : Instr) (w v : Work) : Prop
  | moved (h : Course c.phase w v)
  | announced (l : LinkPort) (j : JobId) (st : StudentId) (cls : ClassId) (pages : Nat) (b : Budget) (k : Handle)
    (hc : ∃ bc h j s p, c = .packAnnounce bc h j s p) (hfree : (w.pack k).state = .free)
    (hp : 1 ≤ pages ∧ pages ≤ 60) (hb : w.budgetFor w.tables.jobs[j] pages = .fits b) (s : State)
    (hv : Moves .release ((({ w with link := l } : Work).acceptPack k (w.announcedRecord j st cls pages b)).settle s) v)
  | wrote (hc : c.writes = true) (u : Work) (ws : List Staged) (b : State) (hu : Moves .work w u)
    (hws : (∀ x ∈ w.tables.group.getD [], x.entry.clamp = x.entry) → ∀ x ∈ ws, x.entry.clamp = x.entry)
    (hv : Moves .release (((u.wrote ws).meetWrite u.toState ws).settle b) v)
  | reset (kind : ResetKind) (hc : c.resets = some kind) (u : Work) (hu : w.ResetsFrom kind u) (b : State)
    (hv : Moves .release ((u.resetCommon kind).settle b) v)

end Sys2Proof

namespace Sys2Proof.Machine

section
variable {c : Instr} {w v : Work}

theorem Deed_and_then (h : c.Deed w v) {x : Work} (hx : Moves .release v x) : c.Deed w x := by
  cases h with
  | moved h => exact .moved (h.and_then hx)
  | announced l j st cls pages b k hc hfree hp hb s hv => exact .announced l j st cls pages b k hc hfree hp hb s (hv.trans hx)
  | wrote hc u ws b hu hws hv => exact .wrote hc u ws b hu hws (hv.trans hx)
  | reset kind hc u hu b hv => exact .reset kind hc u hu b (hv.trans hx)

/-- What is done to the work with another Link Port is done to the work. -/
theorem Deed_of_link {l : LinkPort} (h : c.Deed { w with link := l } v) : c.Deed w v := by
  have hl {ph : Phase} : Moves ph w { w with link := l } := Moves.setLink .refl l
  cases h with
  | moved h => exact .moved (.after hl h)
  | announced l j st cls pages b k hc hfree hp hb s hv => exact .announced l j st cls pages b k hc hfree hp hb s hv
  | wrote hc u ws b hu hws hv => exact .wrote hc u ws b (hl.trans hu) hws hv
  | reset kind hc u hu b hv =>
    refine .reset kind hc u ?_ b hv
    cases kind
    all_goals exact hu

end

section
variable (w : Work) {c : Instr}

theorem Work.deed_answer (k : Byte) (st : Status) (d : List Byte) (n : Notes) : c.Deed w (w.answer k st d n) :=
  .moved (.refused k st d n)

theorem Work.deed_packAnnounce (bc : Bool) (h j : Byte) (st : Half) (p : Byte) :
    (Instr.packAnnounce bc h j st p).Deed w (w.packAnnounce h j st p) := by
  unfold Work.packAnnounce
  split
  · exact w.deed_answer _ _ _ _
  next hacc =>
    obtain ⟨hfree, -, h1, h60, j', s, c, b, -, -, -, -, hb, rfl, -⟩ := State.judgeAnnounce_accepted hacc
    exact .announced w.link j' s c _ b _ ⟨_, _, _, _, _, rfl⟩ hfree ⟨h1, h60⟩ hb _ (Moves.answer .refl _ _ _ _)

theorem Work.deed_tableWriteItems (hc : c.writes = true) (hph : c.phase = .work) (b short : Bool)
    (items : List WriteItem) (hi : ∀ x ∈ items.map WriteItem.write, x.entry.clamp = x.entry) :
    c.Deed w (w.tableWriteItems b short items) := by
  unfold Work.tableWriteItems
  split
  · exact w.deed_answer _ _ _ _
  · dsimp only
    split
    next hg => exact .moved (hph ▸ w.course_stage _ _ _ _ hg hi)
    · exact .wrote hc w _ _ .refl (fun _ => hi) (Moves.answer .refl _ _ _ _)

theorem Work.deed_tableWrite (hc : c.writes = true) (hph : c.phase = .work) (b : Bool) (bank index : Nat)
    (l : List Byte) : c.Deed w (w.tableWrite b bank index l) := by
  unfold Work.tableWrite
  split
  · exact w.deed_answer _ _ _ _
  · split
    · exact w.deed_answer _ _ _ _
    · split
      · exact w.deed_answer _ _ _ _
      · split
        · exact w.deed_answer _ _ _ _
        · exact w.deed_tableWriteItems hc hph _ _ _ (writeItems_clamped _ _ _ _)

theorem Work.deed_markedWrite (hc : c.writes = true) (bank index : Nat) (l : List Byte) :
    c.Deed w (w.markedWrite bank index l) := by
  unfold Work.markedWrite
  refine Deed_and_then ?_ (Moves.clearMark .refl)
  split
  · exact w.deed_answer _ _ _ _
  · split
    · exact w.deed_answer _ _ _ _
    · split
      · exact w.deed_answer _ _ _ _
      · split
        · unfold Work.markedWriteItem
          split
          · exact w.deed_answer _ _ _ _
          · refine .wrote hc w [_] _ .refl (fun _ x hx => ?_) (Moves.answer .refl _ _ _ _)
            rw [List.mem_singleton.1 hx]
            exact Entry.clamp_clamp _
        · exact w.deed_answer _ _ _ _

theorem Work.deed_groupClose (hc : c.writes = true) : c.Deed w w.groupClose := by
  unfold Work.groupClose
  split
  · exact w.deed_answer _ _ _ _
  next ws hg =>
    have hclosed {ph : Phase} : Moves ph w (w.setGroup none) := Moves.setGroup .refl (by simp) (by simp)
    dsimp only
    split
    · exact .moved ((hclosed.answer _ _ _ _).course)
    · exact .wrote hc (w.setGroup none) ws _ hclosed (fun h => by simpa [hg] using h) (Moves.answer .refl _ _ _ _)

end

/-! ### Every command -/

/-- What a command's effect comes to. -/
theorem effect_deed (c : Instr) (w : Work) : c.Deed w (c.effect w) := by
  cases c <;> simp only [Instr.effect]
  case tableWrite => exact w.deed_tableWrite rfl rfl _ _ _ _
  case markedWrite => exact w.deed_markedWrite rfl _ _ _
  case groupClose => exact w.deed_groupClose rfl
  case resetWork => exact .reset .work rfl w ⟨w.link, rfl⟩ _ (Moves.answer .refl _ _ _ _)
  case resetAll => exact .reset .all rfl _ ⟨w.now, _, w.run.straps, w.arb.gate, rfl⟩ _ (Moves.answer .refl _ _ _ _)
  case powerOn x => exact .reset .powerOn rfl _ ⟨0, _, x, .reject, rfl⟩ _ .refl
  case resetPin x => exact .reset .pin rfl _ ⟨w.now, _, x, .reject, rfl⟩ _ .refl
  case packAnnounce => exact w.deed_packAnnounce _ _ _ _ _
  all_goals refine .moved ?_
  case sheetNotice => exact w.course_sheetNotice _ _ _ _ _
  case packWithdraw => exact w.course_packWithdraw _
  case tableRead => exact w.course_tableRead _ _ _
  case tableMark => exact w.course_tableMark _ _
  case groupOpen => exact w.course_groupOpen
  case groupDiscard => exact w.course_groupDiscard
  case drainMarker => exact w.course_drainMarker _
  case statusRead =>
    have hclear : Moves .release w w.clearLatches :=
      Moves.same .refl rfl rfl rfl rfl rfl rfl rfl rfl rfl rfl fun _ => .inr rfl
    exact Course.refl.and_then (hclear.answer _ _ _ _)
  case undefinedRecordKind => exact .refused _ _ _ _
  case undefinedActionCode => exact .refused _ _ _ _
  case run => exact w.course_controlRun
  case pause => exact w.course_controlPause
  case standby => exact w.course_controlStandby
  case bypass => exact w.course_controlBypass
  case resume => exact w.course_controlResume
  case clearStapler => exact w.course_clearStapler
  case clearReturn => exact w.course_clearReturn _
  case feedFlush => exact w.course_feedFlush _
  case loopbackOn => exact ((Moves.setLink .refl _).answer _ _ _ _).course
  case loopbackOff => exact ((Moves.setLink .refl _).answer _ _ _ _).course
  case recordComplete bcast kind payload =>
    have hdone : Moves .work w { w with toState := w.completed ⟨bcast, kind, payload⟩ } := Moves.setLink .refl _
    exact Course.after hdone (Work.linkOnly_offer _ _).course
  case stopCharacter => exact Moves.settled (Moves.takeStop ((Moves.setLink .refl _).setLink _)) _
  case lineError => exact (w.linkOnly_receive _ _ _).course
  case lineBreak => exact (w.linkOnly_setReceiver _).course
  case recordSent => exact (Moves.setLink .refl _).course
  case sheetPresentActive => exact w.course_sheetCame _
  case sheetPresentInactive => exact w.course_sheetLeft _
  case arrival => exact w.course_takeArrival _
  case deadlineExpiry => exact w.course_whenSome _ _ w.course_expireDeadline
  case stopInputFall =>
    have hpins : Moves .stop w (w.setStop false) := Moves.same .refl rfl rfl rfl rfl rfl rfl rfl rfl rfl rfl
    exact hpins.takeStop.settled _
  case stopInputRise =>
    have hpins : Moves .work w (w.setStop true) := Moves.same .refl rfl rfl rfl rfl rfl rfl rfl rfl rfl rfl
    exact hpins.course
  case unannouncedSheetWaitExpiry => exact w.course_expireWait _
  case blockTimerExpiry => exact Moves.settled (Moves.restartTimer .refl).breakBlock _
  case releaseComesDue => exact Moves.settled (Moves.occasionIf .refl _) _
  case purgeDone => exact Moves.settled (Moves.endPurge .refl _ _) _
  case purgeTimeout => exact Moves.settled ((Moves.endPurge .refl _ _).latch _) _
  case stapleDone => exact w.course_whenSome _ _ fun k => Moves.settled (Moves.volumeDone .refl k) _
  case stapleTimeout => exact w.course_whenSome _ _ fun k => Moves.settled (Moves.volumeTimedOut .refl k) _
  case cartridgeFitted => exact Moves.settled (Moves.fitCartridge .refl) _
  case ejectDone => exact w.course_whenSome _ _ fun d => Moves.settled (Moves.completeDelivery .refl d) _
  case ejectTimeout => exact Moves.settled (Moves.deliveryTimedOut .refl) _
  case binCleared b =>
    exact (w.moves_setBin_kept b { w.ret.bins[b] with fill := 0 } ⟨rfl, rfl, rfl⟩).settled _
  case flashEnd b =>
    exact (w.moves_setBin_kept b { w.ret.bins[b] with flash := none } ⟨rfl, rfl, rfl⟩).course
  case inboundCharacterTaken => exact (w.linkOnly_receive _ _ _).course
  case pacingCharacterSent => exact w.course_whenSome _ _ fun _ => (Moves.setLink .refl _).course
  case loopbackEchoSent => exact w.course_whenSome _ _ fun _ => (Moves.setLink .refl _).course

/-- The end of a step touches none of the records that moves are about. -/
theorem Work.finish_moves (w : Work) : Moves .release w (Work.of w.finish) := by
  have h := w.finish_sameWork
  refine Moves.same .refl ?_ ?_ ?_ ?_ ?_ ?_ ?_ ?_ ?_ ?_ fun _ => .inr rfl
  all_goals rw [Work.of_toState, h]

/-- What every command comes to. -/
theorem exec_deed {c : Instr} {s t : State} (h : exec c s = .next t) : c.Deed (Work.of s) (Work.of t) := by
  rcases exec_cases h with rfl | ⟨u, w, hw, rfl⟩
  · exact .moved .refl
  · have hu : Work.of u = { Work.of s with link := u.link } := by rw [runs_start hw]; rfl
    refine Deed_and_then ?_ w.finish_moves
    have hstart : c.Deed (Work.of u) w → c.Deed (Work.of s) w := fun hd => Deed_of_link (hu ▸ hd)
    cases hw with
    | discarded r u hr hu => exact hstart (.moved .refl)
    | offered r hr => exact hstart (.moved ((Work.linkOnly_offer _ r).course))
    | taken r u hr hu => exact hstart (effect_deed c _)
    | broadcast r u hr hu =>
      exact hstart (Deed_and_then (effect_deed c _) (Moves.same .refl rfl rfl rfl rfl rfl rfl rfl rfl rfl rfl))
    | event hr hc => exact effect_deed c _

end Sys2Proof.Machine
end

section
/-! SUPPORT. What every move, a first act (an announcement, a write of entries, a reset) and a tick keep, every step keeps:
the rules of the whole machine, and the settling of `Obligations.OnlyWritesAndResetsChangeTheBanks`,
`Obligations.LivePackKeepsItsAnnouncement`, `Obligations.PackCountersKept`, `Obligations.FreeRecordsStayCleared`,
`Obligations.ListBoundsKept` and `Obligations.RangesKept`. -/

namespace Sys2Proof

open Machine

/-- What a command does first, before it goes on in moves: nothing, an announcement, a write of entries, or a reset. -/
inductive Instr.Begins (c : Instr) (w : Work) : Work → Prop
  | plain : c.Begins w w
  | announced (l : LinkPort) (j : JobId) (st : StudentId) (cls : ClassId) (pages : Nat) (b : Budget) (k : Handle)
    (hc : ∃ bc h j s p, c = .packAnnounce bc h j s p) (hfree : (w.pack k).state = .free)
    (hp : 1 ≤ pages ∧ pages ≤ 60) (hb : w.budgetFor w.tables.jobs[j] pages = .fits b) :
    c.Begins w (({ w with link := l } : Work).acceptPack k (w.announcedRecord j st cls pages b))
  | wrote (hc : c.writes = true) (u : Work) (ws : List Staged) (hu : Moves .work w u)
    (hws : (∀ x ∈ w.tables.group.getD [], x.entry.clamp = x.entry) → ∀ x ∈ ws, x.entry.clamp = x.entry) :
    c.Begins w (u.wrote ws)
  | reset (kind : ResetKind) (hc : c.resets = some kind) (u : Work) (hu : w.ResetsFrom kind u) :
    c.Begins w (u.resetCommon kind)

theorem Instr.phase_of_writes {c : Instr} (h : c.writes = true) : c.phase = .work := by
  cases c <;> first | rfl | cases h

theorem Instr.phase_of_resets {c : Instr} {k : ResetKind} (h : c.resets = some k) : c.phase = .work := by
  cases c <;> first | rfl | cases h

theorem Instr.resets_of_writes {c : Instr} (h : c.writes = true) : c.resets = none := by
  cases c <;> first | rfl | cases h

end Sys2Proof

namespace Sys2Proof.Machine

/-! ### What the owning blocks do with a write -/

section
variable {ph : Phase} {a w : Work}

theorem Moves.touch (h : Moves ph a w) (e : EntryRef) : Moves ph a (w.touch e) := by
  unfold Work.touch
  split
  · exact h.same rfl rfl rfl rfl rfl rfl rfl rfl rfl rfl
  · exact h

theorem Moves.settleFeed (h : Moves ph a w) (f : FeedId) : Moves ph a (w.settleFeed f) := by
  unfold Work.settleFeed
  dsimp only
  split
  · exact h
  · exact h.setFeed _ _ (.inl le_rfl)

theorem Moves.meetSettings (h : Moves ph a w) : Moves ph a w.meetSettings := (h.setLink _).judgeStaples

theorem Moves.meetWrite (h : Moves ph a w) (b : State) (ws : List Staged) : Moves ph a (w.meetWrite b ws) := by
  have hmet : Moves ph a (((w.each (fun (x : Work) (y : Staged) => x.touch y.ref) ws).occasionIf
      (ws.any fun x => occasionOf b w.toState x)).each Work.settleFeed allFeeds) :=
    Moves.each ((h.each _ _ fun _ y hx => hx.touch y.ref).occasionIf _) _ _ fun _ f hx => hx.settleFeed f
  unfold Work.meetWrite
  dsimp only
  split
  · exact hmet.meetSettings
  · exact hmet

end

/-- Every command is a first act and moves after it. -/
theorem Deed_begins {c : Instr} {w v : Work} (h : c.Deed w v) : ∃ u, c.Begins w u ∧ Course c.phase u v := by
  cases h with
  | moved h => exact ⟨w, .plain, h⟩
  | announced l j st cls pages b k hc hfree hp hb s hv =>
    refine ⟨_, .announced l j st cls pages b k hc hfree hp hb, Course.and_then (Moves.settled .refl s) hv⟩
  | wrote hc u ws b hu hws hv =>
    rw [Instr.phase_of_writes hc]
    exact ⟨_, .wrote hc u ws hu hws, Course.and_then (Moves.settled (Moves.meetWrite .refl _ _) b) hv⟩
  | reset kind hc u hu b hv =>
    rw [Instr.phase_of_resets hc]
    exact ⟨_, .reset kind hc u hu, Course.and_then (Moves.settled .refl b) hv⟩

/-! ### Invariants -/

theorem Moves.keeps {P : Work → Prop} {ph : Phase} (hm : ∀ w v, Move ph w v → P w → P v) {w v : Work}
    (h : Moves ph w v) (hw : P w) : P v := by
  induction h with
  | refl => exact hw
  | tail _ hs ih => exact hm _ _ hs ih

theorem Course.keeps {P : Work → Prop} (hm : ∀ ph w v, Move ph w v → P w → P v) {ph : Phase} {w v : Work}
    (h : Course ph w v) (hw : P w) : P v := by
  obtain ⟨w0, h0, w1, w2, w3, w4, h1, h2, h3, h4, h5⟩ := h
  exact h5.keeps (hm _) (h4.keeps (hm _) (h3.keeps (hm _) (h2.keeps (hm _) (h1.keeps (hm _) (h0.keeps (hm _) hw)))))

/-- What moves and first acts keep, every command keeps. -/
theorem exec_keeps {P : Work → Prop} (hm : ∀ ph w v, Move ph w v → P w → P v)
    (hb : ∀ c w u, Instr.Begins c w u → P w → P u) {c : Instr} {s t : State} (h : exec c s = .next t)
    (hs : P (Work.of s)) : P (Work.of t) := by
  obtain ⟨u, hu, hc⟩ := Deed_begins (exec_deed h)
  exact hc.keeps hm (hb c _ _ hu hs)

/-- What moves, first acts and ticks keep, every step keeps. -/
theorem step_invariant {P : Work → Prop} (hm : ∀ ph w v, Move ph w v → P w → P v)
    (hb : ∀ c w u, Instr.Begins c w u → P w → P u) (ht : ∀ s : State, P (Work.of s) → P (Work.of s.tick)) {s t : State}
    (h : step s = .next t) (hs : P (Work.of s)) : P (Work.of t) := by
  have still {s t : State} (h1 : Move .work (Work.of s) (Work.of t)) : P (Work.of s) → P (Work.of t) := hm _ _ _ h1
  refine step_keeps (P := fun s => P (Work.of s)) (fun s q => still ?_) (fun s => still ?_) ht
    (fun c s t h => exec_keeps hm hb h) h hs
  · exact .same rfl rfl rfl rfl rfl rfl rfl rfl rfl rfl
  · exact .same rfl rfl rfl rfl rfl rfl rfl rfl rfl rfl

/-- A step runs a command on the state with another queue and another count of choices, or lets a millisecond pass. -/
theorem step_exec {s t : State} (h : step s = .next t) :
    (∃ c q n, exec c { s with pending := q, choices := n } = .next t) ∨ t = s.tick := by
  rcases step_cases h with ⟨c, q, h⟩ | ⟨c, h⟩ | ⟨c, h⟩ | h
  · exact .inl ⟨c, q, s.choices, h⟩
  · exact .inl ⟨c, s.pending, s.choices + 1, h⟩
  · exact .inl ⟨c, s.pending, s.choices, h⟩
  · exact .inr h

/-! ### What a move does to each record -/

section
variable {ph : Phase} {w v : Work}

theorem Work.pack_setPack (w : Work) (j k : Handle) (r : PackRec) :
    (w.setPack j r).pack k = if k = j then r else w.pack k := by
  split
  · next h => rw [h, Work.pack_setPack_self]
  · next h => exact w.pack_setPack_ne r h

theorem Move_pack (h : Move ph w v) (k : Handle) :
    v.pack k = w.pack k ∨ PackMove ph w.tables.settings.restartLimit (w.pack k) (v.pack k) := by
  cases h with
  | same hreg => exact .inl (by simp only [State.pack, hreg])
  | setPack j r hr =>
    rw [Work.pack_setPack]
    split
    next hk => rw [hk]; exact .inr hr
    · exact .inl rfl
  | setReg r hp => exact .inl (by simp only [State.pack, Work.setReg_reg, hp])
  | setClassQueue c q => exact .inl (by simp)
  | setFeed f r => exact .inl (by simp)
  | setPocket p r => exact .inl (by simp)
  | setBin b r => exact .inl (by simp)
  | _ => exact .inl rfl

/-- The tables but for the mark and the edit group. -/
def TableStore.banks (t : TableStore) : TableStore := { t with mark := none, group := none }

theorem TableStore.banks_of_unmarked {t u : TableStore} (h : { t with mark := none } = { u with mark := none }) :
    t.banks = u.banks := by
  have := congrArg TableStore.banks h
  exact this

theorem TableStore.group_of_unmarked {t u : TableStore} (h : { t with mark := none } = { u with mark := none }) :
    t.group = u.group := by
  have := congrArg (fun x : TableStore => x.group) h
  exact this

theorem Move_banks (h : Move ph w v) : v.tables.banks = w.tables.banks := by
  cases h with
  | same _ _ _ _ _ _ _ _ htables => exact TableStore.banks_of_unmarked htables
  | setPack => exact TableStore.banks_of_unmarked (by simp)
  | setClassQueue => exact TableStore.banks_of_unmarked (by simp)
  | setFeed => exact TableStore.banks_of_unmarked (by simp)
  | setPocket => exact TableStore.banks_of_unmarked (by simp)
  | setBin => exact TableStore.banks_of_unmarked (by simp)
  | _ => rfl

/-- A bin's writable fields. -/
def BinRec.writable (r : BinRec) : Nat × Bool × LampMode := (r.capacity, r.inService, r.lampMode)

theorem Move_bins (h : Move ph w v) (b : BinId) : v.ret.bins[b].writable = w.ret.bins[b].writable := by
  cases h with
  | same _ _ _ _ _ hret => rw [hret]
  | setBin c r hr =>
    rw [Work.setBin_ret]
    simp only [Fin.getElem_fin, Vector.getElem_set]
    split
    next hc =>
      obtain rfl : c = b := Fin.ext hc
      obtain ⟨h1, h2, h3⟩ := hr
      simp only [BinRec.writable, h1, h2, h3, Fin.getElem_fin]
    · rfl
  | setRet r hr =>
    have := congrArg BinRec.writable (hr b)
    exact this
  | setPack => simp
  | setClassQueue => simp
  | setFeed => simp
  | setPocket => simp
  | _ => rfl

theorem Move_canonical (h : Move ph w v) (hp : Sparse.wf PackRec.cleared w.reg.packs = true)
    (hq : Sparse.wf [] w.reg.queues = true) :
    Sparse.wf PackRec.cleared v.reg.packs = true ∧ Sparse.wf [] v.reg.queues = true := by
  cases h with
  | same hreg => rw [hreg]; exact ⟨hp, hq⟩
  | setPack k r => rw [Work.setPack_reg]; exact ⟨Sparse.put_wf _ _ _ _ hp, hq⟩
  | setClassQueue c q => rw [Work.setClassQueue_reg]; exact ⟨hp, Sparse.put_wf _ _ _ _ hq⟩
  | setReg r h1 h2 => rw [Work.setReg_reg, h1, h2]; exact ⟨hp, hq⟩
  | setFeed => simpa using ⟨hp, hq⟩
  | setPocket => simpa using ⟨hp, hq⟩
  | setBin => simpa using ⟨hp, hq⟩
  | _ => exact ⟨hp, hq⟩

theorem Move_group (h : Move ph w v) : v.tables.group = w.tables.group
    ∨ ((v.tables.group.getD []).length ≤ Config.groupSize
      ∧ ((∀ x ∈ w.tables.group.getD [], x.entry.clamp = x.entry) → ∀ x ∈ v.tables.group.getD [], x.entry.clamp = x.entry)) := by
  cases h with
  | same _ _ _ _ _ _ _ _ htables => exact .inl (TableStore.group_of_unmarked htables)
  | setGroup g hl hc => exact .inr ⟨hl, hc⟩
  | setPack => exact .inl (by simp)
  | setClassQueue => exact .inl (by simp)
  | setFeed => exact .inl (by simp)
  | setPocket => exact .inl (by simp)
  | setBin => exact .inl (by simp)
  | _ => exact .inl rfl

theorem Move_markers (h : Move ph w v) : v.reg.markers.length ≤ w.reg.markers.length
    ∨ v.reg.markers.length ≤ Config.markerLimit := by
  cases h with
  | same hreg => exact .inl (by rw [hreg])
  | setReg r _ _ hm => exact hm
  | setPack => exact .inl (by simp)
  | setClassQueue => exact .inl (by simp)
  | setFeed => exact .inl (by simp)
  | setPocket => exact .inl (by simp)
  | setBin => exact .inl (by simp)
  | _ => exact .inl le_rfl

theorem Move_feeds (h : Move ph w v) (f : FeedId) : v.feeds[f].queue.length ≤ w.feeds[f].queue.length
    ∨ v.feeds[f].queue.length ≤ Config.stagingSize := by
  cases h with
  | same _ hfeeds => exact .inl (by rw [hfeeds])
  | setFeed g r hr =>
    rw [Work.setFeed_feeds]
    simp only [Fin.getElem_fin, Vector.getElem_set]
    split
    next hg =>
      obtain rfl : g = f := Fin.ext hg
      exact hr
    · exact .inl le_rfl
  | setPack => exact .inl (by simp)
  | setClassQueue => exact .inl (by simp)
  | setPocket => exact .inl (by simp)
  | setBin => exact .inl (by simp)
  | _ => exact .inl le_rfl

theorem Move_inFlight (h : Move ph w v) : v.arb.inFlight.length ≤ w.arb.inFlight.length
    ∨ v.arb.inFlight.length ≤ Config.inFlightSize := by
  cases h with
  | same _ _ harb => exact .inl (by rw [harb])
  | setArb r hr =>
    rcases hr.inFlight with h | ⟨-, n, h⟩
    · exact .inl (by rw [Work.setArb_arb, h])
    · exact .inl (by rw [Work.setArb_arb, h]; simp)
  | append f k p g t d _ _ _ hroom => exact .inr (by simpa [Work.appendInFlight] using hroom)
  | setPack => exact .inl (by simp)
  | setClassQueue => exact .inl (by simp)
  | setFeed => exact .inl (by simp)
  | setPocket => exact .inl (by simp)
  | setBin => exact .inl (by simp)
  | _ => exact .inl le_rfl

end

/-! ### What a write of an entry does -/

section
variable (s : State) (x : Staged)

theorem State.writeEntry_reg : (s.writeEntry x).reg = s.reg := by
  unfold State.writeEntry
  split <;> rfl

theorem State.writeEntry_arb : (s.writeEntry x).arb = s.arb := by
  unfold State.writeEntry
  split <;> rfl

theorem State.writeEntry_group : (s.writeEntry x).tables.group = s.tables.group := by
  unfold State.writeEntry
  split <;> rfl

theorem State.writeEntry_queue (f : FeedId) : (s.writeEntry x).feeds[f].queue = s.feeds[f].queue := by
  unfold State.writeEntry
  split
  case h_5 g st travel _ _ =>
    simp only [Fin.getElem_fin, Vector.getElem_set]
    split
    next hg => simp only [FeedRec.written, hg]
    · rfl
  all_goals rfl

theorem State.writeEntry_roster (h : Sparse.wf none s.tables.roster = true) :
    Sparse.wf none (s.writeEntry x).tables.roster = true := by
  unfold State.writeEntry
  split
  case h_3 => exact Sparse.put_wf _ _ _ _ h
  all_goals exact h

end

/-- What a write of an entry keeps, a write of entries keeps. -/
theorem State.writeAll_keeps {P : State → Prop} (hw : ∀ s x, P s → P (s.writeEntry x)) (ws : List Staged) :
    ∀ s : State, P s → P (s.writeAll ws) := by
  induction ws with
  | nil => exact fun _ h => h
  | cons x ws ih => exact fun s h => ih _ (hw s x h)

theorem State.writeAll_reg (s : State) (ws : List Staged) : (s.writeAll ws).reg = s.reg :=
  State.writeAll_keeps (P := fun t => t.reg = s.reg) (fun t x h => (t.writeEntry_reg x).trans h) ws s rfl

theorem State.writeAll_arb (s : State) (ws : List Staged) : (s.writeAll ws).arb = s.arb :=
  State.writeAll_keeps (P := fun t => t.arb = s.arb) (fun t x h => (t.writeEntry_arb x).trans h) ws s rfl

theorem State.writeAll_group (s : State) (ws : List Staged) : (s.writeAll ws).tables.group = s.tables.group :=
  State.writeAll_keeps (P := fun t => t.tables.group = s.tables.group) (fun t x h => (t.writeEntry_group x).trans h) ws s
    rfl

theorem State.writeAll_queue (s : State) (ws : List Staged) (f : FeedId) :
    (s.writeAll ws).feeds[f].queue = s.feeds[f].queue :=
  State.writeAll_keeps (P := fun t => t.feeds[f].queue = s.feeds[f].queue)
    (fun t x h => (t.writeEntry_queue x f).trans h) ws s rfl

/-! ### What a reset does -/

/-- A list of members changed one by one changes each of them once. -/
theorem foldl_set_getElem {α : Type} {n : Nat} (g : Fin n → α → α) (l : List (Fin n)) (hl : l.Nodup) (v : Vector α n)
    (j : Fin n) : (l.foldl (fun v i => v.set i (g i v[i])) v)[j] = if j ∈ l then g j v[j] else v[j] := by
  induction l generalizing v with
  | nil => simp
  | cons i l ih =>
    obtain ⟨hi, hl⟩ := List.nodup_cons.1 hl
    rw [List.foldl_cons, ih hl]
    by_cases hj : j = i
    · subst hj
      simp [hi]
    · have hne : i.val ≠ j.val := fun h => hj (Fin.ext h.symm)
      simp [hj, hne]

section
variable (w : Work)

theorem Work.resetFeeds_shape (keep : Bool) : ∃ fs, w.resetFeeds keep = { w with feeds := fs }
    ∧ ∀ f : FeedId, fs[f] = w.feeds[f].reset keep w.pins.sheetPresent[f] := by
  have hfold : ∀ (l : List FeedId) (x : Work), x.each (Work.resetFeed keep) l = { x with
      feeds := l.foldl (fun v (i : FeedId) => v.set i (v[i].reset keep x.pins.sheetPresent[i])) x.feeds } := by
    intro l
    induction l with
    | nil => exact fun _ => rfl
    | cons i l ih => exact fun x => ih _
  refine ⟨_, hfold _ _, fun f => ?_⟩
  rw [foldl_set_getElem (fun i r => FeedRec.reset r keep w.pins.sheetPresent[i]) _ (by decide), if_pos (by simp)]

theorem Work.resetPockets_shape (workOnly : Bool) : ∃ ps, w.resetPockets workOnly = { w with pockets := ps }
    ∧ ∀ p : PocketId, ps[p] = w.pockets[p].reset workOnly := by
  have hfold : ∀ (l : List PocketId) (x : Work), x.each (Work.resetPocket workOnly) l = { x with
      pockets := l.foldl (fun v (i : PocketId) => v.set i (v[i].reset workOnly)) x.pockets } := by
    intro l
    induction l with
    | nil => exact fun _ => rfl
    | cons i l ih => exact fun x => ih _
  refine ⟨_, hfold _ _, fun p => ?_⟩
  rw [foldl_set_getElem (fun _ r => PocketRec.reset r workOnly) _ (by decide), if_pos (by simp)]

theorem Work.resetBins_shape (workOnly : Bool) : ∃ bs, w.resetBins workOnly = { w with ret := { w.ret with bins := bs } }
    ∧ ∀ b : BinId, bs[b] = w.ret.bins[b].reset workOnly w.now := by
  have hfold : ∀ (l : List BinId) (x : Work), x.each (Work.resetBin workOnly) l = { x with ret := { x.ret with
      bins := l.foldl (fun v (i : BinId) => v.set i (v[i].reset workOnly x.now)) x.ret.bins } } := by
    intro l
    induction l with
    | nil => exact fun _ => rfl
    | cons i l ih => exact fun x => ih _
  refine ⟨_, hfold _ _, fun b => ?_⟩
  rw [foldl_set_getElem (fun _ r => BinRec.reset r workOnly w.now) _ (by decide), if_pos (by simp)]

/-- The state right after a reset's own effect, before its settling. -/
theorem Work.resetCommon_shape (kind : ResetKind) : ∃ fs ps bs, w.resetCommon kind = { w with
      reg := PackRegister.cleared
      arb := { w.arb with inFlight := [], aLast := w.now, blockTimer := none, pick := none }
      stapler := { w.stapler with state := .idle, queue := [], work := none, command := none }
      ret := { state := .idle, queue := [], delivery := none, command := none, bins := bs }
      tables := { w.tables with mark := none, group := none }
      run := { w.run with state := .starting kind false }
      feeds := fs
      pockets := ps }
    ∧ (∀ f : FeedId, fs[f] = w.feeds[f].reset (decide (kind = .work)) w.pins.sheetPresent[f])
    ∧ (∀ p : PocketId, ps[p] = w.pockets[p].reset (decide (kind = .work)))
    ∧ ∀ b : BinId, bs[b] = w.ret.bins[b].reset (decide (kind = .work)) w.now := by
  unfold Work.resetCommon
  dsimp only
  generalize hw1 : ({ w with
      reg := PackRegister.cleared
      arb := { w.arb with inFlight := [], aLast := w.now, blockTimer := none, pick := none }
      stapler := { w.stapler with state := .idle, queue := [], work := none, command := none }
      ret := { w.ret with state := .idle, queue := [], delivery := none, command := none }
      tables := { w.tables with mark := none, group := none }
      run := { w.run with state := .starting kind false } } : Work) = w1
  obtain ⟨fs, hf, hfs⟩ := w1.resetFeeds_shape (decide (kind = .work))
  rw [hf]
  obtain ⟨ps, hp, hps⟩ := Work.resetPockets_shape { w1 with feeds := fs } (decide (kind = .work))
  rw [hp]
  obtain ⟨bs, hb, hbs⟩ := Work.resetBins_shape { w1 with feeds := fs, pockets := ps } (decide (kind = .work))
  rw [hb]
  subst hw1
  exact ⟨fs, ps, bs, rfl, hfs, hps, hbs⟩

end

end Sys2Proof.Machine
end

section
/-! SUPPORT. The rules that every move and every first act keep, each by a case split over them: the settling of
`Obligations.OnlyWritesAndResetsChangeTheBanks`, `Obligations.LivePackKeepsItsAnnouncement`,
`Obligations.PackCountersKept`, `Obligations.FreeRecordsStayCleared`, `Obligations.ListBoundsKept` and
`Obligations.RangesKept`. -/

namespace Sys2Proof.Machine

/-! ### The banks -/

/-- The two have the same banks: the tables but for the mark and the group, and the bins' writable fields. -/
def Work.SameBanks (w v : Work) : Prop :=
  v.tables.banks = w.tables.banks ∧ ∀ b : BinId, v.ret.bins[b].writable = w.ret.bins[b].writable

theorem Course_sameBanks {ph : Phase} {w v : Work} (h : Course ph w v) : w.SameBanks v :=
  h.keeps (P := w.SameBanks) (fun _ _ _ hm h => ⟨(Move_banks hm).trans h.1, fun b => (Move_bins hm b).trans (h.2 b)⟩)
    ⟨rfl, fun _ => rfl⟩

theorem Work.acceptPack_fields (w : Work) (k : Handle) (r : PackRec) : ∃ m o, w.acceptPack k r = { w with
    reg := { w.reg with packs := Sparse.put PackRec.cleared w.reg.packs k r
                        queues := Sparse.put [] w.reg.queues r.cls (w.classQueue r.cls ++ [k])
                        serial := w.reg.serial + 1 }
    tables := { w.tables with mark := m }, occasion := o } := by
  unfold Work.acceptPack
  obtain ⟨m, o, h⟩ := w.setPack_shape k r
  obtain ⟨m', o', h'⟩ := (w.setPack k r).setClassQueue_shape r.cls ((w.setPack k r).classQueue r.cls ++ [k])
  dsimp only
  rw [h', h]
  exact ⟨m', o', rfl⟩

theorem Begins_sameBanks {c : Instr} {w u : Work} (h : c.Begins w u) (hw : c.writes = false)
    (hr : c.resets = none ∨ c.resets = some .work) : w.SameBanks u := by
  cases h with
  | plain => exact ⟨rfl, fun _ => rfl⟩
  | announced l j st cls pages b k =>
    obtain ⟨m, o, h⟩ := Work.acceptPack_fields { w with link := l } k (w.announcedRecord j st cls pages b)
    rw [h]
    exact ⟨rfl, fun _ => rfl⟩
  | wrote hc => rw [hw] at hc; cases hc
  | reset kind hc u hu =>
    obtain rfl : kind = .work := by rcases hr with hr | hr <;> rw [hr] at hc <;> cases hc; rfl
    obtain ⟨l, rfl⟩ := hu
    obtain ⟨fs, ps, bs, h, -, -, hb⟩ := Work.resetCommon_shape { w with link := l } .work
    rw [h]
    refine ⟨rfl, fun b => ?_⟩
    show bs[b].writable = _
    rw [hb b]
    rfl

/-! ### What becomes of a pack's record -/

theorem Begins_pack {c : Instr} {w u : Work} (h : c.Begins w u) (k : Handle) :
    Relation.ReflTransGen PackStep (w.pack k) (u.pack k)
      ∨ (w.pack k).state = .free ∧ (u.pack k).state = .announced ∧ (u.pack k).counted ∧ (u.pack k).gen = 0 := by
  cases h with
  | plain => exact .inl .refl
  | announced l j st cls pages b k' hc hfree hp hb =>
    obtain ⟨m, o, h⟩ := Work.acceptPack_fields { w with link := l } k' (w.announcedRecord j st cls pages b)
    rw [h]
    simp only [State.pack]
    by_cases hk : k = k'
    · subst hk
      rw [Sparse.get_put_self]
      exact .inr ⟨hfree, rfl, ⟨Nat.le_refl 0, Nat.zero_le _, fun _ => ⟨rfl, rfl⟩⟩, rfl⟩
    · rw [Sparse.get_put_ne _ _ _ hk]
      exact .inl .refl
  | wrote hc u ws hu hws =>
    refine .inl ?_
    have hreg : ((u.wrote ws).pack k) = u.pack k := by
      simp only [State.pack, Work.wrote, State.writeAll_reg]
    rw [hreg]
    refine hu.keeps (P := fun x => Relation.ReflTransGen PackStep (w.pack k) (x.pack k)) (fun x y hm hx => ?_) .refl
    rcases Move_pack hm k with e | hstep
    · rw [e]; exact hx
    · exact hx.tail hstep.step
  | reset kind hc u hu =>
    obtain ⟨fs, ps, bs, h, -, -, -⟩ := u.resetCommon_shape kind
    rw [h]
    exact .inl (.single (PackStep.cleared _))

theorem Course_pack {ph : Phase} {w v : Work} (h : Course ph w v) (k : Handle) : PackTrace (w.pack k) (v.pack k) := by
  refine h.keeps (P := fun x => PackTrace (w.pack k) (x.pack k)) (fun _ x y hm hx => ?_) .refl
  rcases Move_pack hm k with e | hstep
  · rw [e]; exact hx
  · exact hx.tail hstep.step

/-- What every command makes of a pack's record. -/
theorem exec_pack {c : Instr} {s t : State} (h : exec c s = .next t) (k : Handle) :
    PackTrace (s.pack k) (t.pack k)
      ∨ ∃ r : PackRec, (s.pack k).state = .free ∧ r.state = .announced ∧ r.counted ∧ r.gen = 0
        ∧ PackTrace r (t.pack k) := by
  obtain ⟨u, hu, hc⟩ := Deed_begins (exec_deed h)
  have hcourse := Course_pack hc k
  rcases Begins_pack hu k with h1 | ⟨h1, h2, h3, h4⟩
  · exact .inl (h1.trans hcourse)
  · exact .inr ⟨_, h1, h2, h3, h4, hcourse⟩

theorem PackTrace.kept {r r' : PackRec} (h : PackTrace r r') :
    r' = PackRec.cleared ∨ (r'.fixed = r.fixed ∧ r.gen ≤ r'.gen) := by
  induction h with
  | refl => exact .inr ⟨rfl, le_rfl⟩
  | tail _ hs ih =>
    rcases hs.kept with h | ⟨h1, h2⟩
    · exact .inl h
    · rcases ih with h | ⟨h3, h4⟩
      · exact .inl (hs.stays h)
      · exact .inr ⟨h1.trans h3, h4.trans h2⟩

theorem PackTrace.counted {r r' : PackRec} (h : PackTrace r r') (hr : r.counted) : r'.counted := by
  induction h with
  | refl => exact hr
  | tail _ hs ih => exact hs.counted ih

theorem PackTrace.freed {r r' : PackRec} (h : PackTrace r r') (hr : r.state = .free → r = PackRec.cleared)
    (hf : r'.state = .free) : r' = PackRec.cleared := by
  induction h with
  | refl => exact hr hf
  | tail _ hs ih =>
    rcases hs.freed hf with h | h
    · exact h
    · exact hs.stays (ih h)

/-! ### The lists' bounds -/

/-- The bounds of `State.listsBounded`. -/
def Work.ListsBounded (w : Work) : Prop := w.toState.listsBounded

theorem Move_listsBounded {ph : Phase} {w v : Work} (h : Move ph w v) (hw : w.ListsBounded) : v.ListsBounded := by
  obtain ⟨hf, hi, hm, hg⟩ := hw
  refine ⟨fun f => ?_, ?_, ?_, ?_⟩
  · exact (Move_feeds h f).elim (fun e => e.trans (hf f)) id
  · exact (Move_inFlight h).elim (fun e => e.trans hi) id
  · exact (Move_markers h).elim (fun e => e.trans hm) id
  · exact (Move_group h).elim (fun e => e ▸ hg) fun e => e.1

theorem Begins_listsBounded {c : Instr} {w u : Work} (h : c.Begins w u) (hw : w.ListsBounded) : u.ListsBounded := by
  cases h with
  | plain => exact hw
  | announced l j st cls pages b k =>
    obtain ⟨m, o, h⟩ := Work.acceptPack_fields { w with link := l } k (w.announcedRecord j st cls pages b)
    rw [h]
    exact hw
  | wrote hc u ws hu hws =>
    obtain ⟨hf, hi, hm, hg⟩ : u.ListsBounded := hu.keeps (fun _ _ h => Move_listsBounded h) hw
    refine ⟨fun f => ?_, ?_, ?_, ?_⟩
    · rw [Work.wrote, State.writeAll_queue]; exact hf f
    · rw [Work.wrote, State.writeAll_arb]; exact hi
    · rw [Work.wrote, State.writeAll_reg]; exact hm
    · rw [Work.wrote, State.writeAll_group]; exact hg
  | reset kind hc u hu =>
    obtain ⟨fs, ps, bs, h, hf, -, -⟩ := u.resetCommon_shape kind
    rw [h]
    refine ⟨fun f => ?_, Nat.zero_le _, Nat.zero_le _, Nat.zero_le _⟩
    show fs[f].queue.length ≤ _
    rw [hf f]
    exact Nat.zero_le _

/-! ### The quantities' ranges -/

theorem TableStore.settings_of_banks {t u : TableStore} (h : t.banks = u.banks) :
    t.settings = u.settings ∧ t.media = u.media ∧ t.travel = u.travel ∧ t.roster = u.roster
      ∧ t.classes = u.classes := by
  have h1 := congrArg TableStore.settings h
  have h2 := congrArg TableStore.media h
  have h3 := congrArg TableStore.travel h
  have h4 := congrArg TableStore.roster h
  have h5 := congrArg TableStore.classes h
  exact ⟨h1, h2, h3, h4, h5⟩

/-- The clauses of `State.inRange` about the banks. -/
def State.BanksInRange (s : State) : Prop :=
  s.tables.settings.clamp = s.tables.settings
    ∧ (∀ m : MediaId, clamp 40 600 s.tables.media[m] = s.tables.media[m])
    ∧ (∀ f : FeedId, clamp 300 6000 s.tables.travel[f] = s.tables.travel[f])
    ∧ ∀ b : BinId, clamp 100 1500 s.ret.bins[b].capacity = s.ret.bins[b].capacity

theorem State.inRange_iff (s : State) : s.inRange ↔ s.BanksInRange
    ∧ (∀ x ∈ s.tables.group.getD [], x.entry.clamp = x.entry) ∧ ∀ h : Handle, (s.pack h).gen ≤ 3 :=
  ⟨fun ⟨a, b, c, d, e, f⟩ => ⟨⟨a, b, c, d⟩, e, f⟩, fun ⟨⟨a, b, c, d⟩, e, f⟩ => ⟨a, b, c, d, e, f⟩⟩

theorem State.BanksInRange.writeEntry {s : State} {x : Staged} (h : s.BanksInRange) (hx : x.entry.clamp = x.entry) :
    (s.writeEntry x).BanksInRange := by
  obtain ⟨hs, hm, ht, hb⟩ := h
  unfold State.writeEntry
  split
  case h_4 m t _ he =>
    rw [he] at hx
    have hx : clamp 40 600 t = t := by simpa [Entry.clamp] using hx
    refine ⟨hs, fun j => ?_, ht, hb⟩
    simp only [Fin.getElem_fin, Vector.getElem_set]
    split
    · exact hx
    · exact hm j
  case h_5 f st travel _ he =>
    rw [he] at hx
    have hx : clamp 300 6000 travel = travel := by simpa [Entry.clamp] using hx
    refine ⟨hs, hm, fun j => ?_, hb⟩
    simp only [Fin.getElem_fin, Vector.getElem_set]
    split
    · exact hx
    · exact ht j
  case h_6 b cap ins mode _ he =>
    rw [he] at hx
    have hx : clamp 100 1500 cap = cap := by simpa [Entry.clamp] using hx
    refine ⟨hs, hm, ht, fun j => ?_⟩
    simp only [Fin.getElem_fin, Vector.getElem_set]
    split
    · exact hx
    · exact hb j
  case h_7 v _ he =>
    rw [he] at hx
    exact ⟨by simpa [Entry.clamp] using hx, hm, ht, hb⟩
  all_goals exact ⟨hs, hm, ht, hb⟩

theorem State.BanksInRange.writeAll {ws : List Staged} (hws : ∀ x ∈ ws, x.entry.clamp = x.entry) {s : State}
    (h : s.BanksInRange) : (s.writeAll ws).BanksInRange := by
  induction ws generalizing s with
  | nil => exact h
  | cons x ws ih =>
    exact ih (fun y hy => hws y (List.mem_cons_of_mem _ hy)) (h.writeEntry (hws x List.mem_cons_self))

theorem State.BanksInRange.of_same {w v : Work} (h : w.toState.BanksInRange) (hs : w.SameBanks v) :
    v.toState.BanksInRange := by
  obtain ⟨hset, hmedia, htravel, hbin⟩ := h
  obtain ⟨e1, e2, e3, -⟩ := TableStore.settings_of_banks hs.1
  refine ⟨by rw [e1]; exact hset, by rw [e2]; exact hmedia, by rw [e3]; exact htravel, fun b => ?_⟩
  have hcap := congrArg Prod.fst (hs.2 b)
  simp only [BinRec.writable] at hcap
  rw [hcap]
  exact hbin b

theorem restartLimit_le {v : Settings} (h : v.clamp = v) : v.restartLimit ≤ 3 := by
  have hr := congrArg Settings.restartLimit h
  rw [← hr]
  exact (clamp_bounds (by decide) _).2

theorem Move_inRange {ph : Phase} {w v : Work} (h : Move ph w v) (hw : w.toState.inRange) : v.toState.inRange := by
  rw [State.inRange_iff] at hw ⊢
  obtain ⟨hb, hg, hgen⟩ := hw
  refine ⟨hb.of_same ⟨Move_banks h, Move_bins h⟩, ?_, fun k => ?_⟩
  · exact (Move_group h).elim (fun e => e ▸ hg) fun e => e.2 hg
  · rcases Move_pack h k with e | hp
    · rw [e]; exact hgen k
    · exact hp.gen.elim (fun e => e.trans (hgen k)) fun e => e.trans (restartLimit_le hb.1)

theorem Begins_inRange {c : Instr} {w u : Work} (h : c.Begins w u) (hw : w.toState.inRange) : u.toState.inRange := by
  have hw' := hw
  rw [State.inRange_iff] at hw ⊢
  obtain ⟨hb, hg, hgen⟩ := hw
  cases h with
  | plain => exact ⟨hb, hg, hgen⟩
  | announced l j st cls pages b k hc hfree hp hbud =>
    obtain ⟨m, o, h⟩ := Work.acceptPack_fields { w with link := l } k (w.announcedRecord j st cls pages b)
    rw [h]
    refine ⟨hb, hg, fun i => ?_⟩
    simp only [State.pack]
    by_cases hi : i = k
    · subst hi
      rw [Sparse.get_put_self]
      exact Nat.zero_le _
    · rw [Sparse.get_put_ne _ _ _ hi]
      exact hgen i
  | wrote hc u ws hu hws =>
    have hu' := hu.keeps (P := fun x => x.toState.inRange) (fun _ _ h => Move_inRange h) hw'
    rw [State.inRange_iff] at hu'
    obtain ⟨hub, hug, hugen⟩ := hu'
    refine ⟨hub.writeAll (hws hg), ?_, fun k => ?_⟩
    · rw [Work.wrote, State.writeAll_group]; exact hug
    · simp only [State.pack, Work.wrote, State.writeAll_reg]; exact hugen k
  | reset kind hc u hu =>
    obtain ⟨fs, ps, bs, h, -, -, hbs⟩ := u.resetCommon_shape kind
    rw [h]
    refine ⟨?_, by simp, fun k => Nat.zero_le _⟩
    have hdefault : TableStore.default.settings.clamp = TableStore.default.settings
        ∧ (∀ m : MediaId, clamp 40 600 TableStore.default.media[m] = TableStore.default.media[m])
        ∧ ∀ f : FeedId, clamp 300 6000 TableStore.default.travel[f] = TableStore.default.travel[f] := by decide
    have hcap : ∀ b : BinId, clamp 100 1500 bs[b].capacity = bs[b].capacity := by
      intro b
      rw [hbs b]
      by_cases hk : kind = .work
      · subst hk
        obtain ⟨l, rfl⟩ := hu
        exact hb.2.2.2 b
      · rw [decide_eq_false hk]
        rfl
    have htables : u.tables.settings.clamp = u.tables.settings
        ∧ (∀ m : MediaId, clamp 40 600 u.tables.media[m] = u.tables.media[m])
        ∧ ∀ f : FeedId, clamp 300 6000 u.tables.travel[f] = u.tables.travel[f] := by
      cases kind
      case work => obtain ⟨l, rfl⟩ := hu; exact ⟨hb.1, hb.2.1, hb.2.2.1⟩
      all_goals
        obtain ⟨now, l, straps, gate, rfl⟩ := hu
        exact hdefault
    exact ⟨htables.1, htables.2.1, htables.2.2, hcap⟩

/-! ### The canonical form -/

theorem Move_canonicalState {ph : Phase} {w v : Work} (h : Move ph w v) (hw : w.toState.canonical) :
    v.toState.canonical := by
  obtain ⟨hp, hq, hr⟩ := hw
  obtain ⟨hp', hq'⟩ := Move_canonical h hp hq
  obtain ⟨-, -, -, e, -⟩ := TableStore.settings_of_banks (Move_banks h)
  exact ⟨hp', hq', by rw [e]; exact hr⟩

theorem Begins_canonical {c : Instr} {w u : Work} (h : c.Begins w u) (hw : w.toState.canonical) :
    u.toState.canonical := by
  cases h with
  | plain => exact hw
  | announced l j st cls pages b k =>
    obtain ⟨hp, hq, hr⟩ := hw
    obtain ⟨m, o, h⟩ := Work.acceptPack_fields { w with link := l } k (w.announcedRecord j st cls pages b)
    rw [h]
    refine ⟨?_, ?_, hr⟩
    · exact Sparse.put_wf PackRec.cleared w.reg.packs k (w.announcedRecord j st cls pages b) hp
    · exact Sparse.put_wf [] w.reg.queues _ _ hq
  | wrote hc u ws hu hws =>
    obtain ⟨hp, hq, hr⟩ := hu.keeps (P := fun x => x.toState.canonical) (fun _ _ h => Move_canonicalState h) hw
    refine ⟨?_, ?_, ?_⟩
    · rw [Work.wrote, State.writeAll_reg]; exact hp
    · rw [Work.wrote, State.writeAll_reg]; exact hq
    · exact State.writeAll_keeps (P := fun t => Sparse.wf none t.tables.roster = true)
        (fun t x h => t.writeEntry_roster x h) ws _ hr
  | reset kind hc u hu =>
    obtain ⟨fs, ps, bs, h, -, -, -⟩ := u.resetCommon_shape kind
    rw [h]
    refine ⟨rfl, rfl, ?_⟩
    show Sparse.wf none u.tables.roster = true
    cases kind
    case work => obtain ⟨l, rfl⟩ := hu; exact hw.2.2
    all_goals
      obtain ⟨now, l, straps, gate, rfl⟩ := hu
      rfl

end Sys2Proof.Machine

namespace Sys2Proof.Proofs

open Sys2Proof.Machine

/-- Settles O4: moves keep the banks, and of the first acts only a write and a reset to defaults change them. -/
theorem onlyWritesAndResetsChangeTheBanks : Obligations.OnlyWritesAndResetsChangeTheBanks := by
  unfold Obligations.OnlyWritesAndResetsChangeTheBanks
  intro c s t h htw hmw hgc hpo hrp hra
  obtain ⟨u, hu, hc⟩ := Deed_begins (exec_deed h)
  have hwrites : c.writes = false := by
    cases c
    case tableWrite => exact absurd rfl (htw _ _ _ _)
    case markedWrite => exact absurd rfl (hmw _ _ _ _)
    case groupClose => exact absurd rfl (hgc _)
    all_goals rfl
  have hresets : c.resets = none ∨ c.resets = some .work := by
    cases c
    case powerOn x => exact absurd rfl (hpo x)
    case resetPin x => exact absurd rfl (hrp x)
    case resetAll b a => exact absurd rfl (hra b a)
    case resetWork => exact .inr rfl
    all_goals exact .inl rfl
  obtain ⟨hut, hub⟩ := Begins_sameBanks hu hwrites hresets
  obtain ⟨htt, htb⟩ := Course_sameBanks hc
  have htables : t.tables.banks = s.tables.banks := htt.trans hut
  refine ⟨?_, fun b => ?_⟩
  · have h := congrArg (fun x : TableStore => { x with mark := t.tables.mark, group := t.tables.group }) htables
    exact h
  · have hb : t.ret.bins[b].writable = s.ret.bins[b].writable := (htb b).trans (hub b)
    simpa only [BinRec.writable, Prod.mk.injEq] using hb

/-- Settles O9: every change of a pack's record clears it or keeps what its announcement fixed. -/
theorem livePackKeepsItsAnnouncement : Obligations.LivePackKeepsItsAnnouncement := by
  unfold Obligations.LivePackKeepsItsAnnouncement
  intro s t h k hlive
  rcases step_exec h with ⟨c, q, n, h⟩ | rfl
  · rcases exec_pack h k with htrace | ⟨r, hfree, -⟩
    · exact htrace.kept
    · exact absurd hfree hlive
  · exact .inr ⟨rfl, le_rfl⟩

/-- Settles O12: an announcement's counters are 0, and every other change keeps them sound. -/
theorem packCountersKept : Obligations.PackCountersKept := by
  unfold Obligations.PackCountersKept
  intro s t hs h
  refine step_keeps (P := State.packsCounted) (fun _ _ h => h) (fun _ h => h) (fun _ h => h) (fun c s t h hs k => ?_) h hs
  rcases exec_pack h k with htrace | ⟨r, -, -, hc, -, htrace⟩
  · exact htrace.counted (hs k)
  · exact htrace.counted hc

/-- Settles O13: a record goes FREE by being cleared alone, and the sparse tables are changed by `Sparse.put`. -/
theorem freeRecordsStayCleared : Obligations.FreeRecordsStayCleared := by
  unfold Obligations.FreeRecordsStayCleared
  intro s t h
  constructor
  · intro hs
    refine step_keeps (P := State.freeCleared) (fun _ _ h => h) (fun _ h => h) (fun _ h => h)
      (fun c s t h hs k hk => ?_) h hs
    rcases exec_pack h k with htrace | ⟨r, -, ha, -, -, htrace⟩
    · exact htrace.freed (hs k) hk
    · exact htrace.freed (by simp [ha]) hk
  · exact step_invariant (P := fun w => w.toState.canonical) (fun _ _ _ => Move_canonicalState)
      (fun _ _ _ => Begins_canonical) (fun _ h => h) h

/-- Settles O14: a list grows by a step that has found room for its member, and is emptied by a reset. -/
theorem listBoundsKept : Obligations.ListBoundsKept := by
  unfold Obligations.ListBoundsKept
  intro s t hs h
  exact step_invariant (P := Work.ListsBounded) (fun _ _ _ => Move_listsBounded) (fun _ _ _ => Begins_listsBounded)
    (fun _ h => h) h hs

/-- Settles O15: what is written has been clamped, and a generation rises below RESTART_LIMIT alone. -/
theorem rangesKept : Obligations.RangesKept := by
  unfold Obligations.RangesKept
  intro s t hs h
  exact step_invariant (P := fun w => w.toState.inRange) (fun _ _ _ => Move_inRange) (fun _ _ _ => Begins_inRange)
    (fun _ h => h) h hs

end Sys2Proof.Proofs
end

section
/-! SUPPORT. What a reset and its settling come to: with no pack, nothing queued and nothing under way the settling starts
the pending purges, ends a start-up that has none, and drives the lamps (`Work.settle_blank`). -/

namespace Sys2Proof.Machine

/-! ### A block with no work -/

/-- No pack, nothing queued, staged or under way, no timer running, no mark, and no release to decide: what a reset
leaves. -/
structure Work.Blank (w : Work) : Prop where
  packs : w.reg.packs = []
  staples : w.stapler.queue = []
  work : w.stapler.work = none
  queue : w.ret.queue = []
  delivery : w.ret.delivery = none
  waits : ∀ f : FeedId, w.feeds[f].wait = none ∧ w.feeds[f].queue = []
  timer : w.arb.blockTimer = none
  occasion : w.occasion = false
  mark : w.tables.mark = none
  rests : w.releasing = false
  standing : ∀ o, w.run.state ≠ .stopping o

theorem State.live_of_no_packs {s : State} (h : s.reg.packs = []) : s.live = [] := by simp [State.live, h]

section
variable {w : Work} (h : w.Blank)
include h

theorem Work.Blank.live : w.live = [] := State.live_of_no_packs h.packs

theorem Work.Blank.judge : w.judge = w := by
  have hr : { w.ret with queue := w.ret.queue ++ [] } = w.ret := by rw [List.append_nil]
  unfold Work.judge
  rw [h.live]
  exact congrArg (fun r => w.setRet r) hr

theorem Work.Blank.staple : w.staple = w := by
  unfold Work.staple Work.takeUp
  rw [h.staples]

theorem Work.Blank.startDelivery : w.startDelivery = w := by
  unfold Work.startDelivery
  rw [h.queue]
  split <;> rfl

theorem Work.Blank.endStopping : w.endStopping = w := by
  unfold Work.endStopping
  split
  next o ho => exact absurd ho (h.standing o)
  · rfl

theorem Work.Blank.decideReleases : w.decideReleases = w := by
  unfold Work.decideReleases
  rw [h.occasion]
  rfl

theorem Work.Blank.timeWait (f : FeedId) : w.timeWait f = w := by
  have hhold : w.waitHolds f = false := by
    have hrun : w.run.state ≠ .run := fun e => by
      have := h.rests
      simp [State.releasing, e] at this
    simp [State.waitHolds, hrun]
  unfold Work.timeWait
  dsimp only
  rw [hhold, if_pos]
  exact (h.waits f).1.symm

theorem Work.Blank.timeWaits : w.timeWaits = w := by
  unfold Work.timeWaits Work.each
  induction allFeeds with
  | nil => rfl
  | cons f l ih => rw [List.foldl_cons, h.timeWait f, ih]

theorem Work.Blank.timeBlock : w.timeBlock = w := by
  have hwaits : w.mergeWaits = false := by
    have hc : ∀ f, w.candidate f = false := fun f => by simp [State.candidate, h.rests]
    simp [State.mergeWaits, hc]
  have ht : { w.arb with blockTimer := none } = w.arb := by rw [← h.timer]
  unfold Work.timeBlock
  rw [State.blockHolds, hwaits]
  exact congrArg (fun r => w.setArb r) ht

theorem Work.Blank.judgeBinFull (b : State) : w.judgeBinFull b = w := by
  unfold Work.judgeBinFull
  simp [State.waitingPacks, h.live]

end

/-! ### The lamps -/

/-- The lamps driven change what the lamps show alone. -/
theorem Work.driveLamps_shape (w : Work) : ∃ bs, w.driveLamps = { w with ret := { w.ret with bins := bs } } := by
  unfold Work.driveLamps
  generalize allBins = l
  induction l generalizing w with
  | nil => exact ⟨_, rfl⟩
  | cons b l ih =>
    have hone : ∃ bs, w.driveLamp b = { w with ret := { w.ret with bins := bs } } := by
      unfold Work.driveLamp
      dsimp only
      split
      · exact ⟨_, rfl⟩
      · exact ⟨_, rfl⟩
    obtain ⟨bs, hbs⟩ := hone
    obtain ⟨bs', hbs'⟩ := ih (w.driveLamp b)
    exact ⟨bs', hbs'.trans (by rw [hbs])⟩

theorem Work.driveLamps_of_follow {w : Work} (h : w.lampsFollow) : w.driveLamps = w := by
  unfold Work.driveLamps Work.each
  induction allBins with
  | nil => rfl
  | cons b l ih =>
    have hb : w.driveLamp b = w := by
      unfold Work.driveLamp
      rw [if_pos (h b)]
    rw [List.foldl_cons, hb, ih]

/-! ### The purges of a start-up -/

/-- A pocket's record once its purge may start: running from `now` where it was pending. -/
def PocketRec.started (r : PocketRec) (now : Time) (allowance : Nat) : PocketRec :=
  if r.state = .purging ∧ r.purge = .pending then
    { r with purge := .running, offset := false, purgeStart := now, purgeAllowance := allowance }
  else r

theorem PocketRec.started_state (r : PocketRec) (now : Time) (a : Nat) : (r.started now a).state = r.state := by
  unfold PocketRec.started
  split <;> rfl

theorem Work.startPurge_blank {w : Work} (hm : w.tables.mark = none) (hh : w.halted = false)
    (hk : w.stapler.work = none) (p : PocketId) : w.startPurge p =
      { w with pockets := w.pockets.set p (w.pockets[p].started w.now w.tables.settings.mechTimeout) } := by
  unfold Work.startPurge PocketRec.started
  have hop : w.operationOn p = false := by simp [State.operationOn, hk]
  dsimp only
  by_cases hc : w.pockets[p].state = .purging ∧ w.pockets[p].purge = .pending
  · rw [if_pos hc, if_pos (by rw [hc.1, hc.2, hh, hop]; rfl)]
    unfold Work.setPocket Work.touchIf Work.touch Work.occasionIf
    dsimp only
    rw [hm, if_neg (by simp : ¬(none : Option EntryRef) = some (.pocket p))]
    rw [hc.1]
    simp
  · rw [if_neg hc, if_neg (by simpa [hh, hop] using hc)]
    simp

theorem Work.startPurges_blank {w : Work} (hm : w.tables.mark = none) (hh : w.halted = false)
    (hk : w.stapler.work = none) : ∃ ps, w.startPurges = { w with pockets := ps }
      ∧ ∀ p : PocketId, ps[p] = w.pockets[p].started w.now w.tables.settings.mechTimeout := by
  have hfold : ∀ (l : List PocketId) (v : Vector PocketRec 8), ({ w with pockets := v } : Work).each Work.startPurge l
      = { w with pockets := l.foldl (fun v (i : PocketId) => v.set i
          (v[i].started w.now w.tables.settings.mechTimeout)) v } := by
    intro l
    induction l with
    | nil => exact fun _ => rfl
    | cons i l ih =>
      intro v
      have hone := Work.startPurge_blank (w := { w with pockets := v }) hm hh hk i
      show (({ w with pockets := v } : Work).startPurge i).each Work.startPurge l = _
      rw [hone]
      exact ih _
  refine ⟨_, hfold allPockets w.pockets, fun p => ?_⟩
  rw [foldl_set_getElem (fun _ r => PocketRec.started r w.now w.tables.settings.mechTimeout) allPockets (by decide), if_pos (by simp)]

/-! ### The settling of a block with no work -/

/-- With no work the settling starts the purges, ends the start-up where it may end, and drives the lamps. -/
theorem Work.settle_blank {w : Work} (h : w.startPurges.endStartUp.Blank) (b : State) :
    w.settle b = w.startPurges.endStartUp.driveLamps := by
  unfold Work.settle
  dsimp only
  rw [h.judge, h.staple, h.startDelivery, h.endStopping, h.decideReleases, h.timeWaits, h.timeBlock, h.judgeBinFull]

theorem State.anyPurging_iff {s : State} : s.anyPurging = true ↔ ∃ p : PocketId, s.pockets[p].state = .purging := by
  unfold State.anyPurging
  rw [List.any_eq_true]
  constructor
  · rintro ⟨p, -, hp⟩; exact ⟨p, by simpa using hp⟩
  · rintro ⟨p, hp⟩
    exact ⟨p, mem_allPockets p, by simpa using hp⟩

/-! ### Power-on, the RESET pin and RESET ALL -/

theorem BinRec.reset_lamp (r : BinRec) (now : Time) : r.reset false now = BinRec.default now := rfl

theorem PocketRec.reset_started (r : PocketRec) (now : Time) (a : Nat) :
    (r.reset false).started now a = PocketRec.startUp now a := by
  simp [PocketRec.started, PocketRec.reset, PocketRec.startUp]

/-- What a reset to the defaults and its settling leave. -/
theorem Work.settle_cold (s : State) {kind : ResetKind} (hk : kind ≠ .work) (now : Time) (l : LinkPort)
    (straps : Straps) (gate : Gate) (b : State) :
    (((Work.of s).defaulted now l straps gate).resetCommon kind).settle b
      = Work.of (s.startedUp now gate kind straps l) := by
  obtain ⟨fs, ps, bs, hu, hfs, hps, hbs⟩ := ((Work.of s).defaulted now l straps gate).resetCommon_shape kind
  rw [decide_eq_false hk] at hfs hps hbs
  generalize ((Work.of s).defaulted now l straps gate).resetCommon kind = v at hu
  obtain ⟨ps', hp, hps'⟩ := Work.startPurges_blank (w := v) (by rw [hu]) (by rw [hu]; rfl) (by rw [hu])
  have hstarted : ∀ p : PocketId, ps'[p] = PocketRec.startUp now 4000 := by
    intro p
    rw [hps' p, hu]
    show ps[p].started now 4000 = _
    rw [hps p]
    exact PocketRec.reset_started _ _ _
  have hpurge : (v.startPurges).anyPurging = true := by
    refine State.anyPurging_iff.2 ⟨0, ?_⟩
    rw [hp]
    exact congrArg PocketRec.state (hstarted 0)
  have hend : v.startPurges.endStartUp = v.startPurges := by
    unfold Work.endStartUp
    split
    · rw [if_pos hpurge]
    · rfl
  have hfeeds : fs = Vector.ofFn fun f : FeedId =>
      { state := .offline, queue := [], shelf := shelfOf s.pins.sheetPresent[f], wait := none, discard := false } := by
    refine Vector.ext fun i hi => ?_
    rw [Vector.getElem_ofFn]
    exact hfs ⟨i, hi⟩
  have hpockets : ps' = Vector.replicate 8 (PocketRec.startUp now 4000) := by
    refine Vector.ext fun i hi => ?_
    rw [Vector.getElem_replicate]
    exact hstarted ⟨i, hi⟩
  have hbins : bs = Vector.replicate 24 (BinRec.default now) := by
    refine Vector.ext fun i hi => ?_
    rw [Vector.getElem_replicate]
    exact hbs ⟨i, hi⟩
  have hblank : v.startPurges.endStartUp.Blank := by
    rw [hend, hp, hu]
    exact {
      packs := rfl, staples := rfl, work := rfl, queue := rfl, delivery := rfl
      waits := fun f => by
        show fs[f].wait = none ∧ fs[f].queue = []
        rw [hfs f]
        exact ⟨rfl, rfl⟩
      timer := rfl, occasion := rfl, mark := rfl, rests := rfl
      standing := fun o => by simp }
  rw [Work.settle_blank hblank, Work.driveLamps_of_follow, hend, hp, hu, hfeeds, hpockets, hbins]
  · rfl
  · intro c
    have hlive : v.startPurges.endStartUp.live = [] := hblank.live
    have hret : v.startPurges.endStartUp.ret.bins[c] = BinRec.default now := by
      rw [hend, hp, hu]
      exact hbs c
    unfold State.lampShow
    rw [hret, hlive]
    rfl

end Sys2Proof.Machine
end

section
/-! SUPPORT. The end of a step in full (`Work.finish_order`), a record taken (`exec_taken`), and the resets: the settling of
`Obligations.ColdResetsRestart`. -/

namespace Sys2Proof.Machine

/-! ### A record taken -/

/-- A record taken with a Result to come has its command's effect on the state it was taken from (R167, R171, R175). -/
theorem handleRecord_takesOwn {s : State} {r : Record} (h : s.takesOwn r) (body : Work → Work) :
    s.takeRecord r body = (body (Work.of (s.taken r))).finish := by
  obtain ⟨ht, hb, hl⟩ := h
  rw [State.takeRecord_taken body ht]
  congr 1
  unfold handleRecord
  rw [if_neg, if_neg (by simp [hb]), if_neg (by simp [hb])]
  simpa using hl

theorem exec_taken {c : Instr} {s : State} (h : s.takesCommand c) :
    exec c s = .next (c.effect (Work.of (s.takenFor c))).finish := by
  cases hr : recordOf c with
  | none => rw [State.takesCommand, hr] at h; exact h.elim
  | some r =>
    rw [State.takesCommand, hr] at h
    rw [exec_record hr, handleRecord_takesOwn h, State.takenFor, hr]

/-- The state a command's record was taken from differs in the Link Port alone. -/
theorem State.takenFor_eq (s : State) (c : Instr) : s.takenFor c = { s with link := (s.takenFor c).link } := by
  unfold State.takenFor
  split
  · rfl
  · exact s.taken_eq_withLink _

section
variable (s : State) (r : Record)

theorem State.taken_outbound : (s.taken r).link.outbound = s.link.outbound := by
  unfold State.taken
  split
  · simp only [State.dequeue]
    rw [LinkPort.judgeTake_eq]
  · simp

theorem State.taken_held : (s.taken r).link.held = s.link.held := by
  unfold State.taken
  split
  · simp only [State.dequeue]
    rw [LinkPort.judgeTake_eq]
  · simp

theorem State.taken_sending : (s.taken r).link.sending = s.link.sending := by
  unfold State.taken
  split
  · simp only [State.dequeue]
    rw [LinkPort.judgeTake_eq]
  · simp

end

/-! ### The records queued at the end of a step -/

theorem Work.keepOpt_told (w : Work) (o : Option OutRecord) : (w.keepOpt o).told = w.told ++ o.toList := by
  cases o with
  | none => simp [Work.keepOpt]
  | some r => exact LinkPort.keep_order w.link r

theorem Work.keepDrains_told_eq (w : Work) : w.keepDrains.told = w.told ++ w.drains.map OutRecord.drainComplete := by
  have hfold : ∀ (l : List Byte) (x : Work), (l.foldl (fun x id => x.keepOpt (some (.drainComplete id))) x).told
      = x.told ++ l.map OutRecord.drainComplete := by
    intro l
    induction l with
    | nil => exact fun x => (List.append_nil _).symm
    | cons i l ih =>
      intro x
      rw [List.foldl_cons, ih, Work.keepOpt_told]
      simp
  exact hfold _ w

theorem Work.keepOpt_shape (w : Work) (o : Option OutRecord) : ∃ l, w.keepOpt o = { w with link := l } := by
  cases o
  · exact ⟨_, rfl⟩
  · exact ⟨_, rfl⟩

theorem Work.keepDrains_shape (w : Work) : ∃ l, w.keepDrains = { w with link := l } := by
  have hfold : ∀ (l : List Byte) (x : Work), ∃ k,
      l.foldl (fun x id => x.keepOpt (some (.drainComplete id))) x = { x with link := k } := by
    intro l
    induction l with
    | nil => exact fun _ => ⟨_, rfl⟩
    | cons i l ih =>
      intro x
      obtain ⟨k, hk⟩ := ih (x.keepOpt (some (.drainComplete i)))
      exact ⟨k, hk⟩
  exact hfold _ w

/-- What the end of a step queues: event notices, then the Result, the Drain Completes and the Start Report (R172,
R173, R180, R190). -/
theorem Work.finish_order {w : Work} (hn : w.nonNotices = []) : ∃ x, (∀ o ∈ x, OutRecord.isNotice o = true)
    ∧ w.finish.told = w.told ++ x ++ (w.reply.map Reply.record).toList ++ w.drains.map OutRecord.drainComplete
      ++ (w.report.map Report.record).toList := by
  obtain ⟨x, hx, hxn⟩ : w.toState.addsNotices w.sendNotices.judgeAttention.toState :=
    (Work.foldNotices_addsNotices _ w (Work.nonNotices_eq_nil.1 hn)).trans (Work.judgeAttention_addsNotices _)
  have hdrains : w.sendNotices.judgeAttention.drains = w.drains :=
    (w.sendNotices_ends.trans (Work.judgeAttention_ends _)).rest.2.1
  refine ⟨x, hxn, ?_⟩
  have hfin : w.finish.told = w.queued.told := by simp [State.told, Work.finish]
  rw [hfin, Work.queued, Work.keepOpt_told, Work.keepDrains_told_eq, Work.keepOpt_told, (Work.keepOpt_ends _ _).rest.2.1,
    hdrains, hx]

/-- A step that formed no notice and leaves ATTENTION following the latches queues its Result, its Drain Completes and its
Start Report, and changes the Link Port alone besides. -/
theorem Work.finish_quiet {w : Work} (hn : w.notices = []) (hf : w.attentionFollows) :
    w.finish = { w.toState with link := w.finish.link }
    ∧ w.finish.told = w.told ++ (w.reply.map Reply.record).toList ++ w.drains.map OutRecord.drainComplete
      ++ (w.report.map Report.record).toList := by
  have hsend : w.sendNotices.judgeAttention = w := by
    unfold Work.sendNotices
    rw [hn]
    exact Work.judgeAttention_of_follows hf
  constructor
  · obtain ⟨l1, h1⟩ := w.keepOpt_shape (w.reply.map Reply.record)
    obtain ⟨l2, h2⟩ := Work.keepDrains_shape { w with link := l1 }
    obtain ⟨l3, h3⟩ := Work.keepOpt_shape { w with link := l2 } (w.report.map Report.record)
    have hq : w.queued = { w with link := l3 } := by
      rw [Work.queued, hsend, h1, h2]
      exact h3
    rw [Work.finish, hq]
  · have hfin : w.finish.told = w.queued.told := by simp [State.told, Work.finish]
    rw [hfin, Work.queued, hsend, Work.keepOpt_told, Work.keepDrains_told_eq, Work.keepOpt_told,
      (Work.keepOpt_ends _ _).rest.2.1]

/-! ### The defaults restored -/

theorem LinkPort.cleared_boundary (n : Nat) :
    ({ LinkPort.cleared with boundaries := n } : LinkPort).boundary = { LinkPort.cleared with boundaries := n } := rfl

section
variable (l : LinkPort)

theorem LinkPort.resetAll_outbound : l.resetAll.outbound = if l.sending = none then [] else l.outbound.take 1 := by
  unfold LinkPort.resetAll
  cases l.sending <;> (dsimp only; split <;> rfl)

@[simp] theorem LinkPort.resetAll_held : l.resetAll.held = [] := by
  unfold LinkPort.resetAll
  dsimp only
  split <;> rfl

@[simp] theorem LinkPort.resetAll_receiver : l.resetAll.receiver = .waiting := by
  unfold LinkPort.resetAll
  dsimp only
  split <;> rfl

@[simp] theorem LinkPort.resetAll_inbound : l.resetAll.inbound = [] := by
  unfold LinkPort.resetAll
  dsimp only
  split <;> rfl

@[simp] theorem LinkPort.resetAll_loopback : l.resetAll.loopback = false := by
  unfold LinkPort.resetAll
  dsimp only
  split <;> rfl

@[simp] theorem LinkPort.resetAll_echoes : l.resetAll.echoes = [] := by
  unfold LinkPort.resetAll
  dsimp only
  split <;> rfl

@[simp] theorem LinkPort.resetAll_hold : l.resetAll.hold = false := by
  unfold LinkPort.resetAll
  dsimp only
  split
  · rfl
  · next h => simpa using h

@[simp] theorem LinkPort.keep_receiver (r : OutRecord) : (l.keep r).receiver = l.receiver :=
  (l.keep_queues r).receiver
@[simp] theorem LinkPort.keep_inbound (r : OutRecord) : (l.keep r).inbound = l.inbound := (l.keep_queues r).inbound
@[simp] theorem LinkPort.keep_hold (r : OutRecord) : (l.keep r).hold = l.hold := (l.keep_queues r).hold
@[simp] theorem LinkPort.keep_pacing (r : OutRecord) : (l.keep r).pacing = l.pacing := (l.keep_queues r).pacing
@[simp] theorem LinkPort.keep_loopback (r : OutRecord) : (l.keep r).loopback = l.loopback :=
  (l.keep_queues r).loopback
@[simp] theorem LinkPort.keep_echoes (r : OutRecord) : (l.keep r).echoes = l.echoes := (l.keep_queues r).echoes

end

/-- After a reset to the defaults no latch is set, and the output follows. -/
theorem State.startedUp_follows (s : State) (now : Time) (g : Gate) (k : ResetKind) (straps : Straps) (l : LinkPort) :
    (s.startedUp now g k straps l).attentionFollows := by
  have h : ∀ (m : Vector Bool 15), (allCauses.any fun c =>
      (Vector.replicate 15 false)[causeIndex c] && !m[causeIndex c]) = false := by
    intro m
    rw [List.any_eq_false]
    intro c _
    simp
  exact (h _).symm

end Sys2Proof.Machine

namespace Sys2Proof.Proofs

open Sys2Proof.Machine

/-- Settles O20: the three resets restore the defaults and their settling starts the purges alone. -/
theorem coldResetsRestart : Obligations.ColdResetsRestart := by
  unfold Obligations.ColdResetsRestart
  intro s
  dsimp only
  have hquiet (now : Time) (kind : ResetKind) (straps : Straps) :
      (Work.of (s.startedUp now .reject kind straps { LinkPort.cleared with boundaries := s.link.boundaries })).finish
        = s.startedUp now .reject kind straps { LinkPort.cleared with boundaries := s.link.boundaries } := by
    have hj := Work.judgeAttention_of_follows (w := Work.of (s.startedUp now .reject kind straps
      { LinkPort.cleared with boundaries := s.link.boundaries })) (s.startedUp_follows _ _ _ _ _)
    have hq : (Work.of (s.startedUp now .reject kind straps
        { LinkPort.cleared with boundaries := s.link.boundaries })).queued = _ := hj
    rw [Work.finish, hq]
    rfl
  refine ⟨fun straps => ?powerOn, fun straps => ?pin, fun a ht => ?all⟩
  case powerOn =>
    rw [exec_event rfl, if_pos (show Instr.comes s (.powerOn straps) = true from rfl)]
    refine congrArg Host.Outcome.next (Eq.trans (congrArg Work.finish ?_) (hquiet 0 .powerOn straps))
    exact Work.settle_cold s (by decide) 0 _ straps .reject s
  case pin =>
    rw [exec_event rfl, if_pos (show Instr.comes s (.resetPin straps) = true from rfl)]
    refine congrArg Host.Outcome.next (Eq.trans (congrArg Work.finish ?_) (hquiet s.now .pin straps))
    exact Work.settle_cold s (by decide) s.now _ straps .reject s
  case all =>
    obtain ⟨k, hk, hout, hsend⟩ : ∃ k : LinkPort, s.takenFor (.resetAll false a) = { s with link := k }
        ∧ k.outbound = s.link.outbound ∧ k.sending = s.link.sending :=
      ⟨_, s.taken_eq_withLink _, s.taken_outbound _, s.taken_sending _⟩
    have heffect : Instr.effect (.resetAll false a) (Work.of { s with link := k })
        = (Work.of (s.startedUp s.now s.arb.gate .all s.run.straps k.resetAll)).answer kindControl .accepted :=
      congrArg (fun w => Work.answer w kindControl .accepted)
        (Work.settle_cold { s with link := k } (by decide) s.now k.resetAll s.run.straps s.arb.gate _)
    refine ⟨_, exec_taken ht, ?_⟩
    rw [hk, heffect, Work.finish_answer (s.startedUp_follows _ _ _ _ _)]
    have hlink : (s.startedUp s.now s.arb.gate .all s.run.straps k.resetAll).link = k.resetAll := rfl
    refine ⟨rfl, ?_, ?_, ?_, ?_, ?_, ?_⟩
    · simp only [State.told, LinkPort.boundary_outbound, LinkPort.boundary_held, LinkPort.keep_order, hlink,
        LinkPort.resetAll_outbound, LinkPort.resetAll_held, hout, hsend, List.append_nil]
    all_goals simp [hlink]

end Sys2Proof.Proofs
end

section
/-! SUPPORT. RESET WORK (R191): the settling of `Obligations.ResetWorkClearsTheWork`. -/

namespace Sys2Proof.Machine

/-! ### A start-up that ends at once -/

/-- The run state that a start-up after RESET WORK enters (R190). -/
def State.workEntered (s : State) : RunState := if s.pins.stopHigh then .standby else .halt .stop .standby

theorem Work.halt_blank {w : Work} (hd : w.ret.delivery = none) (hk : w.stapler.work = none)
    (hp : ∀ p : PocketId, w.pockets[p].purge ≠ .running) (c : HaltCause) (t : ResumeTarget) :
    w.halt c t = w.setRunState (.halt c t) := by
  have hvolume : (w.setRunState (.halt c t)).cutOffVolume = w.setRunState (.halt c t) := by
    unfold Work.cutOffVolume
    have hnone : (w.setRunState (.halt c t)).volumeInFlight = none := by simp [State.volumeInFlight, hk]
    rw [hnone]
  have hdelivery : (w.setRunState (.halt c t)).cutOffDelivery = w.setRunState (.halt c t) := by
    unfold Work.cutOffDelivery
    have hnone : (w.setRunState (.halt c t)).deliveryInFlight = none := by simp [State.deliveryInFlight, hd]
    rw [hnone]
  have hpurge (p : PocketId) : (w.setRunState (.halt c t)).cutOffPurge p = w.setRunState (.halt c t) := by
    unfold Work.cutOffPurge
    exact if_neg (hp p)
  unfold Work.halt
  rw [hvolume, hdelivery]
  unfold Work.each
  induction allPockets with
  | nil => rfl
  | cons p l ih => rw [List.foldl_cons, hpurge p, ih]

/-- A start-up with no purge to wait for ends at once, in STANDBY or, where the STOP input is low, in HALT (R190). -/
theorem Work.leaveStarting_blank {w : Work} (hd : w.ret.delivery = none) (hk : w.stapler.work = none)
    (hp : ∀ p : PocketId, w.pockets[p].purge ≠ .running) : w.leaveStarting .work false =
      (w.setRunState w.workEntered).setReport ⟨w.run.straps, .work, runCodeOf w.workEntered⟩ := by
  unfold Work.leaveStarting State.workEntered
  dsimp only
  cases hs : w.pins.stopHigh
  · rw [if_pos (by simp), Work.halt_blank hd hk hp]
    rfl
  · rw [if_neg (by simp)]
    rfl

theorem Work.setRunState_quiet (w : Work) {st : RunState} (hr : st ≠ .run) (hb : st ≠ .bypass) :
    w.setRunState st = { w with run := { w.run with state := st } } := by
  simp [Work.setRunState, Work.occasionIf, hr, hb]

theorem PocketRec.reset_work_started (r : PocketRec) (now : Time) (a : Nat) :
    (r.reset true).started now a = if r.state = .empty then r else
      { r with state := .purging, pack := none, purge := .running, cause := .none, offset := false
               purgeStart := now, purgeAllowance := a } := by
  by_cases he : r.state = .empty
  · simp [PocketRec.started, PocketRec.reset, he]
  · simp [PocketRec.started, PocketRec.reset, he]

/-- With no work the settling leaves what starting the purges and ending the start-up leave, the lamps aside. -/
theorem Work.settle_blank_unlit {v x : Work} (hx : v.startPurges.endStartUp = x) (hb : x.Blank) (b : State) : ∃ bs,
    v.settle b = { x with ret := { x.ret with bins := bs } } ∧ ∀ c : BinId, bs[c].unlit = v.ret.bins[c].unlit := by
  subst hx
  obtain ⟨bs, hbs⟩ := Work.driveLamps_shape v.startPurges.endStartUp
  have hv := (Work.settle_blank hb b).trans hbs
  refine ⟨bs, hv, fun c => ?_⟩
  have hkeeps := Work.settle_keepsBins b v c (by simp)
  rwa [hv] at hkeeps

/-- The state that RESET WORK leaves, its settling included, with these feeds, pockets and bins and this run state. -/
def State.worklessWith (s : State) (fs : Vector FeedRec 4) (ps : Vector PocketRec 8) (bs : Vector BinRec 24)
    (st : RunState) : State :=
  { s with
    reg := PackRegister.cleared
    feeds := fs, pockets := ps
    arb := { s.arb with inFlight := [], aLast := s.now, blockTimer := none, pick := none }
    stapler := { s.stapler with state := .idle, queue := [], work := none, command := none }
    ret := { state := .idle, queue := [], delivery := none, command := none, bins := bs }
    tables := { s.tables with mark := none, group := none }
    run := { s.run with state := st } }

/-- Every pocket is EMPTY. -/
def State.allEmpty (s : State) : Bool := allPockets.all fun p => decide (s.pockets[p].state = .empty)

theorem State.worklessWith_blank (s : State) {fs : Vector FeedRec 4} (hf : ∀ f : FeedId, fs[f].wait = none ∧ fs[f].queue = [])
    (ps : Vector PocketRec 8) (bs : Vector BinRec 24) {st : RunState} (hr : st ≠ .run) (hb : st ≠ .bypass)
    (ho : ∀ o, st ≠ .stopping o) (r : Option Report) :
    ({ Work.of (s.worklessWith fs ps bs st) with report := r } : Work).Blank where
  packs := rfl
  staples := rfl
  work := rfl
  queue := rfl
  delivery := rfl
  waits := hf
  timer := rfl
  occasion := rfl
  mark := rfl
  rests := by simp [State.releasing, State.worklessWith, hr, hb]
  standing := ho

/-- A pocket after RESET WORK: EMPTY, or its purge running (R93, R87). -/
def PocketRec.afterResetWork (r : PocketRec) (now : Time) (allowance : Nat) : PocketRec :=
  if r.state = .empty then r else
    { r with state := .purging, pack := none, purge := .running, cause := .none, offset := false
             purgeStart := now, purgeAllowance := allowance }

/-- RESET WORK's own effect, and the purges it starts. -/
theorem Work.startPurges_resetWork (s : State) : ∃ fs ps bs,
    (Work.of s).resetWork.startPurges = Work.of (s.worklessWith fs ps bs (.starting .work false))
    ∧ (∀ f : FeedId, fs[f] = s.feeds[f].reset true s.pins.sheetPresent[f])
    ∧ (∀ p : PocketId, ps[p] = s.pockets[p].afterResetWork s.now s.tables.settings.mechTimeout)
    ∧ (Work.of s).resetWork.ret.bins = bs
    ∧ ∀ b : BinId, bs[b].unlit = { s.ret.bins[b] with flash := none }.unlit := by
  obtain ⟨fs, ps, bs, hu, hfs, hps, hbs⟩ := (Work.of s).resetCommon_shape .work
  rw [decide_eq_true rfl] at hfs hps hbs
  change (Work.of s).resetWork = _ at hu
  generalize (Work.of s).resetWork = v at hu
  obtain ⟨ps', hp, hps'⟩ := Work.startPurges_blank (w := v) (by rw [hu]) (by rw [hu]; rfl) (by rw [hu])
  refine ⟨fs, ps', bs, by rw [hp, hu]; rfl, hfs, fun p => ?_, by rw [hu], fun b => ?_⟩
  · rw [hps' p, hu]
    show ps[p].started s.now s.tables.settings.mechTimeout = _
    rw [hps p]
    exact PocketRec.reset_work_started _ _ _
  · rw [hbs b]
    rfl

/-- The start-up after RESET WORK ends at once where every pocket is EMPTY (R190). -/
theorem Work.endStartUp_resetWork {s : State} (hs : s.stacksSound) {fs : Vector FeedRec 4} {ps : Vector PocketRec 8}
    (bs : Vector BinRec 24)
    (hps : ∀ p : PocketId, ps[p] = s.pockets[p].afterResetWork s.now s.tables.settings.mechTimeout) :
    (Work.of (s.worklessWith fs ps bs (.starting .work false))).endStartUp =
      if s.allEmpty then { Work.of (s.worklessWith fs ps bs s.workEntered) with
        report := some ⟨s.run.straps, .work, runCodeOf s.workEntered⟩ }
      else Work.of (s.worklessWith fs ps bs (.starting .work false)) := by
  have hpurging : (s.worklessWith fs ps bs (.starting .work false)).anyPurging = !s.allEmpty := by
    rw [Bool.eq_iff_iff, State.anyPurging_iff, Bool.not_eq_true', State.allEmpty, List.all_eq_false]
    show (∃ p : PocketId, ps[p].state = .purging) ↔ _
    constructor
    · rintro ⟨p, hp⟩
      refine ⟨p, mem_allPockets p, fun he => ?_⟩
      have he : s.pockets[p].state = .empty := by simpa using he
      rw [hps p, PocketRec.afterResetWork, if_pos he, he] at hp
      cases hp
    · rintro ⟨p, -, hp⟩
      refine ⟨p, ?_⟩
      rw [hps p, PocketRec.afterResetWork, if_neg (by simpa using hp)]
  unfold Work.endStartUp
  show (if (s.worklessWith fs ps bs (.starting .work false)).anyPurging then _ else _) = _
  rw [hpurging]
  cases hempty : s.allEmpty
  · rfl
  · have hall (p : PocketId) : s.pockets[p].state = .empty := by simpa using List.all_eq_true.1 hempty p (mem_allPockets p)
    have hidle (p : PocketId) : (Work.of (s.worklessWith fs ps bs (.starting .work false))).pockets[p].purge ≠ .running := by
      show ps[p].purge ≠ .running
      rw [hps p, PocketRec.afterResetWork, if_pos (hall p), (hs.1 p).1.2 (by rw [hall p]; simp)]
      simp
    have hentered : s.workEntered ≠ .run ∧ s.workEntered ≠ .bypass := by
      unfold State.workEntered
      split <;> simp
    rw [if_neg (by simp), if_pos rfl, Work.leaveStarting_blank rfl rfl hidle]
    have hsame : (Work.of (s.worklessWith fs ps bs (.starting .work false))).workEntered = s.workEntered := rfl
    rw [hsame, Work.setRunState_quiet _ hentered.1 hentered.2]
    rfl

/-- What RESET WORK and its settling leave: all but the lamps, which follow. -/
theorem Work.settle_resetWork {s : State} (hs : s.stacksSound) (b : State) : ∃ fs ps bs,
    (Work.of s).resetWork.settle b = { Work.of (s.worklessWith fs ps bs
        (if s.allEmpty then s.workEntered else .starting .work false)) with
      report := if s.allEmpty then some ⟨s.run.straps, .work, runCodeOf s.workEntered⟩ else none }
    ∧ (∀ f : FeedId, fs[f] = s.feeds[f].reset true s.pins.sheetPresent[f])
    ∧ (∀ p : PocketId, ps[p] = s.pockets[p].afterResetWork s.now s.tables.settings.mechTimeout)
    ∧ ∀ b : BinId, bs[b].unlit = { s.ret.bins[b] with flash := none }.unlit := by
  obtain ⟨fs, ps, bs, hv, hfs, hps, hbins, hbs⟩ := Work.startPurges_resetWork s
  have hwaits (f : FeedId) : fs[f].wait = none ∧ fs[f].queue = [] := by
    rw [hfs f]
    exact ⟨rfl, rfl⟩
  have hend := (congrArg Work.endStartUp hv).trans (Work.endStartUp_resetWork hs bs hps)
  have hresult : ∃ st r, (if s.allEmpty then { Work.of (s.worklessWith fs ps bs s.workEntered) with
        report := some ⟨s.run.straps, .work, runCodeOf s.workEntered⟩ }
      else Work.of (s.worklessWith fs ps bs (.starting .work false)))
      = { Work.of (s.worklessWith fs ps bs st) with report := r }
      ∧ st = (if s.allEmpty then s.workEntered else .starting .work false)
      ∧ r = (if s.allEmpty then some ⟨s.run.straps, .work, runCodeOf s.workEntered⟩ else none) := by
    cases s.allEmpty
    · exact ⟨_, _, rfl, rfl, rfl⟩
    · exact ⟨_, _, rfl, rfl, rfl⟩
  obtain ⟨st, r, hres, hst, hr⟩ := hresult
  have hrest : st ≠ .run ∧ st ≠ .bypass ∧ ∀ o, st ≠ .stopping o := by
    rw [hst]
    unfold State.workEntered
    split
    · split <;> simp
    · simp
  obtain ⟨bs', hset, hbs'⟩ := Work.settle_blank_unlit (hend.trans hres)
    (s.worklessWith_blank hwaits ps bs hrest.1 hrest.2.1 hrest.2.2 r) b
  refine ⟨fs, ps, bs', by rw [hset, ← hst, ← hr]; rfl, hfs, hps, fun c => ?_⟩
  rw [hbs' c, hbins]
  exact hbs c

end Sys2Proof.Machine

namespace Sys2Proof.Proofs

open Sys2Proof.Machine

/-- Settles O21: what RESET WORK and its settling leave, read off field by field. -/
theorem resetWorkClearsTheWork : Obligations.ResetWorkClearsTheWork := by
  unfold Obligations.ResetWorkClearsTheWork
  intro a s ht hf hs
  dsimp only
  obtain ⟨k, hk, htold⟩ : ∃ k : LinkPort, s.takenFor (.resetWork false a) = { s with link := k }
      ∧ k.outbound ++ k.held = s.told := ⟨_, s.taken_eq_withLink _, s.taken_told _⟩
  refine ⟨_, exec_taken ht, ?_⟩
  rw [hk]
  obtain ⟨fs, ps, bs, hv, hfs, hps, hbs⟩ := Work.settle_resetWork (s := { s with link := k }) hs { s with link := k }
  have heffect : Instr.effect (.resetWork false a) (Work.of { s with link := k })
      = ((Work.of { s with link := k }).resetWork.settle { s with link := k }).answer kindControl .accepted := rfl
  rw [heffect, hv]
  generalize hw : Work.answer _ kindControl .accepted = w
  obtain ⟨hfin, hord⟩ := Work.finish_quiet (w := w) (by rw [← hw]; rfl) (by rw [← hw]; exact hf)
  rw [hfin, show ({ w.toState with link := w.finish.link } : State).told = w.finish.told from rfl, hord]
  subst hw
  refine ⟨rfl, fun f => ?feeds, rfl, fun p => hps p, rfl, rfl, rfl, rfl, rfl, hbs, rfl, rfl, ?run, ?told, rfl, rfl, rfl⟩
  case feeds =>
    show fs[f] = _
    rw [hfs f]
    simp [FeedRec.reset, shelfOf]
  case run => rfl
  case told =>
    show k.outbound ++ k.held ++ _ ++ _ ++ _ = _
    rw [htold]
    change s.told ++ [.result kindControl .accepted {} []] ++ [] ++ (Option.map Report.record (if s.allEmpty then
      some ⟨s.run.straps, .work, runCodeOf s.workEntered⟩ else none)).toList = s.told
        ++ .result kindControl .accepted {} [] :: (if s.allEmpty then
          [.startReport s.run.straps .work (runCodeOf s.workEntered)] else [])
    cases s.allEmpty
    · simp
    · simp [Report.record]

end Sys2Proof.Proofs
end

section
/-! SUPPORT. The run state and the release outputs over the moves of a command: the settling of
`Obligations.HaltIsEnteredAndLeftByItsEvents` and `Obligations.PulsesOnlyInRunAndBypass`. -/

namespace Sys2Proof.Machine

section
variable {ph : Phase} {w v : Work}

theorem Move_run (h : Move ph w v) : v.run.state = w.run.state ∨ RunMove ph w.run.state v.run.state := by
  cases h with
  | same _ _ _ _ _ _ hrun => exact .inl (by rw [hrun])
  | setRunState st hr => exact .inr hr
  | setPack => exact .inl (by simp)
  | setClassQueue => exact .inl (by simp)
  | setFeed => exact .inl (by simp)
  | setPocket => exact .inl (by simp)
  | setBin => exact .inl (by simp)
  | _ => exact .inl rfl

theorem Move_pulses (h : Move ph w v) : v.releasePulses = w.releasePulses ∨ (ph = .release ∧ w.releasing = true) := by
  cases h with
  | same _ _ _ _ _ _ _ hpulses => exact .inl hpulses
  | pulse f hp hr => exact .inr ⟨hp, hr⟩
  | setPack => exact .inl (by simp)
  | setClassQueue => exact .inl (by simp)
  | setFeed => exact .inl (by simp)
  | setPocket => exact .inl (by simp)
  | setBin => exact .inl (by simp)
  | _ => exact .inl rfl

theorem Moves_release_run (h : Moves .release w v) : v.run.state = w.run.state :=
  h.keeps (P := fun x => x.run.state = w.run.state) (fun _ _ hm hx => (Move_run hm).elim (fun e => e.trans hx) False.elim)
    rfl

/-- Outside HALT and STARTING the run state stays outside them, a STOP or a jam aside. -/
theorem Move_running (h : Move ph w v) (hph : ph ≠ .stop) (hw : w.run.state.halts = false ∧ w.run.state.starts = false) :
    v.run.state.halts = false ∧ v.run.state.starts = false := by
  rcases Move_run h with e | hr
  · rw [e]; exact hw
  · cases ph
    case work =>
      rcases hr with h | ⟨-, h1, h2⟩
      · rw [hw.2] at h; cases h
      · exact ⟨h1, h2⟩
    case stop => exact absurd rfl hph
    case resume => exact hr
    case rest => rw [hr.2]; exact ⟨rfl, rfl⟩
    case deliver => exact hr.elim
    case release => exact hr.elim

/-- HALT stands but for RESUME. -/
theorem Move_halted (h : Move ph w v) (hph : ph ≠ .resume) (hw : w.run.state.halts = true) :
    v.run.state = w.run.state := by
  have hstart : w.run.state.starts = false := by
    cases hst : w.run.state <;> rw [hst] at hw <;> first | rfl | cases hw
  rcases Move_run h with e | hr
  · exact e
  · cases ph
    case work =>
      rcases hr with h | ⟨h, -⟩
      · rw [hstart] at h; cases h
      · rw [hw] at h; cases h
    case stop =>
      have hnot : w.run.state.halts = false := hr.1
      rw [hw] at hnot
      cases hnot
    case resume => exact absurd rfl hph
    case rest => obtain ⟨⟨o, ho⟩, -⟩ := hr; rw [ho] at hw; cases hw
    case deliver => exact hr.elim
    case release => exact hr.elim

theorem Course_phases {P : Work → Prop} (h : Course ph w v) (hown : ∀ x y, Move ph x y → P x → P y)
    (hafter : ∀ ph' x y, ph' ≠ .stop → ph' ≠ .resume → Move ph' x y → P x → P y) (hw : P w) : P v := by
  obtain ⟨w0, h0, w1, w2, w3, w4, h1, h2, h3, h4, h5⟩ := h
  have hwork := h1.keeps (fun x y => hafter _ x y (by decide) (by decide)) (h0.keeps hown hw)
  have hdeliver := h3.keeps (fun x y => hafter _ x y (by decide) (by decide))
    (h2.keeps (fun x y => hafter _ x y (by decide) (by decide)) hwork)
  exact h5.keeps (fun x y => hafter _ x y (by decide) (by decide))
    (h4.keeps (fun x y => hafter _ x y (by decide) (by decide)) hdeliver)

end

theorem State.halted_eq (s : State) : s.halted = s.run.state.halts := by
  unfold State.halted RunState.halts
  cases s.run.state <;> rfl

theorem State.starting_eq (s : State) : s.starting = s.run.state.starts := by
  unfold State.starting RunState.starts
  cases s.run.state <;> rfl

theorem State.writeEntry_run (s : State) (x : Staged) : (s.writeEntry x).run = s.run := by
  unfold State.writeEntry
  split <;> rfl

theorem State.writeAll_run (s : State) (ws : List Staged) : (s.writeAll ws).run = s.run :=
  State.writeAll_keeps (P := fun t => t.run = s.run) (fun t x h => (t.writeEntry_run x).trans h) ws s rfl

theorem State.writeEntry_releasePulses (s : State) (x : Staged) : (s.writeEntry x).releasePulses = s.releasePulses := by
  unfold State.writeEntry
  split <;> rfl

theorem State.writeAll_releasePulses (s : State) (ws : List Staged) :
    (s.writeAll ws).releasePulses = s.releasePulses :=
  State.writeAll_keeps (P := fun t => t.releasePulses = s.releasePulses)
    (fun t x h => (t.writeEntry_releasePulses x).trans h) ws s rfl

theorem Work.acceptPack_run (w : Work) (k : Handle) (r : PackRec) : (w.acceptPack k r).run = w.run := by
  obtain ⟨m, o, h⟩ := w.acceptPack_fields k r
  rw [h]

/-- A reset to the defaults enters STARTING and stays there. -/
theorem Deed_cold {c : Instr} {s t : State} (h : c.Deed (Work.of s) (Work.of t)) {kind : ResetKind}
    (hc : c.resets = some kind) (hk : kind ≠ .work) : (∃ st, t.run.state = .starting kind st) ∨ Course .work (Work.of s) (Work.of t) := by
  cases h with
  | moved h => rw [Instr.phase_of_resets hc] at h; exact .inr h
  | announced l j st cls pages b k hp => obtain ⟨_, _, _, _, _, rfl⟩ := hp; cases hc
  | wrote hw => rw [Instr.resets_of_writes hw] at hc; cases hc
  | reset kind' hc' u hu b hv =>
    rw [hc] at hc'
    cases hc'
    have hcold : ∃ now l straps gate, u = (Work.of s).defaulted now l straps gate := by
      cases kind
      case work => exact absurd rfl hk
      all_goals exact hu
    obtain ⟨now, l, straps, gate, rfl⟩ := hcold
    rw [Work.settle_cold s hk] at hv
    exact .inl ⟨false, Moves_release_run hv⟩

/-- The run state a command begins its moves in is the one it came in, a reset aside. -/
theorem Begins_run {c : Instr} {w u : Work} (h : c.Begins w u) (hr : c.resets = none) :
    ∃ x, Moves .work w x ∧ u.run = x.run := by
  cases h with
  | plain => exact ⟨w, .refl, rfl⟩
  | announced l j st cls pages b k => exact ⟨w, .refl, Work.acceptPack_run _ _ _⟩
  | wrote hc u ws hu => exact ⟨u, hu, State.writeAll_run _ _⟩
  | reset kind hc => rw [hr] at hc; cases hc

theorem Work.acceptPack_releasePulses (w : Work) (k : Handle) (r : PackRec) :
    (w.acceptPack k r).releasePulses = w.releasePulses := by
  obtain ⟨m, o, h⟩ := w.acceptPack_fields k r
  rw [h]

theorem Moves_pulses {ph : Phase} {x y : Work} (hp : ph ≠ .release) (hm : Moves ph x y) :
    y.releasePulses = x.releasePulses :=
  hm.keeps (P := fun z => z.releasePulses = x.releasePulses)
    (fun _ _ hz hx => (Move_pulses hz).elim (fun e => e.trans hx) fun e => absurd e.1 hp) rfl

theorem Begins_pulses {c : Instr} {w u : Work} (h : c.Begins w u) : u.releasePulses = w.releasePulses := by
  cases h with
  | plain => rfl
  | announced l j st cls pages b k => exact Work.acceptPack_releasePulses _ _ _
  | wrote hc u ws hu => exact (State.writeAll_releasePulses _ _).trans (Moves_pulses (by decide) hu)
  | reset kind hc u hu =>
    obtain ⟨fs, ps, bs, e, -, -, -⟩ := u.resetCommon_shape kind
    rw [e]
    show u.releasePulses = _
    cases kind
    case work => obtain ⟨l, rfl⟩ := hu; rfl
    all_goals
      obtain ⟨now, l, straps, gate, rfl⟩ := hu
      rfl

end Sys2Proof.Machine

namespace Sys2Proof.Proofs

open Sys2Proof.Machine

/-- Settles O5: outside STARTING only the taking of a STOP or of a jam enters HALT, and only RESUME leaves it. -/
theorem haltIsEnteredAndLeftByItsEvents : Obligations.HaltIsEnteredAndLeftByItsEvents := by
  unfold Obligations.HaltIsEnteredAndLeftByItsEvents
  intro c s t h
  constructor
  · intro hs ht
    by_contra hnot
    simp only [not_or, not_exists] at hnot
    obtain ⟨hstop, hfall, hdead, hstart, hwork⟩ := hnot
    have hphase : c.phase ≠ .stop := by
      cases c
      case stopCharacter => exact absurd rfl hstop
      case stopInputFall => exact absurd rfl hfall
      case deadlineExpiry => exact absurd rfl hdead
      all_goals simp [Instr.phase]
    rw [State.halted_eq] at hs ht
    have hrun : s.run.state.halts = false ∧ s.run.state.starts = false :=
      ⟨hs, by rw [← State.starting_eq]; simpa using hstart⟩
    have hkept {u : Work} (hc : Course c.phase u (Work.of t))
        (hu : u.run.state.halts = false ∧ u.run.state.starts = false) : False := by
      have := Course_phases (P := fun x => x.run.state.halts = false ∧ x.run.state.starts = false) hc
        (fun x y hm => Move_running hm hphase) (fun ph x y hp _ hm => Move_running hm hp) hu
      rw [show (Work.of t).run.state = t.run.state from rfl, ht] at this
      cases this.1
    cases hres : c.resets with
    | none =>
      obtain ⟨u, hu, hc⟩ := Deed_begins (exec_deed h)
      obtain ⟨x, hx, hrunx⟩ := Begins_run hu hres
      refine hkept hc ?_
      rw [hrunx]
      exact hx.keeps (P := fun x => x.run.state.halts = false ∧ x.run.state.starts = false)
        (fun _ _ hm => Move_running hm (by decide)) hrun
    | some kind =>
      have hk : kind ≠ .work := by
        rintro rfl
        cases c <;> first | exact hwork _ _ rfl | cases hres
      rcases Deed_cold (exec_deed h) hres hk with ⟨st, e⟩ | hc
      · rw [e] at ht; cases ht
      · rw [← Instr.phase_of_resets hres] at hc
        exact hkept hc hrun
  · intro cause target hs
    by_cases hres : c.resets = none
    · by_cases hresume : c.phase = .resume
      · refine .inr (.inl ?_)
        cases c <;> first | exact ⟨_, _, .inl rfl⟩ | cases hresume
      · refine .inl ?_
        obtain ⟨u, hu, hc⟩ := Deed_begins (exec_deed h)
        obtain ⟨x, hx, hrunx⟩ := Begins_run hu hres
        have hstands {ph : Phase} (hp : ph ≠ .resume) (y z : Work) (hm : Move ph y z)
            (hy : y.run.state = .halt cause target) : z.run.state = .halt cause target :=
          (Move_halted hm hp (by rw [hy]; rfl)).trans hy
        have hxs := hx.keeps (P := fun y => y.run.state = .halt cause target) (hstands (by decide)) hs
        exact Course_phases (P := fun y => y.run.state = .halt cause target) hc (hstands hresume)
          (fun ph y z _ hp => hstands hp y z) (by rw [hrunx]; exact hxs)
    · refine .inr ?_
      cases c
      case resetWork => exact .inl ⟨_, _, .inr (.inl rfl)⟩
      case resetAll => exact .inl ⟨_, _, .inr (.inr rfl)⟩
      case powerOn => exact .inr ⟨_, .inl rfl⟩
      case resetPin => exact .inr ⟨_, .inr rfl⟩
      all_goals exact absurd rfl hres

/-- Settles O6: a pulse is a move of the release decisions, which leave the run state alone. -/
theorem pulsesOnlyInRunAndBypass : Obligations.PulsesOnlyInRunAndBypass := by
  unfold Obligations.PulsesOnlyInRunAndBypass
  intro c s t h hne
  obtain ⟨u, hu, w0, h0, w1, w2, w3, w4, h1, h2, h3, h4, h5⟩ := Deed_begins (exec_deed h)
  have hbegin := Begins_pulses hu
  have hown : c.phase ≠ .release := by cases c <;> simp [Instr.phase]
  have hbefore : w4.releasePulses = s.releasePulses :=
    (Moves_pulses (by decide) h4).trans <| (Moves_pulses (by decide) h3).trans <| (Moves_pulses (by decide) h2).trans <|
      (Moves_pulses (by decide) h1).trans <| (Moves_pulses hown h0).trans hbegin
  have hrelease : t.releasePulses = w4.releasePulses ∨ w4.releasing = true :=
    h5.keeps (P := fun z => z.run.state = w4.run.state ∧ (z.releasePulses = w4.releasePulses ∨ w4.releasing = true))
      (fun x y hm hx => by
        refine ⟨(Move_run hm).elim (fun e => e.trans hx.1) False.elim, ?_⟩
        rcases Move_pulses hm with e | ⟨-, e⟩
        · rw [e]; exact hx.2
        · exact .inr (by simpa only [State.releasing, hx.1] using e)) ⟨rfl, .inl rfl⟩ |>.2
  have hrun : t.run.state = w4.run.state := Moves_release_run h5
  rcases hrelease with e | e
  · exact absurd (e.trans hbefore) hne
  · rw [hrun]
    simpa [State.releasing] using e

end Sys2Proof.Proofs
end

section
/-! SUPPORT. The commands whose only effect is a Result or a change of one flag (R156, R171, R175), and the stack budget
(R80 to R84): the settling of `Obligations.LoopbackFlagIsSetAndCleared`, `Obligations.UndefinedRecordsAreRefused`,
`Obligations.GreedySplitFillsEachVolume`, `Obligations.StackBudgetDecides` and `Obligations.DrainMarkerIsTaken`. -/

namespace Sys2Proof.Machine

/-! ### A command that is taken -/

/-- The Link Port a command's record was taken from, and what it keeps. -/
theorem State.takenFor_link (s : State) (c : Instr) : ∃ k : LinkPort, s.takenFor c = { s with link := k }
    ∧ k.outbound ++ k.held = s.told ∧ k.outbound = s.link.outbound ∧ k.held = s.link.held := by
  cases hr : recordOf c with
  | none => exact ⟨s.link, by rw [State.takenFor, hr], rfl, rfl, rfl⟩
  | some r =>
    have ht : s.takenFor c = s.taken r := by rw [State.takenFor, hr]
    exact ⟨(s.taken r).link, by rw [ht]; exact s.taken_eq_withLink r, s.taken_told r, s.taken_outbound r, s.taken_held r⟩

theorem State.takenFor_follows {s : State} (h : s.attentionFollows) (c : Instr) : (s.takenFor c).attentionFollows := by
  obtain ⟨k, hk, -⟩ := s.takenFor_link c
  rw [hk]
  exact h

/-- A command taken whose effect is a Result alone tells that Result and changes nothing else. -/
theorem exec_answers {c : Instr} {s : State} (ht : s.takesCommand c) (hf : s.attentionFollows) {k : Byte} {st : Status}
    {d : List Byte} {n : Notes} (he : c.effect (Work.of (s.takenFor c)) = (Work.of (s.takenFor c)).answer k st d n) :
    ∃ t, exec c s = .next t ∧ (s.takenFor c).onlyTells t (.result k st n d) :=
  ⟨_, exec_taken ht, by rw [he]; exact State.onlyTells_answer (State.takenFor_follows hf c) k st d n⟩

/-- A command taken whose effect is a change of the state, with ATTENTION as it was, and a Result. -/
theorem exec_answers_from {c : Instr} {s : State} (ht : s.takesCommand c) {u : State} (hf : u.attentionFollows)
    {k : Byte} {st : Status} {d : List Byte} {n : Notes}
    (he : c.effect (Work.of (s.takenFor c)) = (Work.of u).answer k st d n) :
    ∃ t, exec c s = .next t ∧ u.onlyTells t (.result k st n d) :=
  ⟨_, exec_taken ht, by rw [he]; exact State.onlyTells_answer hf k st d n⟩

/-! ### The live packs -/

theorem Sparse.mem_of_get_ne {α : Type} {n : Nat} {d : α} {t : List (Fin n × α)} {k : Fin n} (h : Sparse.get d t k ≠ d) :
    k ∈ t.map Prod.fst := by
  induction t with
  | nil => exact absurd rfl h
  | cons p t ih =>
    obtain ⟨j, v⟩ := p
    by_cases hj : j = k
    · simp [hj]
    · simp only [Sparse.get, if_neg hj] at h
      exact List.mem_cons_of_mem _ (ih h)

/-- The live records are those that are not FREE. -/
theorem State.mem_live {s : State} {h : Handle} : h ∈ s.live ↔ (s.pack h).state ≠ .free := by
  unfold State.live
  rw [List.mem_filter, decide_eq_true_eq]
  exact ⟨And.right, fun hs => ⟨Sparse.mem_of_get_ne (PackRec.not_cleared hs), hs⟩⟩

/-! ### The greedy split (R83) -/

/-- The thickness of the volume of pages `first` to `last`. -/
def volumeThickness (cover body first last : Nat) : Nat := (if first = 1 then cover else body) + (last - first) * body

/-- An end page is an end of a volume that is within the limit and could not have taken the next page. -/
def FillsVolume (limit pages cover body : Nat) (x : Nat × Nat) : Prop :=
  x.1 < x.2 ∧ volumeThickness cover body (x.1 + 1) x.2 ≤ limit
    ∧ (x.2 ≠ pages → limit < volumeThickness cover body (x.1 + 1) x.2 + body)

/-- From `page` on, with the volume from `start + 1` to `page - 1` in hand, the split fills each volume. -/
theorem splitFrom_fills {limit cover body : Nat} (hb : body ≤ limit) (rest : Nat) :
    ∀ page start running, start + 1 < page → running = volumeThickness cover body (start + 1) (page - 1) →
      running ≤ limit →
      (splitFrom limit body rest page running).getLast? = some (page - 1 + rest)
        ∧ ∀ x ∈ (start :: splitFrom limit body rest page running).zip (splitFrom limit body rest page running),
            FillsVolume limit (page - 1 + rest) cover body x := by
  induction rest with
  | zero =>
    intro page start running hs hr hl
    refine ⟨rfl, fun x hx => ?_⟩
    simp only [splitFrom, List.zip_cons_cons, List.zip_nil_right, List.mem_singleton] at hx
    subst hx
    exact ⟨by omega, hr ▸ hl, fun hne => absurd rfl hne⟩
  | succ rest ih =>
    intro page start running hs hr hl
    have hpages : page - 1 + (rest + 1) = page + 1 - 1 + rest := by omega
    by_cases hfit : running + body ≤ limit
    · have hnext : running + body = volumeThickness cover body (start + 1) (page + 1 - 1) := by
        have hlen : page + 1 - 1 - (start + 1) = (page - 1 - (start + 1)) + 1 := by omega
        rw [hr, volumeThickness, volumeThickness, hlen, Nat.succ_mul, Nat.add_assoc]
      rw [splitFrom, if_pos hfit, hpages]
      exact ih (page + 1) start _ (by omega) hnext hfit
    · have hfresh : body = volumeThickness cover body (page - 1 + 1) (page + 1 - 1) := by
        have hone : page - 1 + 1 ≠ 1 := by omega
        have hlen : page + 1 - 1 - (page - 1 + 1) = 0 := by omega
        rw [volumeThickness, if_neg hone, hlen, Nat.zero_mul, Nat.add_zero]
      obtain ⟨hlast, hfills⟩ := ih (page + 1) (page - 1) body (by omega) hfresh hb
      rw [splitFrom, if_neg hfit, hpages]
      refine ⟨by rw [List.getLast?_cons, hlast]; rfl, fun x hx => ?_⟩
      rw [List.zip_cons_cons, List.mem_cons] at hx
      rcases hx with rfl | hx
      · exact ⟨by omega, hr ▸ hl, fun _ => by rw [← hr]; omega⟩
      · exact hfills x hx

/-! ### Drain markers (R24) -/

theorem Work.drainMarker_empty {w : Work} (h : w.live = []) (id : Byte) :
    w.drainMarker id = (w.addDrains [id]).answer kindDrainMarker .accepted [0] := by
  unfold Work.drainMarker
  rw [h]
  rfl

theorem Work.drainMarker_room {w : Work} (h : w.live ≠ []) (hm : w.reg.markers.length < Config.markerLimit) (id : Byte) :
    w.drainMarker id = (w.addMarker ⟨id, w.live⟩).answer kindDrainMarker .accepted [byteOf w.live.length] := by
  unfold Work.drainMarker
  dsimp only
  rw [if_neg (by simpa using h), if_pos hm]

theorem Work.drainMarker_full {w : Work} (h : w.live ≠ []) (hm : Config.markerLimit ≤ w.reg.markers.length) (id : Byte) :
    w.drainMarker id = w.answer kindDrainMarker .drainFull := by
  unfold Work.drainMarker
  dsimp only
  rw [if_neg (by simpa using h), if_neg (Nat.not_lt.2 hm)]

end Sys2Proof.Machine

namespace Sys2Proof.Proofs

open Sys2Proof.Machine

/-- Settles O30: the flag is set in the state the record was taken from, and the Result told. -/
theorem loopbackFlagIsSetAndCleared : Obligations.LoopbackFlagIsSetAndCleared := by
  unfold Obligations.LoopbackFlagIsSetAndCleared
  intro a s hf
  have hfollows (b : Bool) (c : Instr) : State.attentionFollows
      { s.takenFor c with link := { (s.takenFor c).link with loopback := b } } := State.takenFor_follows hf c
  exact ⟨fun ht => exec_answers_from ht (hfollows true _) rfl, fun ht => exec_answers_from ht (hfollows false _) rfl⟩

/-- Settles O26: the Record Handler's own refusals. -/
theorem undefinedRecordsAreRefused : Obligations.UndefinedRecordsAreRefused := by
  unfold Obligations.UndefinedRecordsAreRefused
  refine ⟨fun kind payload s ht hf => exec_answers ht hf rfl, fun x s ht hf => ?_⟩
  cases x with
  | group action => exact exec_answers ht hf rfl
  | control action argument => exact exec_answers ht hf rfl

/-- Settles O34: by induction on the pages left, with the volume in hand. -/
theorem greedySplitFillsEachVolume : Obligations.GreedySplitFillsEachVolume := by
  unfold Obligations.GreedySplitFillsEachVolume
  intro limit pages cover body hp hc hb
  have hfirst : cover = volumeThickness cover body (0 + 1) (2 - 1) := by simp [volumeThickness]
  have hpages : 2 - 1 + (pages - 1) = pages := by omega
  have h := splitFrom_fills (cover := cover) hb (pages - 1) 2 0 cover (by omega) hfirst hc
  rw [hpages] at h
  exact h

/-- Settles O35: the stages of the budget one by one. -/
theorem stackBudgetDecides : Obligations.StackBudgetDecides := by
  unfold Obligations.StackBudgetDecides
  intro pages cover body limit pocket pattern policy _
  have hunits (n : Nat) : n / 100 + (if n % 100 = 0 then 0 else 1) = binUnits n := by
    unfold binUnits
    split <;> omega
  dsimp only
  rw [hunits]
  unfold stackBudget totalThickness
  cases policy with
  | refuse => simp
  | unstapled => simp
  | split => simp

/-- Settles O37: the three cases of the marker. -/
theorem drainMarkerIsTaken : Obligations.DrainMarkerIsTaken := by
  unfold Obligations.DrainMarkerIsTaken
  intro id s ht hf
  refine ⟨fun h => State.mem_live, ?_⟩
  obtain ⟨k, hk, htold, -⟩ := s.takenFor_link (.drainMarker false id)
  dsimp only
  refine ⟨_, exec_taken ht, ?_⟩
  rw [hk]
  have heffect : (Instr.drainMarker false id).effect (Work.of { s with link := k })
      = (Work.of { s with link := k }).drainMarker id := rfl
  refine ⟨fun hnone => ?none, fun hsome hroom => ?room, fun hsome hfull => ?full⟩
  case none =>
    obtain ⟨hfin, hord⟩ := Work.finish_quiet
      (w := ((Work.of { s with link := k }).addDrains [id]).answer kindDrainMarker .accepted [0]) rfl hf
    rw [heffect, Work.drainMarker_empty hnone]
    refine ⟨Work.finish_sameWork _, by rw [hfin]; rfl, ?_⟩
    rw [hord]
    change k.outbound ++ k.held ++ _ ++ _ ++ _ = _
    rw [htold]
    simp [Work.addDrains, Reply.record]
  case room =>
    rw [heffect, Work.drainMarker_room hsome hroom]
    exact State.onlyTells_answer (s := { s with link := k, reg := { s.reg with markers := _ } }) hf _ _ _ _
  case full =>
    rw [heffect, Work.drainMarker_full (w := Work.of { s with link := k }) hsome hfull]
    exact State.onlyTells_answer (s := { s with link := k }) hf _ _ _ _

end Sys2Proof.Proofs
end

section
/-! SUPPORT. Records and their layouts (R192, R193), and the reads of the banks and of the status (R156, R178, R181,
R182): the settling of `Obligations.RecordLayoutsRoundTrip`, `Obligations.TableReadCarriesTheEntries` and
`Obligations.StatusReadReportsAndClears`. -/

namespace Sys2Proof

/-! ### Bytes (R192) -/

theorem halfOf_bytes (h : Half) : halfOf (lowByte h) (highByte h) = h := by
  ext i hi
  simp [halfOf, lowByte, highByte]
  grind

@[simp] theorem lowByte_halfOf (lo hi : Byte) : lowByte (halfOf lo hi) = lo := by
  ext i hi
  simp only [halfOf, lowByte, BitVec.getElem_extractLsb']
  grind

@[simp] theorem highByte_halfOf (lo hi : Byte) : highByte (halfOf lo hi) = hi := by
  ext i hlt
  have h := BitVec.getLsbD_append (x := hi) (y := lo) (i := 8 + i)
  simp only [halfOf, highByte, BitVec.getElem_extractLsb']
  exact h.trans (by simp [hlt])

theorem byte_eq_of_toNat {b : Byte} {n : Nat} (h : b.toNat = n) (_hn : n < 256 := by decide) : b = BitVec.ofNat 8 n := by
  apply BitVec.eq_of_toNat_eq
  rw [h, BitVec.toNat_ofNat]
  omega

/-! ### Records and commands (R193) -/

/-- What a record is read as, where it is not refused for its kind or its length: a well-formed command whose record it
is. -/
def Instr.Carries (i : Instr) (r : Record) : Prop := i.WellFormed = true ∧ recordOf i = some r

theorem controlInstr_carries (bc : Bool) (action argument : Byte) :
    (controlInstr bc action argument).Carries (controlRecord bc action argument) := by
  unfold controlInstr
  split
  case h_13 =>
    refine ⟨decide_eq_true ?_, rfl⟩
    simp only [imp_false] at *
    omega
  all_goals
    rename_i h
    rw [byte_eq_of_toNat h]
    exact ⟨rfl, rfl⟩

theorem groupInstr_carries (bc : Bool) (action : Byte) :
    (groupInstr bc action).Carries (groupRecord bc action) := by
  unfold groupInstr
  split
  case h_4 =>
    refine ⟨decide_eq_true ?_, rfl⟩
    simp only [imp_false] at *
    omega
  all_goals
    rename_i h
    rw [byte_eq_of_toNat h]
    exact ⟨rfl, rfl⟩

section
variable {bc : Bool}

theorem sheetNotice_carries (feed handle page generation t0 t1 : Byte) :
    (Instr.sheetNotice bc feed handle page generation (halfOf t0 t1)).Carries
      ⟨bc, kindSheetNotice, [feed, handle, page, generation, t0, t1]⟩ := ⟨rfl, by simp [recordOf]⟩

theorem packAnnounce_carries (handle job s0 s1 pages : Byte) :
    (Instr.packAnnounce bc handle job (halfOf s0 s1) pages).Carries ⟨bc, kindPackAnnounce, [handle, job, s0, s1, pages]⟩ :=
  ⟨rfl, by simp [recordOf]⟩

theorem tableRead_carries (bank i0 i1 count : Byte) :
    (Instr.tableRead bc bank (halfOf i0 i1) count).Carries ⟨bc, kindTableRead, [bank, i0, i1, count]⟩ :=
  ⟨rfl, by simp [recordOf]⟩

theorem tableMark_carries (bank i0 i1 : Byte) :
    (Instr.tableMark bc bank (halfOf i0 i1)).Carries ⟨bc, kindTableMark, [bank, i0, i1]⟩ := ⟨rfl, by simp [recordOf]⟩

theorem tableWrite_carries (bank i0 i1 : Byte) {entries : List Byte}
    (hl : (bank :: i0 :: i1 :: entries).length ≤ 60) :
    (Instr.tableWrite bc bank (halfOf i0 i1) entries).Carries ⟨bc, kindTableWrite, bank :: i0 :: i1 :: entries⟩ :=
  ⟨decide_eq_true (by rw [List.length_cons, List.length_cons, List.length_cons] at hl; omega), by simp [recordOf]⟩

theorem markedWrite_carries (bank i0 i1 : Byte) {entry : List Byte} (hl : (bank :: i0 :: i1 :: entry).length ≤ 60)
    (hm : markedLengthSuits bank entry = true) :
    (Instr.markedWrite bc bank (halfOf i0 i1) entry).Carries ⟨bc, kindMarkedWrite, bank :: i0 :: i1 :: entry⟩ :=
  ⟨by rw [Instr.WellFormed, hm, Bool.and_true]
      exact decide_eq_true (by rw [List.length_cons, List.length_cons, List.length_cons] at hl; omega),
    by simp [recordOf]⟩

end

/-- Every record is read as a well-formed command whose record it is, or is refused as undefined: row by row, by the kind
and by the number of characters in the payload. -/
theorem instrOf_carries (r : Record) (hl : r.payload.length ≤ 60) :
    instrOf r = .undefinedRecordKind r.bcast r.kind r.payload ∨ (instrOf r).Carries r := by
  obtain ⟨bc, kind, payload⟩ := r
  unfold instrOf
  dsimp only at hl ⊢
  generalize hk : kind.toNat = k
  rcases k with _ | _ | _ | _ | _ | _ | _ | _ | _ | _ | _ | _ | k
  · exact .inl rfl
  · rw [byte_eq_of_toNat hk]
    rcases payload with _ | ⟨a, _ | ⟨b, _ | ⟨c, _ | ⟨d, _ | ⟨e, _ | ⟨f, _ | _⟩⟩⟩⟩⟩⟩
    case cons.cons.cons.cons.cons.cons.nil => exact .inr (sheetNotice_carries a b c d e f)
    all_goals exact .inl rfl
  · rw [byte_eq_of_toNat hk]
    rcases payload with _ | ⟨a, _ | ⟨b, _ | ⟨c, _ | ⟨d, _ | ⟨e, _ | _⟩⟩⟩⟩⟩
    case cons.cons.cons.cons.cons.nil => exact .inr (packAnnounce_carries a b c d e)
    all_goals exact .inl rfl
  · rw [byte_eq_of_toNat hk]
    rcases payload with _ | ⟨a, _ | _⟩
    case cons.nil => exact .inr ⟨rfl, rfl⟩
    all_goals exact .inl rfl
  · rw [byte_eq_of_toNat hk]
    rcases payload with _ | ⟨a, _ | ⟨b, _ | ⟨c, _ | ⟨d, _ | _⟩⟩⟩⟩
    case cons.cons.cons.cons.nil => exact .inr (tableRead_carries a b c d)
    all_goals exact .inl rfl
  · rw [byte_eq_of_toNat hk]
    rcases payload with _ | ⟨a, _ | ⟨b, _ | ⟨c, entries⟩⟩⟩
    case cons.cons.cons => exact .inr (tableWrite_carries a b c hl)
    all_goals exact .inl rfl
  · rw [byte_eq_of_toNat hk]
    rcases payload with _ | ⟨a, _ | ⟨b, _ | ⟨c, _ | _⟩⟩⟩
    case cons.cons.cons.nil => exact .inr (tableMark_carries a b c)
    all_goals exact .inl rfl
  · rw [byte_eq_of_toNat hk]
    rcases payload with _ | ⟨a, _ | ⟨b, _ | ⟨c, entry⟩⟩⟩
    case cons.cons.cons =>
      change (bif markedLengthSuits a entry then _ else _) = _
        ∨ Instr.Carries (bif markedLengthSuits a entry then _ else _) _
      cases hm : markedLengthSuits a entry with
      | false => exact .inl rfl
      | true => exact .inr (markedWrite_carries a b c hl hm)
    all_goals exact .inl rfl
  · rw [byte_eq_of_toNat hk]
    rcases payload with _ | ⟨a, _ | _⟩
    case cons.nil => exact .inr (groupInstr_carries bc a)
    all_goals exact .inl rfl
  · rw [byte_eq_of_toNat hk]
    rcases payload with _ | ⟨a, _ | _⟩
    case cons.nil => exact .inr ⟨rfl, rfl⟩
    all_goals exact .inl rfl
  · rw [byte_eq_of_toNat hk]
    rcases payload with _ | _
    case nil => exact .inr ⟨rfl, rfl⟩
    case cons => exact .inl rfl
  · rw [byte_eq_of_toNat hk]
    rcases payload with _ | ⟨a, _ | ⟨b, _ | _⟩⟩
    case cons.cons.nil => exact .inr (controlInstr_carries bc a b)
    all_goals exact .inl rfl
  · exact .inl rfl

/-- A well-formed command of the sheet link is what its record is read as. -/
theorem instrOf_recordOf (i : Instr) (r : Record) (hw : i.WellFormed = true) (hr : recordOf i = some r) :
    instrOf r = i := by
  cases i
  case undefinedRecordKind bc kind payload =>
    cases hr
    simp only [Instr.WellFormed, Bool.and_eq_true, decide_eq_true_eq] at hw
    exact hw.2
  case markedWrite bc bank index entry =>
    cases hr
    simp only [Instr.WellFormed, Bool.and_eq_true, decide_eq_true_eq] at hw
    show (bif markedLengthSuits bank entry then Instr.markedWrite bc bank _ entry else _) = _
    rw [hw.2, halfOf_bytes]
    rfl
  case undefinedActionCode bc x =>
    cases x
    case group action =>
      cases hr
      have hn : ¬(1 ≤ action.toNat ∧ action.toNat ≤ 3) := of_decide_eq_true hw
      show groupInstr bc action = _
      unfold groupInstr
      split <;> first | omega | rfl
    case control action argument =>
      cases hr
      have hn : ¬(1 ≤ action.toNat ∧ action.toNat ≤ 12) := of_decide_eq_true hw
      show controlInstr bc action argument = _
      unfold controlInstr
      split <;> first | omega | rfl
  case sheetNotice => cases hr; exact congrArg (fun h => Instr.sheetNotice _ _ _ _ _ h) (halfOf_bytes _)
  case packAnnounce => cases hr; exact congrArg (fun h => Instr.packAnnounce _ _ _ h _) (halfOf_bytes _)
  case tableRead => cases hr; exact congrArg (fun h => Instr.tableRead _ _ h _) (halfOf_bytes _)
  case tableWrite => cases hr; exact congrArg (fun h => Instr.tableWrite _ _ h _) (halfOf_bytes _)
  case tableMark => cases hr; exact congrArg (fun h => Instr.tableMark _ _ h) (halfOf_bytes _)
  all_goals first | (cases hr; rfl) | cases hr

end Sys2Proof

namespace Sys2Proof.Machine

/-! ### Reading a bank (R145, R156) -/

theorem byteOf_toNat (b : Byte) : byteOf b.toNat = b := by simp [byteOf]

theorem bytesOf_toNat (h : Half) : bytesOf h.toNat = [lowByte h, highByte h] := by
  have hlow : byteOf h.toNat = lowByte h := by
    apply BitVec.eq_of_toNat_eq
    simp [byteOf, lowByte]
  have hhigh : byteOf (h.toNat / 256) = highByte h := by
    apply BitVec.eq_of_toNat_eq
    simp [byteOf, highByte, Nat.shiftRight_eq_div_pow]
  rw [bytesOf, hlow, hhigh]

theorem isBank_eq_false {bank : Byte} (h : bank = 0 ∨ 10 < bank.toNat) : isBank bank.toNat = false := by
  rw [isBank, decide_eq_false_iff_not]
  rcases h with rfl | h
  · simp
  · omega

/-- The index that names an entry of a bank. -/
theorem refAt_isSome {bank : Nat} (hb : isBank bank = true) (index : Nat) :
    (refAt bank index).isSome = isIndex bank index := by
  simp only [isBank, decide_eq_true_eq] at hb
  obtain ⟨h1, h2⟩ := hb
  interval_cases bank <;> simp only [refAt, isIndex, bankFirst, bankCount] <;> split <;> simp <;> omega

/-- The entries from an index on: as many as are asked and as the bank has left. -/
theorem refsFrom_spec {bank : Nat} (hb : isBank bank = true) {α : Type} (f : EntryRef → List α) (n : Nat) :
    ∀ index, bankFirst bank ≤ index →
      (refsFrom bank index n).length = min n (bankFirst bank + bankCount bank - index)
      ∧ ((refsFrom bank index n).flatMap fun x => f x.2)
        = (List.range (min n (bankFirst bank + bankCount bank - index))).flatMap fun i =>
            ((refAt bank (index + i)).map f).getD [] := by
  induction n with
  | zero => exact fun index _ => ⟨by simp [refsFrom], by simp [refsFrom]⟩
  | succ n ih =>
    intro index hi
    have hsome := refAt_isSome hb index
    cases hr : refAt bank index with
    | none =>
      have hpast : bankFirst bank + bankCount bank - index = 0 := by
        rw [hr, isIndex] at hsome
        have := of_decide_eq_false hsome.symm
        omega
      rw [refsFrom, hr, hpast]
      exact ⟨rfl, by simp⟩
    | some e =>
      have hmin : min (n + 1) (bankFirst bank + bankCount bank - index)
          = min n (bankFirst bank + bankCount bank - (index + 1)) + 1 := by
        rw [hr, isIndex] at hsome
        have := of_decide_eq_true hsome.symm
        omega
      obtain ⟨hlen, hflat⟩ := ih (index + 1) (by omega)
      rw [refsFrom, hr, hmin]
      refine ⟨by rw [List.length_cons, hlen], ?_⟩
      rw [List.flatMap_cons, hflat, List.range_succ_eq_map, List.flatMap_cons, List.flatMap_map]
      simp only [Nat.add_zero, hr, Option.map_some, Option.getD_some, Nat.succ_eq_add_one, Nat.add_assoc, Nat.add_comm 1]

section
variable {w : Work} {bank index count : Nat}

theorem Work.tableRead_badBank (hb : isBank bank = false) :
    w.tableRead bank index count = w.answer kindTableRead .badValue := by
  unfold Work.tableRead
  rw [hb]
  rfl

theorem Work.tableRead_badIndex (hb : isBank bank = true) (hi : isIndex bank index = false) :
    w.tableRead bank index count = w.answer kindTableRead .badIndex := by
  unfold Work.tableRead
  rw [hb, hi]
  rfl

/-- A Table Read of an entry that there is carries the entries from it on. -/
theorem Work.tableRead_reads (hb : isBank bank = true) (hi : isIndex bank index = true) :
    let n := min count (min (bankReadLimit bank) (bankFirst bank + bankCount bank - index))
    w.tableRead bank index count = w.answer kindTableRead (if n = count then .accepted else .partialRun)
      ([byteOf bank] ++ bytesOf index ++ [byteOf n]
        ++ (List.range n).flatMap fun i => ((refAt bank (index + i)).map w.entryBytes).getD []) := by
  have hfirst : bankFirst bank ≤ index := (of_decide_eq_true hi).1
  obtain ⟨hlen, hflat⟩ := refsFrom_spec hb w.entryBytes (min count (bankReadLimit bank)) index hfirst
  unfold Work.tableRead
  dsimp only
  rw [hb, hi, hlen, hflat, min_assoc]
  rfl

end

/-! ### The causes (R178, R181) -/

theorem mem_allCauses (c : Cause) : c ∈ allCauses := by cases c <;> decide

theorem allCauses_sorted : allCauses.Pairwise fun a b => causeIndex a < causeIndex b := by decide

/-- The top cause comes first among the latches set and unmasked. -/
theorem State.topCause_iff {s : State} {c : Cause} : s.topCause = some c ↔ s.latched c = true ∧ s.masked c = false
    ∧ ∀ d : Cause, s.latched d = true → s.masked d = false → causeIndex c ≤ causeIndex d := by
  have hshown (d : Cause) : (s.latched d && !s.masked d) = true ↔ s.latched d = true ∧ s.masked d = false := by simp
  constructor
  · intro h
    obtain ⟨hc, before, after, hl, hnone⟩ := List.find?_eq_some_iff_append.1 h
    obtain ⟨hlatched, hmasked⟩ := (hshown c).1 hc
    refine ⟨hlatched, hmasked, fun d hd hm => ?_⟩
    have hsorted := allCauses_sorted
    rw [hl, List.pairwise_append, List.pairwise_cons] at hsorted
    obtain ⟨-, ⟨hfirst, -⟩, -⟩ := hsorted
    have hmem := mem_allCauses d
    rw [hl, List.mem_append, List.mem_cons] at hmem
    rcases hmem with hd' | rfl | hd'
    · have := hnone d hd'
      simp [hd, hm] at this
    · exact le_rfl
    · exact (hfirst d hd').le
  · rintro ⟨hlatched, hmasked, hfirst⟩
    have hsome : s.topCause.isSome = true := List.find?_isSome.2 ⟨c, mem_allCauses c, by simp [hlatched, hmasked]⟩
    obtain ⟨d, hd⟩ := Option.isSome_iff_exists.1 hsome
    obtain ⟨hc, before, after, hl, hnone⟩ := List.find?_eq_some_iff_append.1 hd
    obtain ⟨hdl, hdm⟩ := (hshown d).1 hc
    have hle := hfirst d hdl hdm
    have hsorted := allCauses_sorted
    rw [hl, List.pairwise_append, List.pairwise_cons] at hsorted
    obtain ⟨-, ⟨hafter, -⟩, -⟩ := hsorted
    have hmem := mem_allCauses c
    rw [hl, List.mem_append, List.mem_cons] at hmem
    rcases hmem with hc' | rfl | hc'
    · have := hnone c hc'
      simp [hlatched, hmasked] at this
    · exact hd
    · exact absurd (hafter c hc') (not_lt.2 hle)

/-- A pack waits for room where it is in turn, and its bin is in service and has no room for it (R23, R114). -/
theorem State.waitingForRoom_iff {s : State} {h : Handle} : s.waitingForRoom h = true ↔ ∃ b : BinId,
    (s.pack h).state = .ready
      ∧ (s.policyOf h = .unordered ∨ s.isClassHead h = true ∨ (s.pack h).flags.outOfTurn = true)
      ∧ s.binOf h = some b ∧ s.ret.bins[b].inService = true
      ∧ s.ret.bins[b].capacity < s.ret.bins[b].fill + (s.pack h).units := by
  unfold State.waitingForRoom State.servingBin
  cases hb : s.binOf h with
  | none => simp
  | some b =>
    by_cases hs : s.ret.bins[b].inService = true
    · simp [State.waitingIn, State.inTurn, State.hasRoom, State.servingBin, hb, hs, -Fin.getElem_fin, and_assoc,
        or_assoc]
    · simp [hs, -Fin.getElem_fin]

theorem State.binFull_live {s : State} : s.liveCondition .binFull = true ↔ ∃ h, s.waitingForRoom h = true := by
  simp only [State.liveCondition, State.waitingPacks, Bool.not_eq_true', List.isEmpty_eq_false_iff_exists_mem,
    List.mem_filter, State.mem_live]
  refine exists_congr fun h => ⟨And.right, fun hw => ⟨?_, hw⟩⟩
  obtain ⟨b, hready, -⟩ := State.waitingForRoom_iff.1 hw
  simp [hready]

/-! ### Clearing the latches (R182) -/

/-- A latch cleared along a list of causes. -/
theorem clear_latches_getElem (live : Cause → Bool) (c : Cause) (l : List Cause) (v : Vector Bool 15) :
    (l.foldl (fun v d => if live d then v else v.set (causeIndex d) false) v)[causeIndex c]
      = (v[causeIndex c] && !(decide (c ∈ l) && !live c)) := by
  induction l generalizing v with
  | nil => simp
  | cons d l ih =>
    rw [List.foldl_cons, ih]
    by_cases hd : d = c
    · subst hd
      cases live d <;> simp
    · have hne : (causeIndex d).val ≠ (causeIndex c).val := fun h => hd (causeIndex_injective (Fin.ext h))
      have hmem : c ≠ d := fun h => hd h.symm
      cases live d <;> simp [hne, hmem]

theorem Work.clearLatches_latched (w : Work) (c : Cause) :
    w.clearLatches.latched c = (w.latched c && w.liveCondition c) := by
  have h := clear_latches_getElem w.liveCondition c allCauses w.attn.latches
  rw [decide_eq_true (mem_allCauses c), Bool.true_and, Bool.not_not] at h
  exact h

/-- With fewer latches set no notice is due. -/
theorem Work.clearLatches_due {w : Work} (h : w.clearLatches.attentionDue = true) : w.attentionDue = true := by
  obtain ⟨c, hc, hd⟩ := List.any_eq_true.1 h
  refine List.any_eq_true.2 ⟨c, hc, ?_⟩
  rw [Work.clearLatches_latched] at hd
  simp only [Bool.and_eq_true] at hd ⊢
  exact ⟨hd.1.1, hd.2⟩

/-- A step that formed no notice and in which no latch is newly shown sets the ATTENTION output and queues its Result, its
Drain Completes and its Start Report. -/
theorem Work.finish_falling {w : Work} (hn : w.notices = []) (hf : w.attentionDue = true → w.attn.output = true) :
    w.finish = (w.setOutput w.attentionDue).finish := by
  have hjudge : w.judgeAttention = (w.setOutput w.attentionDue).judgeAttention := by
    rw [Work.judgeAttention_of_follows (w := w.setOutput w.attentionDue) rfl, Work.judgeAttention, if_neg]
    cases hd : w.attentionDue with
    | false => simp
    | true => simp [hf hd]
  have hsend : w.sendNotices = w ∧ (w.setOutput w.attentionDue).sendNotices = w.setOutput w.attentionDue := by
    constructor
    · rw [Work.sendNotices, hn]; rfl
    · rw [Work.sendNotices, show (w.setOutput w.attentionDue).notices = w.notices from rfl, hn]; rfl
  have hq : w.queued = (w.setOutput w.attentionDue).queued := by
    rw [Work.queued, Work.queued, hsend.1, hsend.2, hjudge]
    rfl
  rw [Work.finish, Work.finish, hq]

end Sys2Proof.Machine

namespace Sys2Proof.Proofs

open Sys2Proof.Machine

/-- Settles O22: each row of the layouts, read both ways. -/
theorem recordLayoutsRoundTrip : Obligations.RecordLayoutsRoundTrip := by
  unfold Obligations.RecordLayoutsRoundTrip
  refine ⟨instrOf_recordOf, fun r hl => ?_⟩
  rcases instrOf_carries r hl with h | h
  · rw [h]
    refine ⟨?_, rfl⟩
    simp only [Instr.WellFormed, Bool.and_eq_true, decide_eq_true_eq]
    exact ⟨hl, h⟩
  · exact h

/-- Settles O54: the entries of the bank from the index on, as `refsFrom_spec` gives them. -/
theorem tableReadCarriesTheEntries : Obligations.TableReadCarriesTheEntries := by
  unfold Obligations.TableReadCarriesTheEntries
  intro bank count index s ht hf answers after
  have heffect : (Instr.tableRead false bank index count).effect (Work.of (s.takenFor (.tableRead false bank index count)))
      = (Work.of (s.takenFor (.tableRead false bank index count))).tableRead bank.toNat index.toNat count.toNat := rfl
  refine ⟨fun hb => exec_answers ht hf (heffect.trans (Work.tableRead_badBank (isBank_eq_false hb))), fun h1 h10 => ?_⟩
  have hbank : isBank bank.toNat = true := decide_eq_true ⟨h1, h10⟩
  refine ⟨fun hi => ?bad, fun hlo hhi => ?reads⟩
  case bad =>
    exact exec_answers ht hf (heffect.trans (Work.tableRead_badIndex hbank (decide_eq_false (by omega))))
  case reads =>
    have hread := Work.tableRead_reads (w := Work.of (s.takenFor (.tableRead false bank index count)))
      (count := count.toNat) hbank (decide_eq_true ⟨hlo, hhi⟩ : isIndex bank.toNat index.toNat = true)
    dsimp only at hread
    rw [byteOf_toNat, bytesOf_toNat] at hread
    refine exec_answers ht hf (heffect.trans (hread.trans ?_))
    obtain ⟨k, hk, -⟩ := s.takenFor_link (.tableRead false bank index count)
    rw [hk]
    rfl

/-- Settles O31: the Result is formed from the state as it stands, and then the latches are cleared. -/
theorem statusReadReportsAndClears : Obligations.StatusReadReportsAndClears := by
  unfold Obligations.StatusReadReportsAndClears
  intro s ht hf
  refine ⟨?read, fun c => State.topCause_iff, fun c => ?live⟩
  case read =>
    obtain ⟨k, hk, htold, -⟩ := s.takenFor_link (.statusRead false)
    refine ⟨_, exec_taken ht, ?_⟩
    rw [hk]
    have heffect : (Instr.statusRead false).effect (Work.of { s with link := k })
        = (Work.of { s with link := k }).clearLatches.answer kindStatusRead .accepted s.statusBytes := rfl
    rw [heffect]
    generalize hw : Work.answer _ kindStatusRead .accepted s.statusBytes = w
    have hdue : w.attentionDue = true → w.attn.output = true := by
      intro hd
      rw [← hw] at hd ⊢
      exact hf.trans (Work.clearLatches_due (w := Work.of { s with link := k }) hd)
    have hfall := Work.finish_falling (w := w) (by rw [← hw]; rfl) hdue
    obtain ⟨hfin, hord⟩ := Work.finish_quiet (w := w.setOutput w.attentionDue) (by rw [← hw]; rfl) rfl
    have hwork : ({ s with link := k } : State).sameWork w.toState := by rw [← hw]; rfl
    refine ⟨hwork.trans w.finish_sameWork, ?_, fun c => ?_, w.finish_follows⟩
    · rw [hfall, hord, ← hw]
      change k.outbound ++ k.held ++ _ ++ _ ++ _ = _
      rw [htold]
      simp [Work.setOutput, Reply.record, State.statusBytes, Work.clearLatches]
    · rw [hfall, hfin, ← hw]
      exact Work.clearLatches_latched (Work.of { s with link := k }) c
  case live =>
    cases c
    case binFull =>
      rw [State.binFull_live]
      exact exists_congr fun h => State.waitingForRoom_iff
    case stop =>
      simp only [State.liveCondition]
      cases hr : s.run.state with
      | halt cause target => cases cause <;> simp
      | _ => simp
    case jam =>
      simp only [State.liveCondition]
      cases hr : s.run.state with
      | halt cause target => cases cause <;> simp
      | _ => simp
    case mechFault => simp [State.liveCondition, -Fin.getElem_fin, or_assoc, mem_allPockets]
    all_goals simp [State.liveCondition]

end Sys2Proof.Proofs
end

section
/-! SUPPORT. The receiver (R164 to R168), the inbound queue (R169) and the reply line (R170, R173 to R175): the settling of
`Obligations.RecordsWaitOrAreDiscarded`, `Obligations.CharactersAreAssembled`, `Obligations.RecordsCompleteOrSpoil`,
`Obligations.ReplyLineSends` and `Obligations.LinkBoundsKept`. -/

namespace Sys2Proof

/-! ### Frames (R164) -/

/-- The bits of a character: the start bit low, the data bits, the mark bit and the stop bit. -/
theorem frameWith_bits (k : CheckBits) (c : LineChar) : (frameWith k c).getLsbD 0 = false
    ∧ (∀ i : Fin 8, (frameWith k c).getLsbD (i + 1) = c.data.getLsbD i) ∧ (frameWith k c).getLsbD 9 = c.mark
    ∧ (frameWith k c).getLsbD 11 = k.stop := by
  simp only [frameWith, BitVec.getLsbD_append, BitVec.getLsbD_ofBool]
  exact ⟨by simp, fun i => by simp [i.isLt], by simp, by simp⟩

/-- The ones among data, mark and parity bit. -/
theorem ones_eq (f : Frame) : ((List.range 10).filter fun i => f.getLsbD (i + 1)).length
    = onesOf (charOf f).data + (f.getLsbD 9).toNat + (f.getLsbD 10).toNat := by
  have hdata : onesOf (charOf f).data = ((List.range 8).filter fun i => f.getLsbD (i + 1)).length := by
    refine congrArg List.length (List.filter_congr fun i hi => ?_)
    have hlt : i < 8 := List.mem_range.1 hi
    simp [charOf, hlt, Nat.add_comm]
  rw [hdata, show List.range 10 = List.range 8 ++ [8] ++ [9] from rfl, List.filter_append, List.filter_append,
    List.length_append, List.length_append]
  have hone (i : Nat) : ([i].filter fun i => f.getLsbD (i + 1)).length = (f.getLsbD (i + 1)).toNat := by
    cases h : f.getLsbD (i + 1) <;> simp [h]
  rw [hone, hone]

theorem frameSound_iff (f : Frame) : frameSound f = true
    ↔ ((List.range 10).filter fun i => f.getLsbD (i + 1)).length % 2 = 0 ∧ f.getLsbD 11 = true := by
  rw [ones_eq, frameSound, parityError, framingError, parityOf]
  generalize onesOf (charOf f).data = n
  have hmark : (charOf f).mark = f.getLsbD 9 := rfl
  rw [hmark, Bool.and_eq_true, Bool.not_not, Bool.not_eq_true', bne_eq_false_iff_eq]
  refine and_congr_left fun _ => ?_
  cases f.getLsbD 10
  · simp
  · simp only [Bool.toNat_true, true_eq_decide_iff]
    omega

/-- Taking from a range while a condition holds stops where it first fails. -/
theorem takeWhile_range_length {p : Nat → Bool} {n m : Nat} (hn : n ≤ m) (h : ∀ i < n, p i = true)
    (hf : n < m → p n = false) : ((List.range m).takeWhile p).length = n := by
  obtain ⟨k, rfl⟩ := Nat.exists_eq_add_of_le hn
  rw [List.range_add, List.takeWhile_append_of_pos (fun i hi => h i (List.mem_range.1 hi)), List.length_append,
    List.length_range]
  cases k with
  | zero => simp
  | succ k =>
    rw [List.range_succ_eq_map, List.map_cons, List.takeWhile_cons, Nat.add_zero, hf (by omega)]
    rfl

theorem instrOfFrame_ne_lineBreak (f : Frame) : instrOfFrame f ≠ .lineBreak := by
  unfold instrOfFrame
  dsimp only
  split
  · nofun
  · split <;> nofun

/-- A character that ends in `n` low bits, the line staying low for `low` bit times more (R164, assumption 34). -/
theorem instrOfLine_eq {f : Frame} {n low : Nat} (hn : n ≤ 12) (h : ∀ i < n, f.getLsbD (11 - i) = false)
    (hf : n < 12 → f.getLsbD (11 - n) = true) :
    instrOfLine f low = if 0 < n ∧ 24 < n + low then .lineBreak else instrOfFrame f := by
  have htail : lowTail f = n := takeWhile_range_length hn (fun i hi => by simp [h i hi]) fun hlt => by simp [hf hlt]
  have hframing : framingError f = decide (0 < n) := by
    rcases Nat.eq_zero_or_pos n with rfl | hpos
    · simpa [framingError] using hf (by omega)
    · simpa [framingError, hpos] using h 0 hpos
  unfold instrOfLine
  rw [htail, hframing, isBreak]
  by_cases h0 : 0 < n <;> by_cases h24 : 24 < n + low <;> simp [h0, h24]

end Sys2Proof

namespace Sys2Proof.Machine

/-! ### A record offered (R169, R170) -/

/-- A record that joins leaves HOLD on, or finds HOLD_HIGH reached. -/
theorem LinkPort.judgeJoin_hold (l : LinkPort) (v : Settings) :
    (l.judgeJoin v).hold = (l.hold || decide (v.holdHigh ≤ l.inbound.length)) := by
  unfold LinkPort.judgeJoin
  cases hh : l.hold
  · by_cases hn : v.holdHigh ≤ l.inbound.length <;> simp [hn, hh, LinkPort.setHold]
  · simp [hh]

theorem LinkPort.judgeJoin_pacing (l : LinkPort) (v : Settings) : (l.judgeJoin v).pacing
    = if (l.judgeJoin v).hold = l.hold then l.pacing else if l.pacing = none then some .hold else none := by
  unfold LinkPort.judgeJoin
  cases hh : l.hold
  · by_cases hn : v.holdHigh ≤ l.inbound.length
    · cases hp : l.pacing <;> simp [hn, hp, LinkPort.setHold]
    · simp [hn, hh]
  · simp [hh]

/-- The judging of HOLD changes nothing but HOLD and the pacing character due. -/
theorem LinkPort.judgeJoin_eq (l : LinkPort) (v : Settings) :
    l.judgeJoin v = { l with hold := (l.judgeJoin v).hold, pacing := (l.judgeJoin v).pacing } := by
  unfold LinkPort.judgeJoin
  split <;> rfl

theorem Work.latched_latch_self (w : Work) (c : Cause) : (w.latch c).latched c = true := by
  rw [Work.latched_latch, decide_eq_true rfl, Bool.true_or]

section
variable (w : Work)

/-- A Result that the receiver forms where `b` says so and the outbound queue has room for it. -/
def LinkPort.formed (l : LinkPort) (b : Bool) (r : OutRecord) : List OutRecord := if b && l.hasRoom then [r] else []

theorem Work.receiverResult_eq (k : Byte) (st : Status) : w.receiverResult k st
    = { w with link := { w.link with outbound := w.link.outbound ++ w.link.formed true (.result k st {} []) } } := by
  unfold Work.receiverResult LinkPort.formed
  cases w.link.hasRoom <;> simp

theorem Work.offer_joins {r : Record} (h : w.link.inbound.length < 32) : w.offer r
    = { w with link := LinkPort.judgeJoin { w.link with inbound := w.link.inbound ++ [r] } w.tables.settings } :=
  if_pos h

theorem Work.offer_overruns {r : Record} (h : 32 ≤ w.link.inbound.length) : w.offer r
    = { w.latch .overrun with link := { w.link with
        outbound := w.link.outbound ++ w.link.formed (!r.bcast) (.result r.kind .overrun {} []) } } := by
  unfold Work.offer
  rw [if_neg (Nat.not_lt.2 (show Config.inboundSize ≤ _ from h))]
  dsimp only
  cases r.bcast
  · rw [if_neg (by simp), Work.receiverResult_eq]
    rfl
  · rw [if_pos rfl, LinkPort.formed]
    simp
    rfl

/-- The record in hand is for this station. -/
def Receiver.isOwn : Receiver → Bool
  | .assembling false _ => true
  | _ => false

/-- The kind received of the record in hand, 0 where none was. -/
def Receiver.kind : Receiver → Byte
  | .assembling _ got => got.headD 0
  | _ => 0

theorem Work.spoil_eq : w.spoil = { w.latch .linkError with link := { w.link with
    outbound := w.link.outbound ++ w.link.formed w.link.receiver.isOwn (.result w.link.receiver.kind .lineError {} [])
    receiver := .waiting } } := by
  unfold Work.spoil
  dsimp only
  cases hr : w.link.receiver with
  | assembling b got =>
    cases b
    · dsimp only
      rw [Work.receiverResult_eq]
      rfl
    · simp [Receiver.isOwn, LinkPort.formed, Work.setReceiver]
  | waiting => simp [Receiver.isOwn, LinkPort.formed, Work.setReceiver]
  | skipping => simp [Receiver.isOwn, LinkPort.formed, Work.setReceiver]

end

/-- The outbound queue has room only while the held list is empty. -/
theorem LinkPort.held_of_hasRoom {l : LinkPort} (h : l.hasRoom = true) : l.held = [] := by
  simpa using (Bool.and_eq_true_iff.1 h).2

theorem LinkPort.formed_told (l : LinkPort) (b : Bool) (r : OutRecord) :
    l.outbound ++ l.formed b r ++ l.held = l.outbound ++ l.held ++ l.formed b r := by
  unfold LinkPort.formed
  split
  · next h => simp [LinkPort.held_of_hasRoom (Bool.and_eq_true_iff.1 h).2]
  · simp

section
variable (w : Work) (r : Record)

@[simp] theorem Work.offer_receiver : (w.offer r).link.receiver = w.link.receiver := by
  rcases Nat.lt_or_ge w.link.inbound.length 32 with h | h
  · rw [w.offer_joins h, LinkPort.judgeJoin_eq]
  · rw [w.offer_overruns h]

@[simp] theorem Work.offer_echoes : (w.offer r).link.echoes = w.link.echoes := by
  rcases Nat.lt_or_ge w.link.inbound.length 32 with h | h
  · rw [w.offer_joins h, LinkPort.judgeJoin_eq]
  · rw [w.offer_overruns h]

variable {w r}

theorem Work.offer_inbound (h : w.link.inbound.length < 32) : (w.offer r).link.inbound = w.link.inbound ++ [r] := by
  rw [w.offer_joins h, LinkPort.judgeJoin_eq]

theorem Work.offer_hold (h : w.link.inbound.length < 32) : (w.offer r).link.hold
    = (w.link.hold || decide (w.tables.settings.holdHigh ≤ w.link.inbound.length + 1)) := by
  rw [w.offer_joins h]
  exact (LinkPort.judgeJoin_hold _ _).trans (by simp)

theorem Work.offer_pacing (h : w.link.inbound.length < 32) : (w.offer r).link.pacing
    = if (w.offer r).link.hold = w.link.hold then w.link.pacing
      else if w.link.pacing = none then some .hold else none := by
  rw [w.offer_joins h]
  exact LinkPort.judgeJoin_pacing _ _

theorem Work.offer_told (h : w.link.inbound.length < 32) : (w.offer r).told = w.told := by
  rw [w.offer_joins h, State.told, LinkPort.judgeJoin_eq]
  rfl

theorem Work.offer_attn (h : w.link.inbound.length < 32) : (w.offer r).attn = w.attn := by rw [w.offer_joins h]

theorem Work.offer_inbound_full (h : 32 ≤ w.link.inbound.length) : (w.offer r).link.inbound = w.link.inbound := by
  rw [w.offer_overruns h]

theorem Work.offer_overrun (h : 32 ≤ w.link.inbound.length) : (w.offer r).latched .overrun = true := by
  rw [w.offer_overruns h]
  exact Work.latched_latch_self w _

theorem Work.offer_told_full (h : 32 ≤ w.link.inbound.length) :
    (w.offer r).told = w.told ++ w.link.formed (!r.bcast) (.result r.kind .overrun {} []) := by
  rw [w.offer_overruns h]
  exact LinkPort.formed_told _ _ _

end

/-! ### The end of a step of the receiver -/

section
variable {s : State} {w : Work}

theorem Work.LinkOnly.sameWork (h : (Work.of s).LinkOnly w) : s.sameWork w.finish := by
  obtain ⟨l, a, rfl⟩ := h
  exact Work.finish_sameWork { Work.of s with link := l, attn := a }

/-- A step that formed no notice, no Result and no report queues event notices alone. -/
theorem Work.LinkOnly.finish_told (h : (Work.of s).LinkOnly w) :
    ∃ x, (∀ o ∈ x, OutRecord.isNotice o = true) ∧ w.finish.told = w.told ++ x := by
  obtain ⟨l, a, rfl⟩ := h
  obtain ⟨x, hx, ht⟩ := Work.finish_order (w := { Work.of s with link := l, attn := a }) rfl
  refine ⟨x, hx, ht.trans ?_⟩
  simp [Work.of]

/-- A Result that the receiver forms where the outbound queue has room stands behind all that was queued. -/
theorem Work.LinkOnly.finish_formed (h : (Work.of s).LinkOnly w) {u : State} {l : LinkPort} {r : OutRecord}
    (ht : w.told = u.told ++ l.formed true r) (hr : l.hasRoom = true) : u.tells w.finish r := by
  obtain ⟨x, -, hx⟩ := h.finish_told
  refine ⟨[], x, ?_⟩
  rw [hx, ht, LinkPort.formed, hr]
  simp

end

/-- A step that changed the Link Port alone queues nothing and changes nothing else. -/
theorem Work.finish_withLink {u : State} {l : LinkPort} (h : u.attentionFollows) :
    ({ Work.of u with link := l } : Work).finish = { u with link := ({ Work.of u with link := l } : Work).finish.link }
    ∧ ({ Work.of u with link := l } : Work).finish.told = ({ Work.of u with link := l } : Work).told := by
  obtain ⟨hstate, htold⟩ := Work.finish_quiet (w := { Work.of u with link := l }) rfl h
  exact ⟨hstate, htold.trans (by simp [Work.of])⟩

/-- A record taken that is discarded: nothing is formed, and the reply line goes on. -/
theorem Work.of_finish {u : State} (h : u.attentionFollows) :
    (Work.of u).finish = { u with link := u.link.boundary } := by
  have hj : (Work.of u).judgeAttention = Work.of u := Work.judgeAttention_of_follows h
  have hq : (Work.of u).queued = Work.of u := by
    rw [Work.queued, show (Work.of u).sendNotices = Work.of u from rfl, hj]
    rfl
  rw [Work.finish, hq]
  rfl

/-! ### A record completed (R166, R169) -/

section
variable (s : State) (r : Record)

/-- What a step ends in whose command is a record just completed that joins the inbound queue or overruns. -/
def State.offered : State := ((Work.of (s.completed r)).offer r).finish

theorem State.completed_told : (s.completed r).told = s.told := by simp [State.told]

theorem State.completed_hasRoom : (s.completed r).link.hasRoom = s.link.hasRoom := by simp [LinkPort.hasRoom]

theorem State.offered_sameWork : s.sameWork (s.offered r) :=
  State.sameWork.trans (t := s.completed r) rfl (Work.linkOnly_offer (Work.of (s.completed r)) r).sameWork

theorem State.offered_receiver : (s.offered r).link.receiver = .waiting := by
  rw [State.offered, ((Work.of (s.completed r)).offer r).finish_queues.receiver, Work.offer_receiver]
  exact s.completed_receiver r

theorem State.offered_echoes : (s.offered r).link.echoes
    = if s.link.loopback = true ∧ s.link.echoes.length < 32 then s.link.echoes ++ [⟨false, r.payload.getLastD 0⟩]
      else s.link.echoes := by
  rw [State.offered, ((Work.of (s.completed r)).offer r).finish_queues.echoes, Work.offer_echoes]
  exact s.link.echo_echoes _

variable {s r}

section
variable (h : s.link.inbound.length < 32)
include h

theorem State.offered_inbound : (s.offered r).link.inbound = s.link.inbound ++ [r] := by
  rw [State.offered, ((Work.of (s.completed r)).offer r).finish_queues.inbound,
    Work.offer_inbound (w := Work.of (s.completed r)) (by simpa using h)]
  simp

theorem State.offered_hold : (s.offered r).link.hold
    = (s.link.hold || decide (s.tables.settings.holdHigh ≤ s.link.inbound.length + 1)) := by
  rw [State.offered, ((Work.of (s.completed r)).offer r).finish_queues.hold,
    Work.offer_hold (w := Work.of (s.completed r)) (by simpa using h)]
  simp

theorem State.offered_pacing : (s.offered r).link.pacing
    = if (s.offered r).link.hold = s.link.hold then s.link.pacing
      else if s.link.pacing = none then some .hold else none := by
  rw [State.offered, ((Work.of (s.completed r)).offer r).finish_queues.hold,
    ((Work.of (s.completed r)).offer r).finish_queues.pacing,
    Work.offer_pacing (w := Work.of (s.completed r)) (by simpa using h)]
  simp

/-- A record that joins changes the Link Port alone, and queues nothing. -/
theorem State.offered_quiet (hf : s.attentionFollows) :
    s.offered r = { s with link := (s.offered r).link } ∧ (s.offered r).told = s.told := by
  have hw : (Work.of (s.completed r)).offer r
      = { Work.of (s.completed r) with link := ((Work.of (s.completed r)).offer r).link } := by
    rw [Work.offer_joins _ (by simpa using h)]
  have hquiet := Work.finish_withLink (u := s.completed r) (l := ((Work.of (s.completed r)).offer r).link) hf
  rw [← hw] at hquiet
  refine ⟨hquiet.1, hquiet.2.trans ?_⟩
  rw [Work.offer_told (by simpa using h)]
  exact s.completed_told r

end

section
variable (h : 32 ≤ s.link.inbound.length)
include h

theorem State.offered_inbound_full : (s.offered r).link.inbound = s.link.inbound := by
  rw [State.offered, ((Work.of (s.completed r)).offer r).finish_queues.inbound,
    Work.offer_inbound_full (w := Work.of (s.completed r)) (by simpa using h)]
  exact s.completed_link_inbound r

theorem State.offered_overrun : (s.offered r).latched .overrun = true :=
  Work.finish_latched _ _ (Work.offer_overrun (w := Work.of (s.completed r)) (by simpa using h))

theorem State.offered_tells (hb : r.bcast = false) (hr : s.link.hasRoom = true) :
    s.tells (s.offered r) (.result r.kind .overrun {} []) := by
  refine (Work.linkOnly_offer (Work.of (s.completed r)) r).finish_formed (l := (s.completed r).link)
    ((Work.offer_told_full (w := Work.of (s.completed r)) (by simpa using h)).trans ?_) ?_
  · rw [hb, ← s.completed_told r]
    rfl
  · rw [s.completed_hasRoom, hr]

end
end

/-! ### A character taken (R165, R166, R168, R175) -/

/-- The character is echoed in loopback. -/
def Work.echoed (w : Work) (c : LineChar) : Work := { w with link := w.link.echo c }

/-- A control character cuts short a record being assembled. -/
def Work.cutShort (w : Work) : Work := if w.link.receiver.isAssembling then w.spoil else w

section
variable (w : Work) (mark : Bool) (d : Byte)

theorem Work.receive_erroneous : w.receive false mark d = (w.echoed ⟨mark, d⟩).spoil := rfl

theorem Work.receive_data : w.receive true false d = (w.echoed ⟨false, d⟩).takeData d := rfl

theorem Work.receive_control : w.receive true true d
    = if d.toNat ≤ 4 then (w.echoed ⟨true, d⟩).cutShort.takeAddress d.toNat else (w.echoed ⟨true, d⟩).cutShort := rfl

@[simp] theorem Work.echoed_receiver (c : LineChar) : (w.echoed c).link.receiver = w.link.receiver :=
  w.link.echo_receiver c

@[simp] theorem Work.echoed_inbound (c : LineChar) : (w.echoed c).link.inbound = w.link.inbound := w.link.echo_inbound c

@[simp] theorem Work.echoed_told (c : LineChar) : (w.echoed c).told = w.told := by simp [Work.echoed, State.told]

theorem Work.echoed_formed (c : LineChar) (b : Bool) (r : OutRecord) :
    (w.echoed c).link.formed b r = w.link.formed b r := by
  simp [Work.echoed, LinkPort.formed, LinkPort.hasRoom]

@[simp] theorem Work.spoil_receiver : w.spoil.link.receiver = .waiting := by rw [w.spoil_eq]

@[simp] theorem Work.spoil_inbound : w.spoil.link.inbound = w.link.inbound := by rw [w.spoil_eq]

@[simp] theorem Work.spoil_echoes : w.spoil.link.echoes = w.link.echoes := by rw [w.spoil_eq]

@[simp] theorem Work.spoil_run : w.spoil.run = w.run := by rw [w.spoil_eq]; rfl

theorem Work.spoil_latched : w.spoil.latched .linkError = true := by
  rw [w.spoil_eq]
  exact Work.latched_latch_self w _

theorem Work.spoil_told : w.spoil.told
    = w.told ++ w.link.formed w.link.receiver.isOwn (.result w.link.receiver.kind .lineError {} []) := by
  rw [w.spoil_eq]
  exact LinkPort.formed_told _ _ _

theorem Work.cutShort_receiver : w.cutShort.link.receiver
    = if w.link.receiver.isAssembling then .waiting else w.link.receiver := by
  unfold Work.cutShort
  split
  · exact w.spoil_receiver
  · rfl

theorem Work.cutShort_echoes : w.cutShort.link.echoes = w.link.echoes := by
  unfold Work.cutShort
  split
  · exact w.spoil_echoes
  · rfl

theorem Work.cutShort_run : w.cutShort.run = w.run := by
  unfold Work.cutShort
  split
  · exact w.spoil_run
  · rfl

theorem Work.takeAddress_receiver (n : Nat) : (w.takeAddress n).link.receiver = if n = 0 then .assembling true []
    else if n = w.run.straps.station.val + 1 then .assembling false [] else .skipping := by
  unfold Work.takeAddress
  split
  · rfl
  · split <;> rfl

theorem Work.takeAddress_echoes (n : Nat) : (w.takeAddress n).link.echoes = w.link.echoes := by
  unfold Work.takeAddress
  split
  · rfl
  · split <;> rfl

theorem Work.takeAddress_told (n : Nat) : (w.takeAddress n).told = w.told := by
  unfold Work.takeAddress
  split
  · rfl
  · split <;> rfl

theorem Work.takeAddress_attn (n : Nat) : (w.takeAddress n).attn = w.attn := by
  unfold Work.takeAddress
  split
  · rfl
  · split <;> rfl

/-! #### A data character (R166) -/

variable {w d}

theorem Work.takeData_idle (h : w.link.receiver.isAssembling = false) : w.takeData d = w := by
  unfold Work.takeData
  cases hr : w.link.receiver with
  | assembling b got => rw [hr] at h; cases h
  | waiting => rfl
  | skipping => rfl

theorem Work.takeData_kind {b : Bool} (h : w.link.receiver = .assembling b []) :
    w.takeData d = w.setReceiver (.assembling b [d]) := by
  unfold Work.takeData
  rw [h]

theorem Work.takeData_long {b : Bool} {k : Byte} (h : w.link.receiver = .assembling b [k]) (hd : 60 < d.toNat) :
    w.takeData d = w.spoil := by
  unfold Work.takeData
  rw [h]
  exact if_pos hd

theorem Work.takeData_empty {b : Bool} {k : Byte} (h : w.link.receiver = .assembling b [k]) :
    w.takeData 0 = (w.setReceiver .waiting).offer ⟨b, k, []⟩ := by
  unfold Work.takeData
  rw [h]
  rfl

theorem Work.takeData_length {b : Bool} {k : Byte} (h : w.link.receiver = .assembling b [k]) (h1 : 1 ≤ d.toNat)
    (h60 : d.toNat ≤ 60) : w.takeData d = w.setReceiver (.assembling b [k, d]) := by
  unfold Work.takeData
  rw [h]
  exact (if_neg (Nat.not_lt.2 h60)).trans (if_neg (Nat.ne_of_gt h1))

theorem Work.takeData_more {b : Bool} {k l : Byte} {p : List Byte} (h : w.link.receiver = .assembling b (k :: l :: p))
    (hl : p.length + 1 ≠ l.toNat) : w.takeData d = w.setReceiver (.assembling b (k :: l :: (p ++ [d]))) := by
  unfold Work.takeData
  rw [h]
  exact if_neg hl

theorem Work.takeData_last {b : Bool} {k l : Byte} {p : List Byte} (h : w.link.receiver = .assembling b (k :: l :: p))
    (hl : p.length + 1 = l.toNat) : w.takeData d = (w.setReceiver .waiting).offer ⟨b, k, p ++ [d]⟩ := by
  unfold Work.takeData
  rw [h]
  exact if_pos hl

theorem Work.takeData_echoes (w : Work) (d : Byte) : (w.takeData d).link.echoes = w.link.echoes := by
  unfold Work.takeData
  split
  · rfl
  · split
    · exact w.spoil_echoes
    · split
      · exact Work.offer_echoes _ _
      · rfl
  · split
    · exact Work.offer_echoes _ _
    · rfl
  · rfl

/-- A character, sound or not, is echoed in loopback. -/
theorem Work.receive_echoes (w : Work) (sound mark : Bool) (d : Byte) :
    (w.receive sound mark d).link.echoes = (w.link.echo ⟨mark, d⟩).echoes := by
  cases sound
  · exact (w.echoed ⟨mark, d⟩).spoil_echoes
  · cases mark
    · exact (w.echoed ⟨false, d⟩).takeData_echoes d
    · rw [Work.receive_control]
      split
      · rw [Work.takeAddress_echoes, Work.cutShort_echoes]
        rfl
      · exact (w.echoed ⟨true, d⟩).cutShort_echoes

end

/-- What a spoiled record that came addressed as `b` says, with its kind `k`, brings (R168): LINK_ERROR, and a LINE_ERROR
Result where it was for this station and the outbound queue has room. -/
theorem Work.LinkOnly.finish_spoiled {s : State} {w : Work} {b : Bool} {k : Byte} (h : (Work.of s).LinkOnly w)
    (hl : w.latched .linkError = true) (ht : w.told = s.told ++ s.link.formed (!b) (.result k .lineError {} [])) :
    w.finish.latched .linkError = true
    ∧ (b = false → s.link.hasRoom = true → s.tells w.finish (.result k .lineError {} []))
    ∧ (b = true ∨ s.link.hasRoom = false →
        ∃ x, w.finish.told = s.told ++ x ∧ ∀ o ∈ x, OutRecord.isNotice o = true) := by
  refine ⟨w.finish_latched _ hl, fun hb hr => ?_, fun hn => ?_⟩
  · subst hb
    exact h.finish_formed ht hr
  · obtain ⟨x, hx, hfin⟩ := h.finish_told
    have hnone : s.link.formed (!b) (.result k .lineError {} []) = [] := by
      rcases hn with rfl | hr
      · rfl
      · simp [LinkPort.formed, hr]
    exact ⟨x, by rw [hfin, ht, hnone, List.append_nil], hx⟩

/-! ### The reply line (R170, R173 to R175) -/

section
variable (l : LinkPort)

theorem LinkPort.waits_iff : l.waits = true ↔ l.pacing ≠ none ∨ l.echoes ≠ [] := by
  unfold LinkPort.waits
  cases l.pacing <;> cases l.echoes <;> simp

/-- At a boundary the record begun goes on, and one is begun where none is and nothing waits. -/
theorem LinkPort.boundary_sending : l.boundary.sending
    = if (l.pacing ≠ none ∨ l.echoes ≠ []) ∨ l.outbound = [] then l.sending else some (l.sending.getD 0) := by
  simp only [← l.waits_iff]
  unfold LinkPort.boundary
  cases l.waits <;> cases l.outbound <;> simp

theorem LinkPort.boundary_stalled : l.boundary.stalled = (l.waits && l.stalled) := by
  unfold LinkPort.boundary
  cases l.waits <;> simp

/-- A boundary changes nothing but where the reply line stands. -/
theorem LinkPort.boundary_eq : l.boundary
    = { l with sending := l.boundary.sending, line := l.boundary.line, stalled := l.boundary.stalled } := by
  unfold LinkPort.boundary
  split <;> rfl

theorem LinkPort.gone_stalled {station : Fin 4} {now : Time} (h : l.stalled = true) : l.gone station now = [] := by
  rw [LinkPort.gone, h]
  rfl

theorem LinkPort.gone_idle {station : Fin 4} {now : Time} (h : l.sending = none) : l.gone station now = [] := by
  unfold LinkPort.gone LinkPort.left
  rw [h]
  split <;> simp

/-- What has gone of a record begun is a part of it that its last character is never in. -/
theorem LinkPort.gone_prefix {station : Fin 4} {now : Time} {n : Nat} {r : OutRecord} {rest : List OutRecord}
    (hs : l.sending = some n) (ho : l.outbound = r :: rest) (hn : n < (r.characters station).length) :
    ∃ left, left ≠ [] ∧ (r.characters station).drop n = l.gone station now ++ left := by
  have hleft : l.left station = (r.characters station).drop n := by rw [LinkPort.left, hs, ho]
  have hpos : 0 < (l.left station).length := by rw [hleft, List.length_drop]; omega
  unfold LinkPort.gone
  split
  · exact ⟨l.left station, List.ne_nil_of_length_pos hpos, by rw [hleft]; rfl⟩
  · have hlt := Nat.mod_lt (Config.charactersGone now.toNat l.boundaries) hpos
    dsimp only
    refine ⟨(l.left station).drop (Config.charactersGone now.toNat l.boundaries % (l.left station).length), ?_, ?_⟩
    · refine List.ne_nil_of_length_pos ?_
      rw [List.length_drop]
      omega
    · rw [List.take_append_drop, hleft]

end

/-- The record begun has gone: its place goes to the head of the held list. -/
theorem LinkPort.recordSent_sends (l : LinkPort) (station : Fin 4) {n : Nat} {r : OutRecord} {rest : List OutRecord}
    (hs : l.sending = some n) (ho : l.outbound = r :: rest) :
    l.recordSent station = { l with
      outbound := rest ++ l.held.take 1, held := l.held.tail, sending := none, line := (r.characters station).drop n
      stalled := false } := by
  have hleft : l.left station = (r.characters station).drop n := by rw [LinkPort.left, hs, ho]
  unfold LinkPort.recordSent
  rw [hleft, ho]
  cases l.held <;> simp

/-- At the boundary behind it the next record is begun, where nothing waits. -/
theorem LinkPort.recordSent_boundary (l : LinkPort) (station : Fin 4) {n : Nat} {r : OutRecord} {rest : List OutRecord}
    (hs : l.sending = some n) (hst : l.stalled = false) (ho : l.outbound = r :: rest) :
    (l.recordSent station).boundary = { l with
      outbound := rest ++ l.held.take 1, held := l.held.tail, line := (r.characters station).drop n
      sending := if (l.pacing ≠ none ∨ l.echoes ≠ []) ∨ rest ++ l.held.take 1 = [] then none else some 0 } := by
  rw [LinkPort.recordSent_sends l station hs ho, LinkPort.boundary_eq, LinkPort.boundary_sending,
    LinkPort.boundary_stalled, Bool.and_false, LinkPort.boundary_line, ← hst]
  rfl

/-- A character that waited ahead of the record characters has gone from `s`, `l` being the Link Port without it. -/
def State.sentAside (s : State) (l : LinkPort) (c : LineChar) : State :=
  { s with link := (l.sendAside s.run.straps.station s.now c).boundary }

section
variable {s : State} {l : LinkPort} {c : LineChar}

theorem State.sentAside_eq : s.sentAside l c = { s with link := { l with
    sending := (s.sentAside l c).link.sending, line := (s.sentAside l c).link.line
    stalled := (s.sentAside l c).link.stalled, boundaries := l.boundaries + 1 } } :=
  congrArg (fun k => { s with link := k }) (LinkPort.boundary_eq (l.sendAside s.run.straps.station s.now c))

theorem State.sentAside_stalled : (s.sentAside l c).link.stalled = l.waits := by
  rw [State.sentAside, LinkPort.boundary_stalled]
  exact Bool.and_true _

theorem State.sentAside_line : (s.sentAside l c).link.line = l.gone s.run.straps.station s.now ++ [c] :=
  LinkPort.boundary_line _

theorem State.sentAside_sending : (s.sentAside l c).link.sending
    = let sent := l.sending.map fun n => n + (l.gone s.run.straps.station s.now).length
      if (l.pacing ≠ none ∨ l.echoes ≠ []) ∨ l.outbound = [] then sent else some (sent.getD 0) :=
  LinkPort.boundary_sending _

end

end Sys2Proof.Machine

namespace Sys2Proof.Proofs

open Sys2Proof.Machine

/-- Settles O24: a record taken is discarded as R167 and R175 give, one at the head waits, and a completed one is offered
to the inbound queue (`State.offered`). -/
theorem recordsWaitOrAreDiscarded : Obligations.RecordsWaitOrAreDiscarded := by
  unfold Obligations.RecordsWaitOrAreDiscarded
  intro c r s hr hf
  refine ⟨fun ht hd => ?discarded, fun hh hn => ?waits, fun hh hn => ?joins⟩
  case discarded =>
    rw [exec_record hr, State.takeRecord_taken _ ht, ← Work.of_finish (State.taken_attentionFollows hf)]
    have hdrop : handleRecord r c.effect (Work.of (s.taken r)) = Work.of (s.taken r) := by
      have hloop : (Work.of (s.taken r)).link.loopback = s.link.loopback := s.taken_loopback r
      unfold handleRecord
      rw [hloop]
      rcases hd with ⟨hl, hk⟩ | ⟨hb, hk, hw⟩
      · simp [hl, hk]
      · simp [hb, hk, hw]
    rw [hdrop]
  case waits => rw [exec_record hr, State.takeRecord_waits _ hh hn]
  case joins =>
    refine ⟨s.offered r, by rw [exec_record hr, State.takeRecord_joins _ hh hn]; rfl, s.offered_receiver r,
      s.offered_echoes r, fun hlt => ?_, fun hge => ?_⟩
    · obtain ⟨hstate, htold⟩ := State.offered_quiet (r := r) hlt hf
      exact ⟨hstate, State.offered_inbound hlt, htold, State.offered_hold hlt, State.offered_pacing hlt⟩
    · exact ⟨s.offered_sameWork r, State.offered_inbound_full hge, State.offered_overrun hge, State.offered_tells hge⟩

/-- Settles O27: a control character by `Work.receive_control`, a data character by the branches of `Work.takeData`. -/
theorem charactersAreAssembled : Obligations.CharactersAreAssembled := by
  unfold Obligations.CharactersAreAssembled
  intro s d spoiled
  have hexec (mark : Bool) : exec (.inboundCharacterTaken mark d) s = .next ((Work.of s).receive true mark d).finish :=
    exec_event rfl s
  refine ⟨fun mark => ?taken, fun b k hr hd => ?empty, fun b k l p hr hl => ?last⟩
  case taken =>
    have honly := (Work.of s).linkOnly_receive true mark d
    have hq := ((Work.of s).receive true mark d).finish_queues
    refine ⟨_, hexec mark, honly.sameWork, ?_, fun hm => ?control, fun hm => ?data⟩
    · rw [hq.echoes, Work.receive_echoes]
      exact s.link.echo_echoes _
    case control =>
      subst hm
      refine ⟨?_, fun b got hr => honly.finish_spoiled ?_ ?_⟩
      · rw [hq.receiver, Work.receive_control]
        have hcut : ((Work.of s).echoed ⟨true, d⟩).cutShort.link.receiver
            = if s.link.receiver.isAssembling then .waiting else s.link.receiver := by
          rw [Work.cutShort_receiver, Work.echoed_receiver]
          rfl
        have hrun : ((Work.of s).echoed ⟨true, d⟩).cutShort.run = s.run := Work.cutShort_run _
        have hstation := s.run.straps.station.isLt
        split
        · rw [Work.takeAddress_receiver, hrun]
        · next h4 =>
          rw [if_neg (show ¬d.toNat = 0 by omega), if_neg (show ¬d.toNat = s.run.straps.station.val + 1 by omega), hcut]
      all_goals
        have hcut : ((Work.of s).echoed ⟨true, d⟩).cutShort = ((Work.of s).echoed ⟨true, d⟩).spoil := by
          refine if_pos ?_
          rw [Work.echoed_receiver]
          exact congrArg Receiver.isAssembling hr
        rw [Work.receive_control, hcut]
      · have hlatch := ((Work.of s).echoed ⟨true, d⟩).spoil_latched
        split
        · rw [State.latched, Work.takeAddress_attn]
          exact hlatch
        · exact hlatch
      · have htold := ((Work.of s).echoed ⟨true, d⟩).spoil_told
        rw [Work.echoed_told, Work.echoed_formed, Work.echoed_receiver, Work.of_toState, hr] at htold
        split
        · rw [Work.takeAddress_told]
          exact htold.trans (by cases b <;> rfl)
        · exact htold.trans (by cases b <;> rfl)
    case data =>
      subst hm
      have hecho : ((Work.of s).echoed ⟨false, d⟩).link.receiver = s.link.receiver := Work.echoed_receiver _ _
      rw [hq.receiver, hq.inbound, Work.receive_data]
      refine ⟨fun hr => ?_, fun b hr => ?_, fun b k hr h1 h60 => ?_, fun b k hr hd => ⟨?_, ?_⟩, fun b k l p hr hl => ?_⟩
      · rw [Work.takeData_idle (hecho ▸ hr)]
        exact ⟨hecho, Work.echoed_inbound _ _⟩
      · rw [Work.takeData_kind (hecho.trans hr)]
        rfl
      · rw [Work.takeData_length (hecho.trans hr) h1 h60]
        rfl
      · rw [Work.takeData_long (hecho.trans hr) hd]
        exact Work.spoil_receiver _
      · refine honly.finish_spoiled ?_ ?_
        · rw [Work.receive_data, Work.takeData_long (hecho.trans hr) hd]
          exact Work.spoil_latched _
        · rw [Work.receive_data, Work.takeData_long (hecho.trans hr) hd, Work.spoil_told, hecho, hr, Work.echoed_told,
            Work.echoed_formed]
          cases b <;> rfl
      · rw [Work.takeData_more (hecho.trans hr) hl]
        rfl
  case empty =>
    subst hd
    rw [hexec, Work.receive_data, Work.takeData_empty (b := b) (k := k) ((Work.echoed_receiver _ _).trans hr)]
    rfl
  case last =>
    rw [hexec, Work.receive_data, Work.takeData_last (b := b) (k := k) (p := p) ((Work.echoed_receiver _ _).trans hr) hl]
    have hlast : (p ++ [d]).getLastD 0 = d := by simp
    have hcompleted : ((Work.of s).echoed ⟨false, d⟩).setReceiver .waiting
        = Work.of (s.completed ⟨b, k, p ++ [d]⟩) := by
      rw [State.completed, hlast]
      rfl
    rw [hcompleted]
    rfl

/-- Settles O28: the offer of a completed record, the character layout, and the spoiling of a record. -/
theorem recordsCompleteOrSpoil : Obligations.RecordsCompleteOrSpoil := by
  unfold Obligations.RecordsCompleteOrSpoil
  refine ⟨fun b kind payload s => ?complete, fun c => ?sent, fun f => ?sound, fun f n low hn hlow hhigh => ?line,
    fun low => ?low, fun k mark data s hs => ?error, fun k mark data s hs => ?taken, fun s hf => ?lineBreak⟩
  case complete =>
    refine ⟨s.offered ⟨b, kind, payload⟩, rfl, s.offered_sameWork _, s.offered_receiver _, s.offered_echoes _,
      fun hlt => ⟨State.offered_inbound hlt, State.offered_hold hlt⟩,
      fun hge => ⟨State.offered_inbound_full hge, State.offered_overrun hge,
        State.offered_tells (r := ⟨b, kind, payload⟩) hge⟩⟩
  case sent =>
    obtain ⟨hstart, hdata, hmark, hstop⟩ := frameWith_bits ⟨parityOf c, true⟩ c
    obtain ⟨hsound, hchar⟩ := frameOf_sound c
    exact ⟨hstart, hdata, hmark, hstop, hsound, hchar⟩
  case sound => exact frameSound_iff f
  case line =>
    rw [instrOfLine_eq hn hlow hhigh]
    split
    · next h => exact ⟨iff_of_true rfl h, fun hne => absurd h hne⟩
    · next h => exact ⟨iff_of_false (instrOfFrame_ne_lineBreak f) h, fun _ => rfl⟩
  case low =>
    have hzero : instrOfLow low = if 0 < 12 ∧ 24 < 12 + (low - 12) then .lineBreak else instrOfFrame 0 :=
      instrOfLine_eq (le_refl 12) (fun i _ => by simp) (fun h => absurd h (lt_irrefl 12))
    refine ⟨?_, fun hle => ?_⟩
    · rw [hzero]
      split
      · exact iff_of_true rfl (by omega)
      · exact iff_of_false (instrOfFrame_ne_lineBreak 0) (by omega)
    · rw [hzero, if_neg (by omega)]
      rfl
  case error =>
    have honly := (Work.of s).linkOnly_receive false mark data
    have hq := ((Work.of s).receive false mark data).finish_queues
    have hexec : exec (.lineError k mark data) s = .next ((Work.of s).receive false mark data).finish := by
      rw [← hs]
      exact exec_event rfl s
    refine ⟨_, hexec, honly.sameWork, ?_, ?_, Work.finish_latched _ _ (Work.spoil_latched _), ?_, fun got hr hroom => ?_⟩
    · exact hq.receiver.trans (Work.spoil_receiver _)
    · exact hq.inbound.trans ((Work.spoil_inbound _).trans (Work.echoed_inbound _ _))
    · rw [hq.echoes, Work.receive_echoes]
      exact s.link.echo_echoes _
    · refine honly.finish_formed (l := s.link) ?_ hroom
      rw [Work.receive_erroneous, Work.spoil_told, Work.echoed_receiver, Work.of_toState, hr, Work.echoed_told,
        Work.echoed_formed]
      rfl
  case taken =>
    have hexec : exec (.lineError k mark data) s = .next ((Work.of s).receive true mark data).finish := by
      rw [← hs]
      exact exec_event rfl s
    exact hexec
  case lineBreak =>
    rw [exec_event rfl]
    exact congrArg Host.Outcome.next (Work.of_finish (u := { s with link := { s.link with receiver := .waiting } }) hf)

/-- Settles O29: a record sent by `LinkPort.recordSent`, a character that goes ahead by `State.sentAside`. -/
theorem replyLineSends : Obligations.ReplyLineSends := by
  unfold Obligations.ReplyLineSends
  intro s hf station waits aside
  have haside (l : LinkPort) (c : LineChar) (hs : l.sending = s.link.sending) (ho : l.outbound = s.link.outbound)
      (hst : l.stalled = s.link.stalled) : aside (s.sentAside l c) l c := by
    refine ⟨State.sentAside_eq, ?_, l.gone station s.now, State.sentAside_line, fun h => ?_, fun h => ?_,
      fun n r rest hn hr hlt => ?_⟩
    · rw [State.sentAside_stalled]
      exact l.waits_iff
    · exact l.gone_stalled (hst.trans h)
    · have hnone : l.sending = none := hs.trans h
      refine ⟨l.gone_idle hnone, ?_⟩
      rw [State.sentAside_sending, hnone, ← ho]
      rfl
    · have hsome : l.sending = some n := hs.trans hn
      refine ⟨?_, l.gone_prefix hsome (ho.trans hr) hlt⟩
      rw [State.sentAside_sending, hsome]
      simp
      rfl
  have hfinish (l : LinkPort) (c : LineChar) :
      ((Work.of s).sendAside l c).finish = s.sentAside l c :=
    Work.of_finish (u := { s with link := l.sendAside s.run.straps.station s.now c }) hf
  refine ⟨?record, ?pacing, ?echo⟩
  case record =>
    refine ⟨_, exec_event rfl s, fun hn => ?_, fun n r rest hn hst ho => ?_⟩
    · rw [Instr.comes, if_neg]
      rcases hn with hn | hn <;> simp [hn]
    · have hcomes : Instr.comes s .recordSent = true := by simp [Instr.comes, hn, hst]
      have hend : (Instr.effect .recordSent (Work.of s)).finish
          = { s with link := (s.link.recordSent station).boundary } :=
        Work.of_finish (u := { s with link := s.link.recordSent station }) hf
      rw [if_pos hcomes, hend]
      rw [LinkPort.recordSent_boundary s.link station hn hst ho]
      refine ⟨?_, rfl, rfl, rfl⟩
      show rest ++ s.link.held.take 1 ++ s.link.held.tail = _
      rw [List.append_assoc, ← List.drop_one, List.take_append_drop, State.told, ho]
      rfl
  case pacing =>
    refine ⟨_, exec_event rfl s, fun hn => ?_, fun x hx => ?_⟩
    · rw [Instr.comes, hn]
      rfl
    · have heffect : (Instr.effect .pacingCharacterSent (Work.of s)).finish
          = s.sentAside { s.link with pacing := none } x.character := by
        rw [← hfinish]
        simp [Instr.effect, Work.whenSome, hx]
      rw [Instr.comes, hx, if_pos (by rfl), heffect]
      have hsent := haside { s.link with pacing := none } x.character rfl rfl rfl
      cases x <;> exact hsent
  case echo =>
    refine ⟨_, exec_event rfl s, fun hn => ?_, fun c rest hp he => ?_⟩
    · rw [Instr.comes, if_neg]
      cases hp : s.link.pacing <;> simp_all
    · have heffect : (Instr.effect .loopbackEchoSent (Work.of s)).finish
          = s.sentAside { s.link with echoes := rest } c := by
        rw [← hfinish]
        simp [Instr.effect, Work.whenSome, he]
      rw [Instr.comes, hp, he, if_pos (by rfl), heffect]
      exact haside { s.link with echoes := rest } c rfl rfl rfl

end Sys2Proof.Proofs
end

section
/-! SUPPORT. Each command as one operation on the work and the settling after it (`Work.Does`), or as a change that no
block's work reads (`Work.Still`); and what a step makes of the Link Port and the settings it is judged by (`PortMoves`):
the settling of `Obligations.LinkBoundsKept`. -/

namespace Sys2Proof.Machine

/-! ### The Link Port and the settings (R169, R170, R173, R175) -/

/-- The Link Port and the settings HOLD is judged by. -/
structure Port where
  link : LinkPort
  settings : Settings

/-- The Link Port and the settings of a state. -/
def State.port (s : State) : Port := ⟨s.link, s.tables.settings⟩

/-- The bounds of the outbound queue, the held list and the echoes (R173, R175). -/
def LinkPort.OutBounded (l : LinkPort) : Prop :=
  l.outbound.length ≤ Config.outboundSize ∧ (l.outbound.filter OutRecord.isNotice).length ≤ Config.noticeLimit
    ∧ l.held.filter OutRecord.isNotice = [] ∧ l.echoes.length ≤ Config.echoLimit

/-- One change of the Link Port and the settings: beside the inbound queue, or a record joining it or taken from it, or a
write of the settings, which `G` holds of, or a restart. -/
inductive PortMove (G : Settings → Prop) : Port → Port → Prop
  | aside (p : Port) (l : LinkPort) (hi : l.inbound = p.link.inbound) (hh : l.hold = p.link.hold)
    (ho : p.link.OutBounded → l.OutBounded) : PortMove G p ⟨l, p.settings⟩
  | joins (p : Port) (r : Record) (h : p.link.inbound.length < Config.inboundSize) :
    PortMove G p ⟨LinkPort.judgeJoin { p.link with inbound := p.link.inbound ++ [r] } p.settings, p.settings⟩
  | taken (p : Port) : PortMove G p ⟨LinkPort.judgeTake { p.link with inbound := p.link.inbound.tail } p.settings, p.settings⟩
  | rewritten (p : Port) (v : Settings) (h : G v) : PortMove G p ⟨p.link.judgeWrite v, v⟩
  | restarted (p : Port) (l : LinkPort) (hi : l.inbound = []) (hh : l.hold = false)
    (ho : p.link.OutBounded → l.OutBounded) : PortMove G p ⟨l, Settings.default⟩

/-- Any number of changes of the Link Port and the settings. -/
abbrev PortMoves (G : Settings → Prop) : Port → Port → Prop := Relation.ReflTransGen (PortMove G)

section
variable {G : Settings → Prop}

theorem Work.port_of_frame {v w : Work} (h : v.frame = w.frame) : v.port = w.port :=
  congrArg (fun f : Frame => (⟨f.link, f.tables.settings⟩ : Port)) h

theorem PortMoves.of_eq {p q : Port} (h : q = p) : PortMoves G p q := h ▸ .refl

/-- A change beside the inbound queue. -/
theorem PortMoves.aside {s t : State} (hs : t.tables.settings = s.tables.settings) (hi : t.link.inbound = s.link.inbound)
    (hh : t.link.hold = s.link.hold) (ho : s.link.OutBounded → t.link.OutBounded) : PortMoves G s.port t.port := by
  have h := PortMove.aside (G := G) s.port t.link hi hh ho
  rw [show (⟨t.link, s.port.settings⟩ : Port) = t.port from congrArg (Port.mk t.link) hs.symm] at h
  exact .single h

/-! #### What is judged when HOLD is -/

theorem LinkPort.outBounded_of {l m : LinkPort} (ho : m.outbound = l.outbound) (hh : m.held = l.held)
    (he : m.echoes = l.echoes) (h : l.OutBounded) : m.OutBounded := by
  obtain ⟨h1, h2, h3, h4⟩ := h
  exact ⟨ho ▸ h1, ho ▸ h2, hh ▸ h3, he ▸ h4⟩

theorem LinkPort.judgeWrite_eq (l : LinkPort) (v : Settings) :
    l.judgeWrite v = { l with hold := (l.judgeWrite v).hold, pacing := (l.judgeWrite v).pacing } := by
  unfold LinkPort.judgeWrite
  split
  · exact l.judgeTake_eq v
  · exact l.judgeJoin_eq v

theorem PortMove.outBounded {p q : Port} (h : PortMove G p q) (hp : p.link.OutBounded) : q.link.OutBounded := by
  cases h with
  | aside l hi hh ho => exact ho hp
  | joins r h => rw [LinkPort.judgeJoin_eq]; exact hp
  | taken => rw [LinkPort.judgeTake_eq]; exact hp
  | rewritten v h => rw [LinkPort.judgeWrite_eq]; exact hp
  | restarted l hi hh ho => exact ho hp

theorem PortMove.inBounded {p q : Port} (h : PortMove G p q) (hp : p.link.inbound.length ≤ Config.inboundSize) :
    q.link.inbound.length ≤ Config.inboundSize := by
  cases h with
  | aside l hi hh ho => rw [hi]; exact hp
  | joins r h =>
    rw [LinkPort.judgeJoin_eq]
    simpa using h
  | taken =>
    rw [LinkPort.judgeTake_eq]
    exact (Nat.le_of_eq List.length_tail).trans ((Nat.sub_le _ _).trans hp)
  | rewritten v h => rw [LinkPort.judgeWrite_eq]; exact hp
  | restarted l hi hh ho => rw [hi]; exact Nat.zero_le _

/-- The settings are in range and HOLD follows them. -/
def Port.HoldFollows (p : Port) : Prop :=
  p.settings.clamp = p.settings ∧ (p.link.hold = true → p.settings.holdLow < p.link.inbound.length)
    ∧ (p.link.hold = false → p.link.inbound.length < p.settings.holdHigh)

theorem Settings.holdLow_lt {v : Settings} (h : v.clamp = v) : v.holdLow < v.holdHigh := by
  have hhigh := congrArg Settings.holdHigh h
  have hlow := congrArg Settings.holdLow h
  have hbounds := clamp_bounds (lo := 2) (hi := 32) (by decide) v.holdHigh
  simp only [Settings.clamp] at hhigh hlow
  rw [hhigh] at hlow hbounds
  rw [← hlow]
  split <;> omega

theorem LinkPort.judgeTake_hold (l : LinkPort) (v : Settings) :
    (l.judgeTake v).hold = (l.hold && !decide (l.inbound.length ≤ v.holdLow)) := by
  unfold LinkPort.judgeTake
  cases hh : l.hold
  · simp [hh]
  · by_cases hn : l.inbound.length ≤ v.holdLow <;> simp [hn, hh, LinkPort.setHold]

theorem LinkPort.judgeJoin_inbound (l : LinkPort) (v : Settings) : (l.judgeJoin v).inbound = l.inbound := by
  rw [LinkPort.judgeJoin_eq]

theorem LinkPort.judgeTake_inbound (l : LinkPort) (v : Settings) : (l.judgeTake v).inbound = l.inbound := by
  rw [LinkPort.judgeTake_eq]

theorem PortMove.holdFollows {p q : Port} (h : PortMove (fun v => v.clamp = v) p q) (hp : p.HoldFollows) :
    q.HoldFollows := by
  obtain ⟨hv, hon, hoff⟩ := hp
  have hlt := Settings.holdLow_lt hv
  cases h with
  | aside l hi hh ho => exact ⟨hv, by rw [hh, hi]; exact hon, by rw [hh, hi]; exact hoff⟩
  | joins r h =>
    refine ⟨hv, ?_, ?_⟩
    all_goals
      dsimp only
      rw [LinkPort.judgeJoin_hold, LinkPort.judgeJoin_inbound, List.length_append, List.length_singleton]
      cases hh : p.link.hold <;> simp only [Bool.true_or, Bool.false_or, decide_eq_true_eq, decide_eq_false_iff_not]
    · omega
    · have := hon hh
      omega
    · omega
    · nofun
  | taken =>
    refine ⟨hv, ?_, ?_⟩
    all_goals
      dsimp only
      rw [LinkPort.judgeTake_hold, LinkPort.judgeTake_inbound, List.length_tail]
      cases hh : p.link.hold <;> simp only [Bool.true_and, Bool.false_and, Bool.not_eq_true', Bool.not_eq_false',
        decide_eq_true_eq, decide_eq_false_iff_not]
    · nofun
    · omega
    · have := hoff hh
      omega
    · omega
  | rewritten v h =>
    have hlt := Settings.holdLow_lt h
    refine ⟨h, ?_, ?_⟩
    all_goals
      dsimp only
      unfold LinkPort.judgeWrite
      cases hh : p.link.hold
    · rw [if_neg (by simp), LinkPort.judgeJoin_hold, LinkPort.judgeJoin_inbound, hh]
      simp only [Bool.false_or, decide_eq_true_eq]
      omega
    · rw [if_pos rfl, LinkPort.judgeTake_hold, LinkPort.judgeTake_inbound, hh]
      simp only [Bool.true_and, Bool.not_eq_true', decide_eq_false_iff_not]
      omega
    · rw [if_neg (by simp), LinkPort.judgeJoin_hold, LinkPort.judgeJoin_inbound, hh]
      simp only [Bool.false_or, decide_eq_false_iff_not]
      omega
    · rw [if_pos rfl, LinkPort.judgeTake_hold, LinkPort.judgeTake_inbound, hh]
      simp only [Bool.true_and, Bool.not_eq_false', decide_eq_true_eq]
      omega
  | restarted l hi hh ho => exact ⟨show Settings.default.clamp = Settings.default by decide, by rw [hh]; nofun, fun _ => by rw [hi]; exact Nat.zero_lt_succ _⟩

/-- What changes keep, any number of them keep. -/
theorem PortMoves.keeps {P : Port → Prop} (hm : ∀ p q, PortMove G p q → P p → P q) {p q : Port} (h : PortMoves G p q)
    (hp : P p) : P q := by
  induction h with
  | refl => exact hp
  | tail _ hs ih => exact hm _ _ hs ih

end

/-! ### The operations that a settling follows -/

/-- The Link Port that a reset of a kind leaves: RESET WORK leaves it alone, the others empty it (R176). -/
def Work.ResetsLink (w : Work) : ResetKind → Work → Prop
  | .work, u => u.link = w.link
  | _, u => u.link.inbound = [] ∧ u.link.hold = false ∧ (w.link.OutBounded → u.link.OutBounded)

/-- The first and only act of a command before the settling: what it does to the work itself. -/
inductive Work.Op (w : Work) : Work → Prop
  | occasion (b : Bool) : Op w (w.occasionIf b)
  | feed (f : FeedId) (r : FeedRec) : Op w (w.setFeed f r)
  | announce (k : Handle) (j : JobId) (st : StudentId) (c : ClassId) (pages : Nat) (b : Budget)
    (hfree : (w.pack k).state = .free) (hp : 1 ≤ pages ∧ pages ≤ 60)
    (hb : w.budgetFor w.tables.jobs[j] pages = .fits b) : Op w (w.acceptPack k (w.announcedRecord j st c pages b))
  | withdraw (k : Handle) (h : withdrawRefusal (w.pack k).state = none) : Op w (w.withdrawPack k)
  | runState (st : RunState) (ho : w.run.state.halts = false ∧ w.run.state.starts = false)
    (hn : st.halts = false ∧ st.starts = false) : Op w (w.setRunState st)
  | bypass (h : w.run.state = .standby) : Op w w.enterBypass
  | resume (c : HaltCause) (t : ResumeTarget) (h : w.run.state = .halt c t) : Op w (w.resume t)
  | stop : Op w w.takeStop
  | arrival (tag : Option TagNum) (h : w.halted = false) : Op w ((w.matchArrival tag).occasionIf true)
  | deadline (e : InFlight) (h : w.lateHead = some e) :
    Op w ((((w.dropHead.requestHalt .jam).latch .jam).faultFeed e.feed).requestFor e .missingSheet)
  | breakBlock : Op w w.restartTimer.breakBlock
  | purgeDone (p : PocketId) (h : w.purgeRunning p = true) : Op w (w.endPurge p w.pockets[p].emptied)
  | purgeTimeout (p : PocketId) (h : w.purgeRunning p = true) : Op w ((w.endPurge p w.pockets[p].timedOut).latch .mechFault)
  | volumeDone (k : WorkRec) (h : w.volumeInFlight = some k) : Op w (w.volumeDone k)
  | volumeTimedOut (k : WorkRec) (h : w.volumeInFlight = some k) : Op w (w.volumeTimedOut k)
  | cartridge : Op w w.fitCartridge
  | clearStapler (h : w.stapler.state = .faulted) : Op w (w.setStapler .idle w.stapler.work none)
  | deliver (d : DeliveryRec) (h : w.ret.delivery = some d) : Op w (w.completeDelivery d)
  | lose (d : DeliveryRec) (h : w.ret.delivery = some d) : Op w (w.loseDelivery d)
  | deliveryTimedOut (d : DeliveryRec) (h : w.deliveryInFlight = some d) : Op w w.deliveryTimedOut
  | clearBin (b : BinId) : Op w (w.setBin b { w.ret.bins[b] with fill := 0 })
  | write (ws : List Staged) : Op w ((w.wrote ws).meetWrite w.toState ws)
  | reset (kind : ResetKind) (u : Work) (hu : w.ResetsFrom kind u) (hl : w.ResetsLink kind u) : Op w (u.resetCommon kind)

/-- `v` differs from `w` in what no block's work reads: the Link Port, the latches, the notices and Results formed, the
mark and the edit group, the drain markers, the staging, the levels, and the flashes. -/
structure Work.Still (w v : Work) : Prop where
  packs : v.reg.packs = w.reg.packs
  queues : v.reg.queues = w.reg.queues
  banks : v.tables.banks = w.tables.banks
  inFlight : v.arb.inFlight = w.arb.inFlight
  aLast : v.arb.aLast = w.arb.aLast ∨ v.arb.aLast = boundedALast w.now w.arb.aLast
  pockets : v.pockets = w.pockets
  stapler : v.stapler = w.stapler
  ret : ∃ bs, v.ret = { w.ret with bins := bs } ∧ ∀ b : BinId, ∃ fl, bs[b] = { w.ret.bins[b] with flash := fl }
  run : v.run.state = w.run.state
  now : v.now = w.now
  binFull : v.latched .binFull = true → w.latched .binFull = true
  port : ∀ G, PortMoves G w.port v.port

/-- What a command comes to: a still change, or one operation and a settling with still changes before and after, the ones
after leaving BIN_FULL latched. -/
inductive Work.Does (w v : Work) : Prop
  | still (h : w.Still v)
  | settled (x u b : Work) (hx : w.Still x) (hu : x.Op u) (hb : w.Still b) (hv : (u.settle b.toState).Still v)
    (hl : (u.settle b.toState).latched .binFull = true → v.latched .binFull = true)

/-- The bound on the age of A_last is reached once (R54). -/
theorem boundedALast_idem (n a : Time) : boundedALast n (boundedALast n a) = boundedALast n a := by
  have hself : elapsed n (n - BitVec.ofNat 32 65536) = 65536 := by
    rw [elapsed, show n - (n - BitVec.ofNat 32 65536) = BitVec.ofNat 32 65536 by bv_omega]
    rfl
  by_cases h : Config.aLastBound < elapsed n a
  · rw [show boundedALast n a = n - BitVec.ofNat 32 65536 from if_pos h, boundedALast, hself]
    exact if_neg (by decide)
  · rw [show boundedALast n a = a from if_neg h]
    exact if_neg h

section
variable {w v : Work}

theorem Work.Still.refl (w : Work) : w.Still w :=
  ⟨rfl, rfl, rfl, rfl, .inl rfl, rfl, rfl, ⟨_, rfl, fun _ => ⟨_, rfl⟩⟩, rfl, rfl, id, fun _ => .refl⟩

theorem Work.Still.trans {x : Work} (h : w.Still v) (k : v.Still x) : w.Still x := by
  obtain ⟨bs, hr, hb⟩ := h.ret
  obtain ⟨bs', hr', hb'⟩ := k.ret
  have halast : x.arb.aLast = w.arb.aLast ∨ x.arb.aLast = boundedALast w.now w.arb.aLast := by
    rcases k.aLast with e | e <;> rw [e]
    · exact h.aLast
    · rw [h.now]
      rcases h.aLast with e' | e' <;> rw [e']
      · exact .inr rfl
      · exact .inr (boundedALast_idem _ _)
  refine ⟨k.packs.trans h.packs, k.queues.trans h.queues, k.banks.trans h.banks, k.inFlight.trans h.inFlight,
    halast, k.pockets.trans h.pockets, k.stapler.trans h.stapler, ⟨bs', by rw [hr', hr], fun b => ?_⟩, k.run.trans h.run,
    k.now.trans h.now, h.binFull ∘ k.binFull, fun G => (h.port G).trans (k.port G)⟩
  obtain ⟨fl, e⟩ := hb b
  obtain ⟨fl', e'⟩ := hb' b
  have e2 : v.ret.bins[b] = bs[b] := by rw [hr]
  exact ⟨fl', by rw [e', e2, e]⟩

/-- A change of the Link Port, the latches and what the step is to queue. -/
theorem Work.Still.of_eq (hr : v.reg = w.reg) (hb : v.tables.banks = w.tables.banks) (hi : v.arb = w.arb)
    (hp : v.pockets = w.pockets) (hs : v.stapler = w.stapler) (ht : v.ret = w.ret) (hn : v.run.state = w.run.state)
    (ho : v.now = w.now) (hl : v.latched .binFull = true → w.latched .binFull = true)
    (hport : ∀ G, PortMoves G w.port v.port) : w.Still v :=
  ⟨by rw [hr], by rw [hr], hb, by rw [hi], .inl (by rw [hi]), hp, hs, ⟨w.ret.bins, ht, fun b => ⟨_, rfl⟩⟩, hn, ho, hl, hport⟩

theorem Work.still_answer (w : Work) (k : Byte) (st : Status) (d : List Byte) (n : Notes) : w.Still (w.answer k st d n) :=
  .of_eq rfl rfl rfl rfl rfl rfl rfl rfl id fun _ => .refl

theorem Work.still_clearMark (w : Work) : w.Still w.clearMark :=
  .of_eq rfl rfl rfl rfl rfl rfl rfl rfl id fun _ => .refl

theorem Work.still_setGroup (w : Work) (g : Option (List Staged)) : w.Still (w.setGroup g) :=
  .of_eq rfl rfl rfl rfl rfl rfl rfl rfl id fun _ => .refl

/-- A change of the Link Port beside the inbound queue. -/
theorem Work.still_link (w : Work) (l : LinkPort) (hi : l.inbound = w.link.inbound) (hh : l.hold = w.link.hold)
    (ho : w.link.OutBounded → l.OutBounded) : w.Still { w with link := l } :=
  .of_eq rfl rfl rfl rfl rfl rfl rfl rfl id fun _ => .aside (s := w.toState) rfl hi hh ho

theorem Work.Does.and_then {x : Work} (h : w.Does v) (k : v.Still x)
    (hk : v.latched .binFull = true → x.latched .binFull = true) : w.Does x := by
  cases h with
  | still h => exact .still (h.trans k)
  | settled x u b hx hu hb hv hl => exact .settled x u b hx hu hb (hv.trans k) (hk ∘ hl)

theorem Work.Does.answer (h : w.Does v) (k : Byte) (st : Status) (d : List Byte) (n : Notes) : w.Does (v.answer k st d n) :=
  h.and_then (v.still_answer k st d n) id

theorem Work.Does.after {x : Work} (h : w.Still x) (k : x.Does v) : w.Does v := by
  cases k with
  | still k => exact .still (h.trans k)
  | settled y u b hy hu hb hv hl => exact .settled y u b (h.trans hy) hu (h.trans hb) hv hl

/-- An operation and the settling after it. -/
theorem Work.Op.does {u : Work} (h : w.Op u) : w.Does (u.settle w.toState) :=
  .settled w u w (.refl w) h (.refl w) (.refl _) id

theorem Work.Op.does_after {x u : Work} (hx : w.Still x) (h : x.Op u) : w.Does (u.settle w.toState) :=
  .settled x u w hx h (.refl w) (.refl _) id

theorem Work.does_refused (w : Work) (k : Byte) (st : Status) (d : List Byte) (n : Notes) : w.Does (w.answer k st d n) :=
  .still (w.still_answer k st d n)

end

end Sys2Proof.Machine
end

section
/-! SUPPORT. Every command, told as one operation and its settling or as a still change (`exec_does`). -/

namespace Sys2Proof.Machine

/-! ### The Link Port's own commands -/

section
variable (w : Work)

theorem Work.still_latch {c : Cause} (hc : causeIndex c ≠ causeIndex .binFull) : w.Still (w.latch c) :=
  .of_eq rfl rfl rfl rfl rfl rfl rfl rfl (by rw [Work.latched_latch, decide_eq_false hc, Bool.false_or]; exact id)
    fun _ => .refl

theorem Work.still_setReceiver (r : Receiver) : w.Still (w.setReceiver r) :=
  w.still_link _ rfl rfl (LinkPort.outBounded_of rfl rfl rfl)

theorem Work.still_receiverResult (k : Byte) (st : Status) : w.Still (w.receiverResult k st) := by
  unfold Work.receiverResult
  split
  next hroom =>
    refine w.still_link _ rfl rfl fun ⟨h1, h2, h3, h4⟩ => ⟨?_, ?_, h3, h4⟩
    · have := of_decide_eq_true (Bool.and_eq_true_iff.1 hroom).1
      simpa using this
    · simpa [List.filter_append, OutRecord.isNotice] using h2
  · exact .refl w

theorem Work.still_spoil : w.Still w.spoil := by
  have hl := w.still_latch (c := .linkError) (by decide)
  unfold Work.spoil
  dsimp only
  split
  · exact (hl.trans (Work.still_receiverResult _ _ _)).trans (Work.still_setReceiver _ _)
  · exact hl.trans (Work.still_setReceiver _ _)

theorem Work.still_offer (r : Record) : w.Still (w.offer r) := by
  unfold Work.offer
  split
  next hroom => exact .of_eq rfl rfl rfl rfl rfl rfl rfl rfl id fun _ => .single (.joins w.port r hroom)
  · have hl := w.still_latch (c := .overrun) (by decide)
    dsimp only
    split
    · exact hl
    · exact hl.trans (Work.still_receiverResult _ _ _)

theorem LinkPort.echo_outBounded {l : LinkPort} (c : LineChar) (h : l.OutBounded) : (l.echo c).OutBounded := by
  unfold LinkPort.echo
  split
  next hroom =>
    obtain ⟨h1, h2, h3, -⟩ := h
    refine ⟨h1, h2, h3, ?_⟩
    have := of_decide_eq_true (Bool.and_eq_true_iff.1 hroom).2
    simpa using this
  · exact h

theorem Work.still_echo (c : LineChar) : w.Still { w with link := w.link.echo c } :=
  w.still_link _ (w.link.echo_inbound c) (by unfold LinkPort.echo; split <;> rfl) (LinkPort.echo_outBounded c)

theorem Work.still_takeAddress (n : Nat) : w.Still (w.takeAddress n) := by
  unfold Work.takeAddress
  split
  · exact w.still_setReceiver _
  · split <;> exact w.still_setReceiver _

theorem Work.still_takeData (d : Byte) : w.Still (w.takeData d) := by
  unfold Work.takeData
  split
  · exact w.still_setReceiver _
  · split
    · exact w.still_spoil
    · split
      · exact (w.still_setReceiver _).trans (Work.still_offer _ _)
      · exact w.still_setReceiver _
  · split
    · exact (w.still_setReceiver _).trans (Work.still_offer _ _)
    · exact w.still_setReceiver _
  · exact .refl w

theorem Work.still_receive (sound mark : Bool) (d : Byte) : w.Still (w.receive sound mark d) := by
  unfold Work.receive
  dsimp only
  refine (w.still_echo ⟨mark, d⟩).trans ?_
  split
  · exact Work.still_spoil _
  · split
    · exact Work.still_takeData _ _
    · split
      · split
        · exact (Work.still_spoil _).trans (Work.still_takeAddress _ _)
        · exact Work.still_takeAddress _ _
      · split
        · exact Work.still_spoil _
        · exact .refl _

theorem Work.still_recordSent (st : Fin 4) : w.Still { w with link := w.link.recordSent st } := by
  refine w.still_link _ ?_ ?_ ?_
  · unfold LinkPort.recordSent; dsimp only; split <;> rfl
  · unfold LinkPort.recordSent; dsimp only; split <;> rfl
  · rintro ⟨h1, h2, h3, h4⟩
    have htail : (w.link.outbound.tail.filter OutRecord.isNotice).length ≤ Config.noticeLimit :=
      ((w.link.outbound.tail_sublist.filter _).length_le).trans h2
    unfold LinkPort.recordSent
    dsimp only
    split
    next hh => exact ⟨((Nat.le_of_eq List.length_tail).trans (Nat.sub_le _ _)).trans h1, htail, hh ▸ h3, h4⟩
    next r held hh =>
      rw [hh, List.filter_cons] at h3
      have hr : r.isNotice = false := by
        by_contra hn
        rw [if_pos (by simpa using hn)] at h3
        cases h3
      rw [if_neg (by simp [hr])] at h3
      refine ⟨?_, ?_, h3, h4⟩
      · rw [List.length_append, List.length_tail, List.length_singleton]
        simp only [Config.outboundSize] at h1 ⊢
        omega
      · simpa [List.filter_append, hr] using htail

theorem Work.still_sendAside (l : LinkPort) (c : LineChar) (hi : l.inbound = w.link.inbound) (hh : l.hold = w.link.hold)
    (ho : w.link.OutBounded → l.OutBounded) : w.Still (w.sendAside l c) :=
  w.still_link _ hi hh fun h => LinkPort.outBounded_of rfl rfl rfl (ho h)

/-! ### The end of a step -/

theorem LinkPort.keep_outBounded {l : LinkPort} {r : OutRecord} (hr : r.isNotice = false) (h : l.OutBounded) :
    (l.keep r).OutBounded := by
  obtain ⟨h1, h2, h3, h4⟩ := h
  unfold LinkPort.keep
  split
  next hroom =>
    have := of_decide_eq_true (Bool.and_eq_true_iff.1 hroom).1
    exact ⟨by simpa using this, by simpa [List.filter_append, hr] using h2, h3, h4⟩
  · exact ⟨h1, h2, by simpa [List.filter_append, hr] using h3, h4⟩

theorem Work.still_sendNotice (r : OutRecord) : w.Still (w.sendNotice r) := by
  unfold Work.sendNotice
  split
  next hroom =>
    simp only [LinkPort.hasNoticeRoom, LinkPort.hasRoom, Bool.and_eq_true, decide_eq_true_eq] at hroom
    refine w.still_link _ rfl rfl fun ⟨h1, h2, h3, h4⟩ => ⟨?_, ?_, h3, h4⟩
    · simpa using hroom.1.1
    · refine (Nat.le_of_eq (by rw [List.filter_append, List.length_append])).trans
        ((Nat.add_le_add_left (List.length_filter_le _ [r]) _).trans hroom.2)
  · exact w.still_latch (by decide)

theorem Work.still_setOutput (b : Bool) : w.Still (w.setOutput b) :=
  .of_eq rfl rfl rfl rfl rfl rfl rfl rfl id fun _ => .refl

theorem Work.still_judgeAttention : w.Still w.judgeAttention := by
  unfold Work.judgeAttention
  split
  · exact (w.still_setOutput _).trans (Work.still_sendNotice _ _)
  · exact w.still_setOutput _

theorem Work.still_keepOpt (o : Option OutRecord) (h : ∀ r ∈ o, r.isNotice = false) : w.Still (w.keepOpt o) := by
  cases o with
  | none => exact .refl w
  | some r =>
    exact w.still_link (w.link.keep r) (w.link.keep_queues r).inbound (w.link.keep_queues r).hold
      (LinkPort.keep_outBounded (h r rfl))

/-- Any number of still changes. -/
theorem Work.still_foldl {α : Type} (f : Work → α → Work) (l : List α) (h : ∀ (x : Work) y, x.Still (f x y)) (w : Work) :
    w.Still (l.foldl f w) := by
  induction l generalizing w with
  | nil => exact .refl w
  | cons y l ih => exact (h w y).trans (ih _)

theorem Work.still_queued : w.Still w.queued := by
  have hnotices : w.Still w.sendNotices := Work.still_foldl _ _ (fun x y => x.still_sendNotice y) w
  have hreply : ∀ r ∈ w.reply.map Reply.record, r.isNotice = false := by
    intro r hr
    obtain ⟨x, -, rfl⟩ := Option.map_eq_some_iff.1 hr
    rfl
  have hreport : ∀ r ∈ w.report.map Report.record, r.isNotice = false := by
    intro r hr
    obtain ⟨x, -, rfl⟩ := Option.map_eq_some_iff.1 hr
    rfl
  have hdrains (x : Work) : x.Still x.keepDrains :=
    Work.still_foldl _ _ (fun x y => x.still_keepOpt _ fun r hr => by rw [← Option.some.inj hr]; rfl) x
  exact (((hnotices.trans (Work.still_judgeAttention _)).trans (Work.still_keepOpt _ _ hreply)).trans (hdrains _)).trans
    (Work.still_keepOpt _ _ hreport)

theorem Work.still_finish : w.Still (Work.of w.finish) := by
  have hb := LinkPort.boundary_queues w.queued.link
  have hout : w.queued.link.OutBounded → w.queued.link.boundary.OutBounded := by
    refine LinkPort.outBounded_of ?_ ?_ hb.echoes <;> (unfold LinkPort.boundary; split <;> rfl)
  refine w.still_queued.trans ((w.queued.still_link _ hb.inbound hb.hold hout).trans ?_)
  exact .of_eq rfl rfl rfl rfl rfl rfl rfl rfl id fun _ => .refl

end

/-! ### The resets of the Link Port (R176) -/

theorem LinkPort.resetAll_outBounded {l : LinkPort} (h : l.OutBounded) : l.resetAll.OutBounded := by
  have hsome : l.resetAll.outbound.Sublist l.outbound := by
    rw [LinkPort.resetAll_outbound]
    split
    · exact List.nil_sublist _
    · exact List.take_sublist _ _
  obtain ⟨h1, h2, -, -⟩ := h
  refine ⟨hsome.length_le.trans h1, ((hsome.filter _).length_le).trans h2, ?_, ?_⟩
  · rw [LinkPort.resetAll_held]
    rfl
  · rw [LinkPort.resetAll_echoes]
    exact Nat.zero_le _

/-- The Link Port emptied keeps its bounds, whatever boundary is counted. -/
theorem LinkPort.cleared_outBounded (n : Nat) : ({ LinkPort.cleared with boundaries := n } : LinkPort).OutBounded :=
  ⟨Nat.zero_le _, Nat.zero_le _, rfl, Nat.zero_le _⟩

/-! ### The commands -/

section
variable (w : Work)

theorem Work.does_sheetNotice (f h p g : Byte) (t : Half) : w.Does (w.sheetNotice f h p g t) := by
  unfold Work.sheetNotice
  split
  · exact w.does_refused _ _ _ _
  · exact (Work.Op.feed (w := w) _ _).does

theorem Work.does_packAnnounce (h j : Byte) (st : Half) (p : Byte) : w.Does (w.packAnnounce h j st p) := by
  unfold Work.packAnnounce
  split
  · exact w.does_refused _ _ _ _
  next hacc =>
    obtain ⟨hfree, -, h1, h60, j', s, c, b, -, -, -, -, hb, rfl, -⟩ := State.judgeAnnounce_accepted hacc
    exact (Work.Op.announce _ _ _ _ _ _ hfree ⟨h1, h60⟩ hb).does.answer _ _ _ _

theorem Work.does_packWithdraw (h : Byte) : w.Does (w.packWithdraw h) := by
  unfold Work.packWithdraw
  split
  · exact w.does_refused _ _ _ _
  · split
    · exact w.does_refused _ _ _ _
    next hn => exact (Work.Op.withdraw _ hn).does.answer _ _ _ _

theorem Work.does_tableRead (b i n : Nat) : w.Does (w.tableRead b i n) := by
  unfold Work.tableRead
  split
  · exact w.does_refused _ _ _ _
  · split <;> exact w.does_refused _ _ _ _

theorem Work.does_tableMark (b i : Nat) : w.Does (w.tableMark b i) := by
  unfold Work.tableMark
  split
  · exact w.does_refused _ _ _ _
  · split
    · exact w.does_refused _ _ _ _
    · exact .still (.of_eq rfl rfl rfl rfl rfl rfl rfl rfl id fun _ => .refl)

theorem Work.does_stage (staged ws : List Staged) (st : Status) (c : Bool) : w.Does (w.stage staged st c ws) := by
  unfold Work.stage
  split
  · exact w.does_refused _ _ _ _
  · exact .still ((w.still_setGroup _).trans (Work.still_answer _ _ _ _ _))

theorem Work.does_takeWrites (ws : List Staged) : w.Does (w.takeWrites ws) := (Work.Op.write (w := w) ws).does

theorem Work.does_tableWriteItems (b short : Bool) (items : List WriteItem) :
    w.Does (w.tableWriteItems b short items) := by
  unfold Work.tableWriteItems
  split
  · exact w.does_refused _ _ _ _
  · dsimp only
    split
    · exact w.does_stage _ _ _ _
    · exact (w.does_takeWrites _).answer _ _ _ _

theorem Work.does_tableWrite (b : Bool) (bank index : Nat) (l : List Byte) : w.Does (w.tableWrite b bank index l) := by
  unfold Work.tableWrite
  split
  · exact w.does_refused _ _ _ _
  · split
    · exact w.does_refused _ _ _ _
    · split
      · exact w.does_refused _ _ _ _
      · split
        · exact w.does_refused _ _ _ _
        · exact w.does_tableWriteItems _ _ _

theorem Work.does_markedWrite (bank index : Nat) (l : List Byte) : w.Does (w.markedWrite bank index l) := by
  unfold Work.markedWrite
  refine Work.Does.and_then ?_ (Work.still_clearMark _) id
  split
  · exact w.does_refused _ _ _ _
  · split
    · exact w.does_refused _ _ _ _
    · split
      · exact w.does_refused _ _ _ _
      · split
        · unfold Work.markedWriteItem
          split
          · exact w.does_refused _ _ _ _
          · exact (w.does_takeWrites _).answer _ _ _ _
        · exact w.does_refused _ _ _ _

theorem Work.does_groupOpen : w.Does w.groupOpen := by
  unfold Work.groupOpen
  split
  · exact w.does_refused _ _ _ _
  · exact .still ((w.still_setGroup _).trans (Work.still_answer _ _ _ _ _))

theorem Work.does_groupDiscard : w.Does w.groupDiscard := by
  unfold Work.groupDiscard
  split
  · exact w.does_refused _ _ _ _
  · exact .still ((w.still_setGroup _).trans (Work.still_answer _ _ _ _ _))

theorem Work.does_groupClose : w.Does w.groupClose := by
  unfold Work.groupClose
  split
  · exact w.does_refused _ _ _ _
  next ws hg =>
    dsimp only
    split
    · exact .still ((w.still_setGroup _).trans (Work.still_answer _ _ _ _ _))
    · exact (Work.Does.settled (w.setGroup none) _ (w.setGroup none) (w.still_setGroup _) (.write ws) (w.still_setGroup _)
        (.refl _) id).answer _ _ _ _

theorem Work.does_drainMarker (n : Byte) : w.Does (w.drainMarker n) := by
  have hadd (m : Marker) : w.Still (w.addMarker m) :=
    ⟨rfl, rfl, rfl, rfl, .inl rfl, rfl, rfl, ⟨w.ret.bins, rfl, fun b => ⟨_, rfl⟩⟩, rfl, rfl, id, fun _ => .refl⟩
  have hdrain : w.Still (w.addDrains [n]) := .of_eq rfl rfl rfl rfl rfl rfl rfl rfl id fun _ => .refl
  unfold Work.drainMarker
  dsimp only
  split
  · exact .still (hdrain.trans (Work.still_answer _ _ _ _ _))
  · split
    · exact .still ((hadd _).trans (Work.still_answer _ _ _ _ _))
    · exact w.does_refused _ _ _ _

theorem Work.does_statusRead : w.Does (w.clearLatches.answer kindStatusRead .accepted w.statusBytes) := by
  refine .still (Work.Still.trans (v := w.clearLatches) (.of_eq rfl rfl rfl rfl rfl rfl rfl rfl ?_ fun _ => .refl)
    (Work.still_answer _ _ _ _ _))
  intro h
  rw [Work.clearLatches_latched] at h
  exact (Bool.and_eq_true_iff.1 h).1

theorem Work.Does.entered {v : Work} {b : State} (h : w.Does (v.settle b)) : w.Does (v.entered b) := h.answer _ _ _ _

theorem Work.does_controlRun : w.Does w.controlRun := by
  unfold Work.controlRun
  split
  next h => exact (Work.Op.runState .run (by rw [h]; decide) (by decide)).does.entered
  next h => exact (Work.Op.runState .run (by rw [h]; decide) (by decide)).does.entered
  · exact w.does_refused _ _ _ _

theorem Work.does_controlPause : w.Does w.controlPause := by
  unfold Work.controlPause
  split
  next h => exact (Work.Op.runState .pause (by rw [h]; decide) (by decide)).does.entered
  · exact w.does_refused _ _ _ _

theorem Work.does_controlStandby : w.Does w.controlStandby := by
  unfold Work.controlStandby
  split
  next h => exact (Work.Op.runState (.stopping .run) (by rw [h]; decide) (by decide)).does.entered
  next h => exact (Work.Op.runState (.stopping .pause) (by rw [h]; decide) (by decide)).does.entered
  next h => exact (Work.Op.runState (.stopping .bypass) (by rw [h]; decide) (by decide)).does.entered
  · exact w.does_refused _ _ _ _

theorem Work.does_controlBypass : w.Does w.controlBypass := by
  unfold Work.controlBypass
  split
  next h => exact (Work.Op.bypass h).does.entered
  · exact w.does_refused _ _ _ _

theorem Work.does_controlResume : w.Does w.controlResume := by
  unfold Work.controlResume
  split
  next h =>
    split
    · exact (Work.Op.resume _ _ h).does.entered
    · exact w.does_refused _ _ _ _
  · exact w.does_refused _ _ _ _

theorem Work.does_clearStapler : w.Does w.clearStapler := by
  unfold Work.clearStapler
  split
  next h => exact (Work.Op.clearStapler h).does.answer _ _ _ _
  · exact w.does_refused _ _ _ _

theorem Work.does_clearReturn (o : Byte) : w.Does (w.clearReturn o) := by
  unfold Work.clearReturn
  split
  next d hr hd =>
    split
    · exact w.does_refused _ _ _ _
    next hs =>
      rcases Work.settleDelivery_cases _ hs with ⟨-, rfl⟩ | ⟨-, rfl⟩
      · exact (Work.Op.deliver d hd).does.answer _ _ _ _
      · exact (Work.Op.lose d hd).does.answer _ _ _ _
  · exact w.does_refused _ _ _ _

theorem Work.does_feedFlush (f : Byte) : w.Does (w.feedFlush f) := by
  unfold Work.feedFlush
  split
  · exact w.does_refused _ _ _ _
  · exact (Work.Op.feed (w := w) _ _).does.answer _ _ _ _

/-- In HALT a decision releases nothing. -/
theorem Work.decideReleases_halted (h : w.halted = true) :
    w.decideReleases = if w.occasion then w.boundALast.dropPick else w := by
  unfold Work.decideReleases
  split
  · have hnone : w.boundALast.dropPick.choose = none := by
      rw [Option.eq_none_iff_forall_ne_some]
      intro f hf
      have hc := State.choose_candidate hf
      have hr : w.boundALast.dropPick.run.state = w.run.state := by
        unfold Work.dropPick
        split
        · rfl
        · split <;> rfl
      unfold State.halted at h
      simp only [State.candidate, State.releasing, hr] at hc
      split at h
      next hs => simp [hs] at hc
      · cases h
    unfold Work.decideUpTo
    simp only [hnone]
  · rfl

theorem Work.still_setArb {r : MergeArbiter} (h : r.inFlight = w.arb.inFlight)
    (ha : r.aLast = w.arb.aLast ∨ r.aLast = boundedALast w.now w.arb.aLast) : w.Still (w.setArb r) :=
  ⟨rfl, rfl, rfl, h, ha, rfl, rfl, ⟨_, rfl, fun _ => ⟨_, rfl⟩⟩, rfl, rfl, id, fun _ => .refl⟩

theorem Work.does_takeArrival (t : Option TagNum) : w.Does (w.takeArrival t) := by
  unfold Work.takeArrival
  split
  next h =>
    have hgate : w.Still ((w.setGate .reject).occasionIf true) :=
      (w.still_setArb (r := { w.arb with gate := .reject }) rfl (.inl rfl)).trans (.of_eq rfl rfl rfl rfl rfl rfl rfl rfl id fun _ => .refl)
    have hbound (x : Work) : x.Still x.boundALast := x.still_setArb rfl (.inr rfl)
    have hpick (x : Work) : x.Still x.dropPick := by
      unfold Work.dropPick
      split
      · exact .refl x
      · split
        · exact .refl x
        · exact x.still_setArb rfl (.inl rfl)
    refine .still (hgate.trans ?_)
    rw [Work.decideReleases_halted ((w.setGate .reject).occasionIf true) h]
    split
    · exact (hbound _).trans (hpick _)
    · exact .refl _
  next h => exact (Work.Op.arrival t (by simpa using h)).does

theorem Work.does_whenSome {α : Type} (o : Option α) (f : α → Work) (h : ∀ x, o = some x → w.Does (f x)) :
    w.Does (w.whenSome o f) := by
  cases o with
  | none => exact .still (.refl w)
  | some x => exact h x rfl

end

theorem State.volumeInFlight_of_late {s : State} {k : WorkRec} (h : s.lateVolume = some k) :
    s.volumeInFlight = some k := by
  unfold State.lateVolume at h
  split at h
  · cases h
  next hk =>
    split at h
    · cases h
      exact hk
    · cases h

theorem State.deliveryInFlight_of_late {s : State} {d : DeliveryRec} (h : s.lateDelivery = some d) :
    s.deliveryInFlight = some d := by
  unfold State.lateDelivery at h
  split at h
  · cases h
  next hd =>
    split at h
    · cases h
      exact hd
    · cases h

/-- The delivery in flight is the delivery under way. -/
theorem State.delivery_of_inFlight {s : State} {d : DeliveryRec} (h : s.deliveryInFlight = some d) :
    s.ret.delivery = some d := by
  unfold State.deliveryInFlight at h
  split at h
  next hd =>
    split at h
    · cases h
      exact hd
    · cases h
  · cases h

/-- What every command's effect comes to, where the command comes. -/
theorem effect_does {c : Instr} {w : Work} (hc : c.comes w.toState = true) : w.Does (c.effect w) := by
  cases c <;> simp only [Instr.effect]
  case sheetNotice => exact w.does_sheetNotice _ _ _ _ _
  case packAnnounce => exact w.does_packAnnounce _ _ _ _
  case packWithdraw => exact w.does_packWithdraw _
  case tableRead => exact w.does_tableRead _ _ _
  case tableWrite => exact w.does_tableWrite _ _ _ _
  case tableMark => exact w.does_tableMark _ _
  case markedWrite => exact w.does_markedWrite _ _ _
  case groupOpen => exact w.does_groupOpen
  case groupClose => exact w.does_groupClose
  case groupDiscard => exact w.does_groupDiscard
  case drainMarker => exact w.does_drainMarker _
  case statusRead => exact w.does_statusRead
  case undefinedRecordKind => exact w.does_refused _ _ _ _
  case undefinedActionCode => exact w.does_refused _ _ _ _
  case run => exact w.does_controlRun
  case pause => exact w.does_controlPause
  case standby => exact w.does_controlStandby
  case bypass => exact w.does_controlBypass
  case resume => exact w.does_controlResume
  case clearStapler => exact w.does_clearStapler
  case clearReturn => exact w.does_clearReturn _
  case feedFlush => exact w.does_feedFlush _
  case loopbackOn =>
    exact .still ((w.still_link { w.link with loopback := true } rfl rfl (LinkPort.outBounded_of rfl rfl rfl)).trans
      (Work.still_answer _ _ _ _ _))
  case loopbackOff =>
    exact .still ((w.still_link { w.link with loopback := false } rfl rfl (LinkPort.outBounded_of rfl rfl rfl)).trans
      (Work.still_answer _ _ _ _ _))
  case resetWork => exact (Work.Op.reset .work w ⟨w.link, rfl⟩ rfl).does.answer _ _ _ _
  case resetAll =>
    exact (Work.Op.reset .all _ ⟨w.now, _, w.run.straps, w.arb.gate, rfl⟩
      ⟨LinkPort.resetAll_inbound _, LinkPort.resetAll_hold _, LinkPort.resetAll_outBounded⟩).does.answer _ _ _ _
  case powerOn x =>
    exact (Work.Op.reset .powerOn _ ⟨0, _, x, .reject, rfl⟩ ⟨rfl, rfl, fun _ => LinkPort.cleared_outBounded _⟩).does
  case resetPin x =>
    exact (Work.Op.reset .pin _ ⟨w.now, _, x, .reject, rfl⟩ ⟨rfl, rfl, fun _ => LinkPort.cleared_outBounded _⟩).does
  case recordComplete bcast kind payload =>
    exact .still (((w.still_echo _).trans (Work.still_setReceiver _ .waiting)).trans (Work.still_offer _ _))
  case stopCharacter =>
    exact Work.Op.does_after ((w.still_echo _).trans (Work.still_setReceiver _ .waiting)) .stop
  case lineError => exact .still (w.still_receive _ _ _)
  case lineBreak => exact .still (w.still_setReceiver _)
  case recordSent => exact .still (w.still_recordSent _)
  case sheetPresentActive f =>
    exact Work.Op.does_after (x := w.setPresent f true)
      (.of_eq rfl rfl rfl rfl rfl rfl rfl rfl id fun _ => .refl) (.feed f _)
  case sheetPresentInactive f =>
    exact Work.Op.does_after (x := w.setPresent f false)
      (.of_eq rfl rfl rfl rfl rfl rfl rfl rfl id fun _ => .refl) (.feed f _)
  case arrival => exact w.does_takeArrival _
  case deadlineExpiry =>
    refine w.does_whenSome _ _ fun e he => ?_
    unfold Work.expireDeadline
    exact (Work.Op.deadline e he).does
  case stopInputFall =>
    exact Work.Op.does_after (x := w.setStop false) (.of_eq rfl rfl rfl rfl rfl rfl rfl rfl id fun _ => .refl) .stop
  case stopInputRise => exact .still (.of_eq rfl rfl rfl rfl rfl rfl rfl rfl id fun _ => .refl)
  case unannouncedSheetWaitExpiry f => exact (Work.Op.feed (w := w) f _).does
  case blockTimerExpiry => exact Work.Op.breakBlock.does
  case releaseComesDue => exact (Work.Op.occasion (w := w) true).does
  case purgeDone p => exact (Work.Op.purgeDone p hc).does
  case purgeTimeout p => exact (Work.Op.purgeTimeout p (Bool.and_eq_true_iff.1 hc).1).does
  case stapleDone => exact w.does_whenSome _ _ fun k hk => (Work.Op.volumeDone k hk).does
  case stapleTimeout =>
    exact w.does_whenSome _ _ fun k hk => (Work.Op.volumeTimedOut k (State.volumeInFlight_of_late hk)).does
  case cartridgeFitted => exact Work.Op.cartridge.does
  case ejectDone => exact w.does_whenSome _ _ fun d hd => (Work.Op.deliver d (State.delivery_of_inFlight hd)).does
  case ejectTimeout =>
    obtain ⟨d, hd⟩ := Option.isSome_iff_exists.1 hc
    exact (Work.Op.deliveryTimedOut d (State.deliveryInFlight_of_late hd)).does
  case binCleared b => exact (Work.Op.clearBin (w := w) b).does
  case flashEnd b =>
    have heq : w.setBin b { w.ret.bins[b] with flash := none }
        = { w with ret := { w.ret with bins := w.ret.bins.set b { w.ret.bins[b] with flash := none } } } := by
      unfold Work.setBin
      simp [Work.touchIf]
    rw [heq]
    refine .still ⟨rfl, rfl, rfl, rfl, .inl rfl, rfl, rfl, ⟨_, rfl, fun i => ?_⟩, rfl, rfl, id, fun _ => .refl⟩
    by_cases hi : b = i
    · subst hi
      exact ⟨none, by simp⟩
    · refine ⟨w.ret.bins[i].flash, ?_⟩
      simp only [Fin.getElem_fin]
      rw [Vector.getElem_set_ne _ _ (fun h => hi (Fin.ext h))]
  case inboundCharacterTaken => exact .still (w.still_receive _ _ _)
  case pacingCharacterSent =>
    obtain ⟨x, hx⟩ := Option.isSome_iff_exists.1 hc
    rw [hx]
    exact .still (w.still_sendAside _ _ rfl rfl (LinkPort.outBounded_of rfl rfl rfl))
  case loopbackEchoSent =>
    cases h : w.link.echoes with
    | nil => exact .still (.refl w)
    | cons c rest =>
      refine .still (w.still_sendAside _ _ rfl rfl ?_)
      rintro ⟨h1, h2, h3, h4⟩
      refine ⟨h1, h2, h3, ?_⟩
      rw [h] at h4
      simpa [h] using Nat.le_of_succ_le h4

/-- What every command comes to. -/
theorem exec_does {c : Instr} {s t : State} (h : exec c s = .next t) : (Work.of s).Does (Work.of t) := by
  rcases exec_cases h with rfl | ⟨u, w, hw, rfl⟩
  · exact .still (.refl _)
  refine Work.Does.and_then ?_ w.still_finish (w.finish_latched .binFull)
  have hstart {u : State} {r : Record} (hu : u = s.dequeue ∨ u = s.completed r) : (Work.of s).Still (Work.of u) := by
    rcases hu with rfl | rfl
    · exact .of_eq rfl rfl rfl rfl rfl rfl rfl rfl id fun _ => .single (.taken s.port)
    · exact ((Work.of s).still_echo _).trans (Work.still_setReceiver _ .waiting)
  have hown {r : Record} {u : State} (hr : recordOf c = some r) (hu : u = s.dequeue ∨ u = s.completed r) :
      (Work.of s).Does (c.effect (Work.of u)) := by
    have hc : c.comes u = true := by cases c <;> first | rfl | cases hr
    exact Work.Does.after (hstart hu) (effect_does hc)
  cases hw with
  | discarded r u hr hu => exact .still (hstart hu)
  | offered r hr => exact .still ((hstart (.inr rfl)).trans (Work.still_offer _ _))
  | taken r u hr hu => exact hown hr hu
  | broadcast r u hr hu => exact (hown hr hu).and_then (.of_eq rfl rfl rfl rfl rfl rfl rfl rfl id fun _ => .refl) id
  | event hr hc => exact effect_does hc

end Sys2Proof.Machine
end

section
/-! SUPPORT. What a step makes of the Link Port (`exec_port`) and what the readings of a delivery are taken from
(`State.Reads`): the settling of `Obligations.LinkBoundsKept` and `Obligations.OutputsFollowKept`. -/

namespace Sys2Proof.Machine

/-! ### The Link Port and the settings over a command -/

theorem State.writeEntry_link (s : State) (x : Staged) : (s.writeEntry x).link = s.link := by
  unfold State.writeEntry
  split <;> rfl

theorem State.writeAll_link (s : State) (ws : List Staged) : (s.writeAll ws).link = s.link :=
  State.writeAll_keeps (P := fun t => t.link = s.link) (fun t x h => (t.writeEntry_link x).trans h) ws s rfl

theorem State.writeEntry_settings {s : State} {x : Staged} (h : x.ref ≠ .settings) :
    (s.writeEntry x).tables.settings = s.tables.settings := by
  unfold State.writeEntry
  split
  case h_7 hx _ => exact absurd hx h
  all_goals rfl

theorem State.writeAll_settings {ws : List Staged} (h : writesSettings ws = false) (s : State) :
    (s.writeAll ws).tables.settings = s.tables.settings := by
  induction ws generalizing s with
  | nil => rfl
  | cons x ws ih =>
    obtain ⟨hx, hws⟩ := Bool.or_eq_false_iff.1 (h : (decide (x.ref = .settings) || writesSettings ws) = false)
    exact (ih hws (s.writeEntry x)).trans (State.writeEntry_settings (of_decide_eq_false hx))

section
variable {G : Settings → Prop} {w u v : Work}

theorem Work.settleFeed_frame (w : Work) (f : FeedId) : (w.settleFeed f).frame = w.frame := by
  unfold Work.settleFeed
  dsimp only
  split
  · rfl
  · exact w.frame_setFeed _ _

/-- The marks, feeds and occasion that a write brings leave the frame alone. -/
theorem Work.meetWrite_shape (w : Work) (before : State) (ws : List Staged) : ∃ x : Work, x.frame = w.frame
    ∧ w.meetWrite before ws = if writesSettings ws then x.meetSettings else x := by
  refine ⟨_, ?_, rfl⟩
  rw [Work.frame_each _ _ _ fun x f => x.settleFeed_frame f, Work.frame_occasionIf]
  exact Work.frame_each _ _ _ fun x y => x.frame_touch y.ref

theorem Work.port_meetSettings (w : Work) :
    w.meetSettings.port = ⟨w.link.judgeWrite w.tables.settings, w.tables.settings⟩ := by
  unfold Work.meetSettings Work.judgeStaples
  dsimp only
  split <;> rfl

theorem Work.port_meetWrite (w : Work) (before : State) (ws : List Staged) : (w.meetWrite before ws).port
    = if writesSettings ws then ⟨w.link.judgeWrite w.tables.settings, w.tables.settings⟩ else w.port := by
  obtain ⟨x, hx, hw⟩ := w.meetWrite_shape before ws
  have hp : (⟨x.link, x.tables.settings⟩ : Port) = ⟨w.link, w.tables.settings⟩ := Work.port_of_frame hx
  obtain ⟨hl, hv⟩ := Port.mk.inj hp
  rw [hw]
  split
  · rw [x.port_meetSettings, hl, hv]
  · exact Work.port_of_frame hx

theorem Work.port_resetCommon (w : Work) (kind : ResetKind) : (w.resetCommon kind).port = w.port := by
  obtain ⟨fs, ps, bs, h, -⟩ := w.resetCommon_shape kind
  rw [h]
  rfl

/-- The operations and the Link Port: a write may judge HOLD, a reset may empty the port, the others leave it alone. -/
theorem Work.Op.port (h : w.Op u) (hG : G u.tables.settings) : PortMoves G w.port u.port := by
  cases h with
  | write ws =>
    have hu := (w.wrote ws).port_meetWrite w.toState ws
    have hlink : (w.wrote ws).link = w.link := State.writeAll_link w.toState ws
    split at hu
    · have hv : ((w.wrote ws).meetWrite w.toState ws).tables.settings = (w.wrote ws).tables.settings :=
        (Port.mk.inj hu).2
      rw [hu, hlink]
      exact .single (.rewritten w.port _ (hv ▸ hG))
    next hs =>
      have hv := State.writeAll_settings (Bool.eq_false_iff.2 hs) w.toState
      exact .of_eq (hu.trans (congrArg₂ Port.mk hlink hv))
  | reset kind x hx hl =>
    rw [x.port_resetCommon]
    cases kind
    case work =>
      obtain ⟨l, rfl⟩ := hx
      exact .of_eq (congrArg (fun m => (⟨m, w.tables.settings⟩ : Port)) hl)
    all_goals
      obtain ⟨now, l, straps, gate, rfl⟩ := hx
      exact .single (.restarted w.port l hl.1 hl.2.1 hl.2.2)
  | purgeDone p h => exact .of_eq (Work.port_of_frame (by simp))
  | purgeTimeout p h => exact .of_eq (Work.port_of_frame (by simp))
  | announce k j st c pages b hfree hp hb => exact .of_eq (Work.port_of_frame (w.frame_acceptPack _ _))
  | _ => exact .of_eq (Work.port_of_frame (by simp))

theorem Work.Still.settings (h : w.Still v) : v.tables.settings = w.tables.settings :=
  (TableStore.settings_of_banks h.banks).1

theorem Work.Does.port (h : w.Does v) (hG : G v.tables.settings) : PortMoves G w.port v.port := by
  cases h with
  | still h => exact h.port G
  | settled x u b hx hu hb hv =>
    have hsettled : (u.settle b.toState).port = u.port := Work.port_of_frame (u.frame_settle _)
    have hu' : u.tables.settings = v.tables.settings := by
      rw [hv.settings]
      exact (Port.mk.inj hsettled).2.symm
    exact ((hx.port G).trans (hu.port (hu' ▸ hG))).trans (hsettled ▸ hv.port G)

end

theorem exec_port {G : Settings → Prop} {c : Instr} {s t : State} (h : exec c s = .next t) (hG : G t.tables.settings) :
    PortMoves G s.port t.port := (exec_does h).port hG

/-! ### What the readings of a delivery are taken from -/

/-- What the lamps and the eligibility of packs read of a bin. -/
def BinRec.read (r : BinRec) : BinRec := { r with flash := none, lamp := .dark, lampSince := 0 }

/-- `s` and `t` hold the same packs, class queues, classes and bins, but for the flashes and what the lamps show. -/
structure State.Reads (s t : State) : Prop where
  packs : t.reg.packs = s.reg.packs
  queues : t.reg.queues = s.reg.queues
  classes : t.tables.classes = s.tables.classes
  bins : ∀ b : BinId, t.ret.bins[b].read = s.ret.bins[b].read

section
variable {s t : State} (h : s.Reads t)
include h

theorem State.Reads.pack (k : Handle) : t.pack k = s.pack k := by rw [State.pack, State.pack, h.packs]

theorem State.Reads.live : t.live = s.live := by
  simp only [State.live, h.packs, h.pack]

theorem State.Reads.classQueue (c : ClassId) : t.classQueue c = s.classQueue c := by
  rw [State.classQueue, State.classQueue, h.queues]

theorem State.Reads.isClassHead (k : Handle) : t.isClassHead k = s.isClassHead k := by
  rw [State.isClassHead, State.isClassHead, h.pack, h.classQueue]

theorem State.Reads.inTurn (k : Handle) : t.inTurn k = s.inTurn k := by
  have hpolicy : t.policyOf k = s.policyOf k := by simp only [State.policyOf, h.pack, h.classes]
  rw [State.inTurn, State.inTurn, hpolicy, h.isClassHead, h.pack]

theorem State.Reads.bin (b : BinId) : t.ret.bins[b].capacity = s.ret.bins[b].capacity
    ∧ t.ret.bins[b].fill = s.ret.bins[b].fill ∧ t.ret.bins[b].inService = s.ret.bins[b].inService
    ∧ t.ret.bins[b].lampMode = s.ret.bins[b].lampMode := by
  have hb := h.bins b
  simp only [BinRec.read, BinRec.mk.injEq] at hb
  obtain ⟨h1, h2, h3, h4, -⟩ := hb
  exact ⟨by assumption, by assumption, by assumption, by assumption⟩

theorem State.Reads.binOf (k : Handle) : t.binOf k = s.binOf k := by
  simp only [State.binOf, h.pack, h.classes]

theorem State.Reads.servingBin (k : Handle) : t.servingBin k = s.servingBin k := by
  simp only [State.servingBin, h.binOf, (h.bin _).2.2.1]

theorem State.Reads.hasRoom (k : Handle) (b : BinId) : t.hasRoom k b = s.hasRoom k b := by
  obtain ⟨hc, hf, -, -⟩ := h.bin b
  rw [State.hasRoom, State.hasRoom, hc, hf, h.pack]

theorem State.Reads.eligible (k : Handle) : t.eligible k = s.eligible k := by
  simp only [State.eligible, h.inTurn, h.servingBin, h.hasRoom]

theorem State.Reads.waitingIn (k : Handle) (b : BinId) : t.waitingIn k b = s.waitingIn k b := by
  rw [State.waitingIn, State.waitingIn, h.inTurn, h.servingBin, h.hasRoom]

theorem State.Reads.waitingForRoom (k : Handle) : t.waitingForRoom k = s.waitingForRoom k := by
  simp only [State.waitingForRoom, h.servingBin, h.waitingIn]

theorem State.Reads.lampShow (b : BinId) : t.lampShow b = s.lampShow b := by
  obtain ⟨hc, hf, -, hm⟩ := h.bin b
  simp only [State.lampShow, h.live, h.waitingIn, hc, hf, hm]

end

/-! ### The lamps -/

/-- A state with other lamps and flashes reads the same. -/
theorem State.reads_bins (s : State) (bs : Vector BinRec 24) (h : ∀ b : BinId, bs[b].read = s.ret.bins[b].read) :
    s.Reads { s with ret := { s.ret with bins := bs } } := ⟨rfl, rfl, rfl, h⟩

theorem State.Reads.trans {s t u : State} (h : s.Reads t) (k : t.Reads u) : s.Reads u :=
  ⟨k.packs.trans h.packs, k.queues.trans h.queues, k.classes.trans h.classes, fun b => (k.bins b).trans (h.bins b)⟩

theorem Work.driveLamp_reads (w : Work) (b : BinId) : w.toState.Reads (w.driveLamp b).toState := by
  unfold Work.driveLamp
  dsimp only
  split
  · exact ⟨rfl, rfl, rfl, fun _ => rfl⟩
  · refine State.reads_bins w.toState _ fun i => ?_
    simp only [Fin.getElem_fin, Vector.getElem_set]
    split
    next hi =>
      rw [show b = i from Fin.ext hi]
      rfl
    · rfl

theorem Work.driveLamp_lamp (w : Work) (b i : BinId) : (w.driveLamp b).ret.bins[i].lamp
    = if i = b then w.lampShow b else w.ret.bins[i].lamp := by
  unfold Work.driveLamp
  dsimp only
  split
  next hs =>
    split
    next hi => rw [hi, hs]
    · rfl
  · simp only [Work.setRet, Fin.getElem_fin, Vector.getElem_set]
    by_cases hi : i = b
    · rw [if_pos (congrArg Fin.val hi.symm), if_pos hi]
    · rw [if_neg fun e => hi (Fin.ext e.symm), if_neg hi]

/-- Lamps driven one after the other show what they should. -/
theorem Work.foldLamps_follow (l : List BinId) (w : Work) : w.toState.Reads (l.foldl Work.driveLamp w).toState
    ∧ ∀ i : BinId, (i ∈ l ∨ w.ret.bins[i].lamp = w.lampShow i) →
      (l.foldl Work.driveLamp w).ret.bins[i].lamp = w.lampShow i := by
  induction l generalizing w with
  | nil => exact ⟨⟨rfl, rfl, rfl, fun _ => rfl⟩, fun i hi => hi.resolve_left List.not_mem_nil⟩
  | cons b l ih =>
    have hone := w.driveLamp_reads b
    obtain ⟨hreads, hlamps⟩ := ih (w.driveLamp b)
    refine ⟨hone.trans hreads, fun i hi => ?_⟩
    rw [← hone.lampShow i]
    refine hlamps i ?_
    rw [w.driveLamp_lamp, hone.lampShow]
    by_cases hib : i = b
    · exact .inr (by rw [if_pos hib, hib])
    · rw [if_neg hib]
      exact hi.imp_left fun hm => (List.mem_cons.1 hm).resolve_left hib

/-- Once driven, every lamp shows what its mode and condition give. -/
theorem Work.driveLamps_follow (w : Work) : w.driveLamps.lampsFollow := by
  have heach : w.driveLamps = allBins.foldl Work.driveLamp w := rfl
  obtain ⟨hreads, hlamps⟩ := Work.foldLamps_follow allBins w
  rw [heach]
  intro b
  rw [hlamps b (.inl (mem_allBins b)), hreads.lampShow b]

theorem Work.settle_lampsFollow (w : Work) (s : State) : (w.settle s).lampsFollow := by
  unfold Work.settle
  dsimp only
  exact Work.driveLamps_follow _

/-- A change of the Link Port and the flashes leaves the readings alone. -/
theorem Work.Still.reads {w v : Work} (h : w.Still v) : w.toState.Reads v.toState := by
  obtain ⟨bs, hr, hb⟩ := h.ret
  refine ⟨h.packs, h.queues, (TableStore.settings_of_banks h.banks).2.2.2.2, fun b => ?_⟩
  obtain ⟨fl, e⟩ := hb b
  rw [hr]
  dsimp only
  rw [e]
  rfl

theorem Work.Still.lampsFollow {w v : Work} (h : w.Still v) (hw : w.lampsFollow) : v.lampsFollow := by
  intro b
  obtain ⟨bs, hr, hb⟩ := h.ret
  obtain ⟨fl, e⟩ := hb b
  rw [h.reads.lampShow, ← hw b, hr]
  dsimp only
  rw [e]

end Sys2Proof.Machine

namespace Sys2Proof.Proofs

open Sys2Proof.Machine

/-- Settles O10: a record joins the inbound queue only below its bound, a notice the outbound queue below its limit, an
echo below its own; the rest only takes away. -/
theorem linkBoundsKept : Obligations.LinkBoundsKept := by
  unfold Obligations.LinkBoundsKept
  intro s t hs h
  refine step_keeps (P := State.linkBounded) (fun _ _ h => h) (fun _ h => h) (fun _ h => h) (fun c s t h hs => ?_) h hs
  have hm := exec_port (G := fun _ => True) h trivial
  exact ⟨hm.keeps (fun p q => PortMove.inBounded) hs.1, hm.keeps (fun p q => PortMove.outBounded) hs.2⟩

/-- Settles O11: every step ends with ATTENTION judged; one that changes what a lamp reads drives the lamps; and HOLD is
judged whenever a record joins or leaves the inbound queue or the pair is written. -/
theorem outputsFollowKept : Obligations.OutputsFollowKept := by
  unfold Obligations.OutputsFollowKept
  intro s t h
  refine ⟨fun hs => ?_, fun hs => ?_, fun hr hs => ?_⟩
  · refine step_keeps (P := State.attentionFollows) (fun _ _ h => h) (fun _ h => h) (fun _ h => h)
      (fun c s t h hs => ?_) h hs
    rcases exec_cases h with rfl | ⟨u, w, -, rfl⟩
    · exact hs
    · exact w.finish_follows
  · refine step_keeps (P := State.lampsFollow) (fun _ _ h => h) (fun _ h => h) (fun _ h => h) (fun c s t h hs => ?_) h hs
    cases exec_does h with
    | still hk => exact hk.lampsFollow hs
    | settled x u b hx hu hb hv => exact hv.lampsFollow (u.settle_lampsFollow _)
  · have hkept : t.inRange ∧ t.holdFollows := by
      refine step_keeps (P := fun s => s.inRange ∧ s.holdFollows) (fun _ _ h => h) (fun _ h => h) (fun _ h => h)
        (fun c s t h hs => ?_) h ⟨hr, hs⟩
      have ht : t.inRange := exec_keeps (P := fun w => w.toState.inRange) (fun _ _ _ => Move_inRange)
        (fun _ _ _ => Begins_inRange) h hs.1
      have hm := exec_port (G := fun v => v.clamp = v) h ht.1
      exact ⟨ht, (hm.keeps (P := Port.HoldFollows) (fun p q => PortMove.holdFollows) ⟨hs.1.1, hs.2⟩).2⟩
    exact hkept.2

end Sys2Proof.Proofs
end

section
/-! SUPPORT. What packs, queues, pockets, the Stapler and the Return Unit hold between them (`Plant`), and the turns that
a step makes of it (`Plant.Turn`): every operation of a step is one turn, or none. The rules that tie those blocks to one
another are then a case split over the turns. -/

namespace Sys2Proof.Machine

/-- What the packs, the class queues, the pockets, the Stapler and the Return Unit hold, whether the run state is HALT, and
CARTRIDGE_SIZE. -/
@[ext] structure Plant where
  pack : Handle → PackRec
  queue : ClassId → List Handle
  pocket : PocketId → PocketRec
  stapler : Stapler
  returns : ReturnState
  delivery : Option DeliveryRec
  halted : Bool
  cartridge : Nat

/-- The plant of a state. -/
def State.plant (s : State) : Plant where
  pack := s.pack
  queue := s.classQueue
  pocket p := s.pockets[p]
  stapler := s.stapler
  returns := s.ret.state
  delivery := s.ret.delivery
  halted := s.halted
  cartridge := s.tables.settings.cartridgeSize

section
variable (s : State)
@[simp] theorem State.plant_pack (k : Handle) : s.plant.pack k = s.pack k := rfl
@[simp] theorem State.plant_queue (c : ClassId) : s.plant.queue c = s.classQueue c := rfl
@[simp] theorem State.plant_pocket (p : PocketId) : s.plant.pocket p = s.pockets[p] := rfl
@[simp] theorem State.plant_stapler : s.plant.stapler = s.stapler := rfl
@[simp] theorem State.plant_returns : s.plant.returns = s.ret.state := rfl
@[simp] theorem State.plant_delivery : s.plant.delivery = s.ret.delivery := rfl
@[simp] theorem State.plant_halted : s.plant.halted = s.halted := rfl
@[simp] theorem State.plant_cartridge : s.plant.cartridge = s.tables.settings.cartridgeSize := rfl
end

namespace Plant

variable (P : Plant)

/-- Pack `k` has the record `r`. -/
def setPack (k : Handle) (r : PackRec) : Plant := { P with pack := Function.update P.pack k r }

/-- Class `c` has the delivery queue `q`. -/
def setQueue (c : ClassId) (q : List Handle) : Plant := { P with queue := Function.update P.queue c q }

/-- Pocket `p` has the record `r`. -/
def setPocket (p : PocketId) (r : PocketRec) : Plant := { P with pocket := Function.update P.pocket p r }

/-- The Stapler has the record `r`. -/
def setStapler (r : Stapler) : Plant := { P with stapler := r }

/-- The Return Unit has the state `r` and the delivery `d`. -/
def setReturn (r : ReturnState) (d : Option DeliveryRec) : Plant := { P with returns := r, delivery := d }

/-- The run state is HALT, or is not. -/
def setHalted (b : Bool) : Plant := { P with halted := b }

/-- The record of the pocket, where there is one, changes. -/
def onPocket (o : Option PocketId) (f : PocketRec → PocketRec) : Plant :=
  match o with
  | none => P
  | some p => P.setPocket p (f (P.pocket p))

/-- Pack `k` leaves the delivery queue of its class. -/
def leaveQueue (k : Handle) : Plant :=
  P.setQueue (P.pack k).cls ((P.queue (P.pack k).cls).filter fun j => decide (j ≠ k))

@[simp] theorem setPocket_self (p : PocketId) : P.setPocket p (P.pocket p) = P := by simp [setPocket]
@[simp] theorem setPack_self (k : Handle) : P.setPack k (P.pack k) = P := by simp [setPack]
@[simp] theorem onPocket_stapler (o : Option PocketId) (f : PocketRec → PocketRec) :
    (P.onPocket o f).stapler = P.stapler := by
  cases o <;> rfl
theorem onPocket_setStapler (o : Option PocketId) (f : PocketRec → PocketRec) (r : Stapler) :
    (P.setStapler r).onPocket o f = (P.onPocket o f).setStapler r := by
  cases o <;> rfl
theorem setPack_setPack (k : Handle) (x y : PackRec) : (P.setPack k x).setPack k y = P.setPack k y := by
  simp [setPack]
theorem setPack_setStapler (k : Handle) (x : PackRec) (r : Stapler) :
    (P.setStapler r).setPack k x = (P.setPack k x).setStapler r := rfl
@[simp] theorem setHalted_self : P.setHalted P.halted = P := rfl

end Plant

/-- The Stapler's record once pack `k` has left its queue (R107). -/
def Stapler.without (r : Stapler) (k : Handle) : Stapler :=
  { r with
    queue := r.queue.filter fun j => decide (j ≠ k)
    work := if decide (r.queue.head? = some k) && !decide (r.work.map WorkRec.op = some .inFlight) then none else r.work
    state := if decide (r.queue.head? = some k) && decide (r.state = .waitingCartridge) then .idle else r.state }

/-- A pocket's record once its purge is asked for (R86). -/
def PocketRec.purgeAsked (r : PocketRec) : PocketRec :=
  match r.state with
  | .collating => { r with state := .purging, purge := .pending, offset := false }
  | .held => { r with state := .purging, purge := .pending }
  | .stapling => { r with state := .purging, purge := .pending }
  | .purging => r
  | .empty => r
  | .ejecting => r
  | .outOfService => r

/-- A pocket's record once its running purge is cut off (R90). -/
def PocketRec.purgeCutOff (r : PocketRec) : PocketRec := if r.purge = .running then { r with purge := .pending } else r

/-- A pocket's record as it presents volume `v` to the staple head (R78). -/
def PocketRec.presenting (r : PocketRec) (v : Nat) : PocketRec :=
  { r with state := .stapling, volume := v, offset := evenVolume v }

/-- A pocket's record as it goes HELD with its pack finished (R78, R103). -/
def PocketRec.finished (r : PocketRec) (volumes : Nat) : PocketRec :=
  { r with state := .held, volume := volumes, offset := false }

/-- A pack's record once its last sheet has left it where it waited for its purge (R15); `none` where nothing waits. -/
def PackRec.purged (r : PackRec) : Option PackRec :=
  match r.state with
  | .restarting => some { r with state := .announced, pocket := none }
  | .disposing => some PackRec.cleared
  | _ => none

/-! ### The setters and the plant -/

section
variable (w : Work)

@[simp] theorem Work.setPack_plant (k : Handle) (r : PackRec) : (w.setPack k r).plant = w.plant.setPack k r := by
  ext x : 2
  · simp only [State.plant, Plant.setPack, Work.pack_setPack, Function.update_apply]
  · simp [State.plant, Plant.setPack, State.classQueue]
  all_goals simp [State.plant, Plant.setPack, State.halted]

@[simp] theorem Work.setClassQueue_plant (c : ClassId) (q : List Handle) :
    (w.setClassQueue c q).plant = w.plant.setQueue c q := by
  ext x : 2
  · simp [State.plant, Plant.setQueue]
  · simp only [State.plant, Plant.setQueue, State.classQueue, Work.setClassQueue_reg, Function.update_apply]
    split
    next h => rw [h, Sparse.get_put_self]
    next h => rw [Sparse.get_put_ne _ _ _ h]
  all_goals simp [State.plant, Plant.setQueue, State.halted]

@[simp] theorem Work.setPocket_plant (p : PocketId) (r : PocketRec) :
    (w.setPocket p r).plant = w.plant.setPocket p r := by
  ext x : 2
  · simp [State.plant, Plant.setPocket]
  · simp [State.plant, Plant.setPocket, State.classQueue]
  · simp only [State.plant, Plant.setPocket, Work.setPocket_pockets, Fin.getElem_fin, Vector.getElem_set,
      Function.update_apply, Fin.ext_iff, eq_comm]
  all_goals simp [State.plant, Plant.setPocket, State.halted]

@[simp] theorem Work.setStaplerRec_plant (r : Stapler) : (w.setStaplerRec r).plant = w.plant.setStapler r := rfl

@[simp] theorem Work.setRet_plant (r : ReturnUnit) : (w.setRet r).plant = w.plant.setReturn r.state r.delivery := rfl

@[simp] theorem Work.setRunState_plant (st : RunState) : (w.setRunState st).plant = w.plant.setHalted st.halts := by
  obtain ⟨o, h⟩ := w.setRunState_shape st
  rw [h]
  exact congrArg w.plant.setHalted (State.halted_eq _)

theorem State.plant_of_eq {s t : State} (hr : t.reg.packs = s.reg.packs) (hq : t.reg.queues = s.reg.queues)
    (hp : t.pockets = s.pockets) (hs : t.stapler = s.stapler) (hret : t.ret.state = s.ret.state)
    (hd : t.ret.delivery = s.ret.delivery) (hrun : t.run.state = s.run.state)
    (hv : t.tables.settings = s.tables.settings) : t.plant = s.plant := by
  unfold State.plant
  have hpack : t.pack = s.pack := by funext k; rw [State.pack, State.pack, hr]
  have hqueue : t.classQueue = s.classQueue := by funext c; rw [State.classQueue, State.classQueue, hq]
  have hhalt : t.halted = s.halted := by rw [State.halted, State.halted, hrun]
  rw [hpack, hqueue, hp, hs, hret, hd, hv, hhalt]

@[simp] theorem Work.setFeed_plant (f : FeedId) (r : FeedRec) : (w.setFeed f r).plant = w.plant :=
  State.plant_of_eq (by simp) (by simp) (by simp) (by simp) (by simp) (by simp) (by simp) (by simp)

@[simp] theorem Work.setBin_plant (b : BinId) (r : BinRec) : (w.setBin b r).plant = w.plant :=
  State.plant_of_eq (by simp) (by simp) (by simp) (by simp) (by simp) (by simp) (by simp) (by simp)

@[simp] theorem Work.setArb_plant (r : MergeArbiter) : (w.setArb r).plant = w.plant := rfl
@[simp] theorem Work.latch_plant (c : Cause) : (w.latch c).plant = w.plant := rfl
@[simp] theorem Work.notify_plant (r : OutRecord) : (w.notify r).plant = w.plant := rfl
@[simp] theorem Work.occasionIf_plant (b : Bool) : (w.occasionIf b).plant = w.plant := rfl
@[simp] theorem Work.restartTimer_plant : w.restartTimer.plant = w.plant := rfl
@[simp] theorem Work.addDrains_plant (l : List Byte) : (w.addDrains l).plant = w.plant := rfl
@[simp] theorem Work.setReport_plant (r : Report) : (w.setReport r).plant = w.plant := rfl
@[simp] theorem Work.setGate_plant (g : Gate) : (w.setGate g).plant = w.plant := rfl
@[simp] theorem Work.dropHead_plant : w.dropHead.plant = w.plant := rfl
@[simp] theorem Work.judge_plant : w.judge.plant = w.plant := rfl
@[simp] theorem Work.pulse_plant (f : FeedId) : (w.pulse f).plant = w.plant := rfl
@[simp] theorem Work.faultFeed_plant (f : FeedId) : (w.faultFeed f).plant = w.plant := w.setFeed_plant _ _

@[simp] theorem Work.touchIf_plant (b : Bool) (e : EntryRef) : (w.touchIf b e).plant = w.plant := by
  obtain ⟨m, h⟩ := w.touchIf_shape b e
  rw [h]
  rfl

@[simp] theorem Work.judgeStaples_plant : w.judgeStaples.plant = w.plant := by
  unfold Work.judgeStaples
  split <;> rfl

theorem Work.each_plant {α : Type} (f : Work → α → Work) (l : List α) (h : ∀ (x : Work) y, (f x y).plant = x.plant) :
    (w.each f l).plant = w.plant := by
  induction l generalizing w with
  | nil => rfl
  | cons y l ih => exact (ih (f w y)).trans (h w y)

/-! ### The operations and the plant -/

@[simp] theorem Work.requestPurge_plant (p : PocketId) :
    (w.requestPurge p).plant = w.plant.setPocket p (w.plant.pocket p).purgeAsked := by
  unfold Work.requestPurge PocketRec.purgeAsked
  dsimp only [State.plant]
  cases hs : w.pockets[p].state
  all_goals dsimp only
  case collating => exact w.setPocket_plant _ _
  case held => exact w.setPocket_plant _ _
  case stapling => exact w.setPocket_plant _ _
  all_goals exact (w.plant.setPocket_self p).symm

@[simp] theorem Work.purgeHeld_plant (o : Option PocketId) :
    (w.purgeHeld o).plant = w.plant.onPocket o PocketRec.purgeAsked := by
  cases o with
  | none => rfl
  | some p => exact w.requestPurge_plant p

@[simp] theorem Work.leaveClassQueue_plant (k : Handle) : (w.leaveClassQueue k).plant = w.plant.leaveQueue k :=
  w.setClassQueue_plant _ _

@[simp] theorem Work.leaveStapleQueue_plant (k : Handle) :
    (w.leaveStapleQueue k).plant = w.plant.setStapler (w.stapler.without k) := rfl

@[simp] theorem Work.leaveDeliveryQueue_plant (k : Handle) : (w.leaveDeliveryQueue k).plant = w.plant := rfl

@[simp] theorem Work.freePack_plant (k : Handle) : (w.freePack k).plant = w.plant.setPack k PackRec.cleared := by
  unfold Work.freePack
  dsimp only
  rw [Work.addDrains_plant, ← w.setPack_plant]
  exact State.plant_of_eq rfl rfl rfl rfl rfl rfl rfl rfl

@[simp] theorem Work.cutOffPurge_plant (p : PocketId) :
    (w.cutOffPurge p).plant = w.plant.setPocket p (w.plant.pocket p).purgeCutOff := by
  unfold Work.cutOffPurge PocketRec.purgeCutOff
  dsimp only
  by_cases h : w.pockets[p].purge = .running
  · rw [if_pos h, if_pos (show (w.plant.pocket p).purge = .running from h)]
    exact w.setPocket_plant _ _
  · rw [if_neg h, if_neg (show ¬(w.plant.pocket p).purge = .running from h)]
    exact (w.plant.setPocket_self p).symm

@[simp] theorem Work.presentVolume_plant (p : PocketId) (v : Nat) :
    (w.presentVolume p v).plant = w.plant.setPocket p ((w.plant.pocket p).presenting v) := w.setPocket_plant _ _

@[simp] theorem Work.holdPocket_plant (p : PocketId) (v : Nat) :
    (w.holdPocket p v).plant = w.plant.setPocket p ((w.plant.pocket p).finished v) := w.setPocket_plant _ _

@[simp] theorem Work.purgeEnded_plant (k : Handle) :
    (w.purgeEnded k).plant = (w.pack k).purged.elim w.plant (w.plant.setPack k) := by
  unfold Work.purgeEnded PackRec.purged
  dsimp only
  cases (w.pack k).state
  case restarting => exact w.setPack_plant _ _
  case disposing => exact w.freePack_plant _
  all_goals rfl

end

end Sys2Proof.Machine
end

section
/-! SUPPORT. The turns of the plant, and the lemma for each operation that it is a turn or none. -/

namespace Sys2Proof.Machine

/-- The volume plan is one of the pack's pages: its end pages rise from above 0 to the last page (R83). -/
def PackRec.planned (r : PackRec) : Prop :=
  (0 :: r.snap.plan.ends).Pairwise (· < ·) ∧ r.snap.plan.ends.getLast? = some r.pages

/-- The Stapler's record once an operation in flight is cut off (R108). -/
def Stapler.cutOff (r : Stapler) : Stapler :=
  match r.state, r.work with
  | .stapling, some k =>
    if k.op = .inFlight then { r with state := .idle, work := some { k with op := .cutOff }, command := none } else r
  | _, _ => r

/-- What a delivery record names: the pack, its generation and its pocket. -/
def DeliveryRec.names (d : DeliveryRec) : Handle × Nat × PocketId := (d.handle, d.gen, d.pocket)

namespace Plant

/-- The pack of a work record is STAPLING in the record's generation. -/
def stillStapling (P : Plant) (k : WorkRec) : Prop :=
  (P.pack k.handle).state = .stapling ∧ (P.pack k.handle).gen = k.gen

/-- The Stapler is IDLE, and `k` is the work record with which it takes up the head of its queue (R97). -/
structure InHand (P : Plant) (k : WorkRec) : Prop where
  idle : P.stapler.state = .idle
  head : P.stapler.queue.head? = some k.handle
  gen : k.gen = (P.pack k.handle).gen
  held : P.stapler.work = some k ∨ (k.volume = 1 ∧ k.stapled = 0 ∧ k.op = .none)

/-- The operation of the work record `k` is in flight (R95). -/
def Busy (P : Plant) (k : WorkRec) : Prop :=
  P.stapler.state = .stapling ∧ P.stapler.work = some k ∧ k.op = .inFlight

/-- The pocket of the delivery `d` is emptied and the Return Unit is IDLE (R117, R119). -/
def dropDelivery (P : Plant) (d : DeliveryRec) : Plant :=
  (P.setPocket d.pocket (P.pocket d.pocket).emptied).setReturn .idle none

/-- One turn of the plant. -/
inductive Turn (P : Plant) : Plant → Prop
  | announced (k : Handle) (r : PackRec) (hfree : (P.pack k).state = .free)
    (hr : r.state = .announced ∧ r.pocket = none ∧ r.released = 0 ∧ r.received = 0) (hp : r.planned) :
    Turn P ((P.setPack k r).setQueue r.cls (P.queue r.cls ++ [k]))
  | flagged (k : Handle) (f : PackFlags) : Turn P (P.setPack k { P.pack k with flags := f })
  | released (k : Handle) (ho : (P.pack k).state = .opened) (hp : (P.pack k).released + 1 ≤ (P.pack k).pages) :
    Turn P (P.setPack k { P.pack k with released := (P.pack k).released + 1 })
  | opened (k : Handle) (p : PocketId) (f : PackFlags) (ha : (P.pack k).state = .announced) (hp : 1 ≤ (P.pack k).pages)
    (he : (P.pocket p).state = .empty) :
    Turn P ((P.setPocket p { P.pocket p with
        state := .collating, pack := some k, sheets := 0, thickness := 0, volume := 1, offset := false }).setPack k
      { P.pack k with state := .opened, pocket := some p, released := 1, flags := f })
  | admitted (k : Handle) (p : PocketId) (st : PackState) (q : List Handle) (ho : (P.pack k).state = .opened)
    (hp : (P.pack k).pocket = some p) (hr : (P.pack k).received < (P.pack k).released)
    (hst : st = if (P.pack k).received + 1 = (P.pack k).pages then
      (if (P.pack k).snap.plan.stapled then .complete else .ready) else .opened)
    (hq : q = if st = .complete then P.stapler.queue ++ [k] else P.stapler.queue) :
    Turn P (((P.setPocket p ((P.pocket p).admitted (P.pack k))).setPack k
      { P.pack k with received := (P.pack k).received + 1, state := st }).setStapler { P.stapler with queue := q })
  | stapling (k : WorkRec) (n c : Nat) (start : Time) (allowance : Nat) (hk : P.InHand k)
    (hn : n ≤ P.stapler.remaining) :
    Turn P (((P.setPack k.handle { P.pack k.handle with
        state := if k.volume = 1 ∧ (P.pack k.handle).state = .complete then .stapling
          else (P.pack k.handle).state }).onPocket (P.pack k.handle).pocket fun x => x.presenting k.volume).setStapler
      { state := .stapling, queue := P.stapler.queue, remaining := n
        work := some { k with op := .inFlight, start := start, allowance := allowance }
        command := (P.pack k.handle).pocket.map fun p => (p, c) })
  | waiting (k : WorkRec) (hk : P.InHand k) : Turn P (P.setStapler { P.stapler with
      state := .waitingCartridge, work := some { k with op := .none }, command := none })
  | finished (k : Handle) (f : PackFlags) (hs : k ∈ P.stapler.queue ∨ (P.pack k).state = .stapling) :
    Turn P (((P.setStapler { P.stapler with
        queue := P.stapler.queue.filter fun j => decide (j ≠ k), state := .idle, work := none
        command := none }).onPocket (P.pack k).pocket fun x => x.finished (P.pack k).volumes).setPack k
      { P.pack k with state := .ready, flags := f })
  | nextVolume (k : WorkRec) (hk : P.Busy k) (hs : P.stillStapling k) (hv : k.volume < (P.pack k.handle).volumes) :
    Turn P (P.setStapler { P.stapler with
      state := .idle, command := none
      work := some { k with stapled := k.stapled + 1, volume := k.volume + 1, op := .none } })
  | dropped : Turn P (P.setStapler { P.stapler with state := .idle, work := none, command := none })
  | timedOut (k : WorkRec) (o : Option WorkRec) (hk : P.Busy k)
    (ho : o = none ∨ P.stillStapling k ∧ o = some { k with op := .none }) :
    Turn P (P.setStapler { P.stapler with state := .faulted, work := o, command := none })
  | unfaulted (h : P.stapler.state = .faulted) :
    Turn P (P.setStapler { P.stapler with state := .idle, command := none })
  | refilled : Turn P (P.setStapler { P.stapler with
      remaining := P.cartridge, state := if P.stapler.state = .waitingCartridge then .idle else P.stapler.state })
  | delivering (k : Handle) (p : PocketId) (d : DeliveryRec) (hs : (P.pack k).state = .ready)
    (hp : (P.pack k).pocket = some p) (hi : P.returns = .idle) (hd : d.names = (k, (P.pack k).gen, p)) :
    Turn P (((P.setPack k { P.pack k with state := .delivering }).setPocket p
      { P.pocket p with state := .ejecting }).setReturn .ejecting (some d))
  | delivered (d : DeliveryRec) (hd : P.delivery = some d) (hs : (P.pack d.handle).state = .delivering) :
    Turn P (((P.dropDelivery d).leaveQueue d.handle).setPack d.handle PackRec.cleared)
  | undelivered (d : DeliveryRec) (hd : P.delivery = some d)
    (hs : ¬((P.pack d.handle).state = .delivering ∧ (P.pack d.handle).gen = d.gen)) : Turn P (P.dropDelivery d)
  | lostRestarted (d : DeliveryRec) (hd : P.delivery = some d)
    (hl : (P.pack d.handle).state ≠ .free ∧ (P.pack d.handle).state ≠ .disposing) :
    Turn P (((P.dropDelivery d).setPack d.handle { P.pack d.handle with pocket := none }.restarted).setStapler
      (P.stapler.without d.handle))
  | lostFreed (d : DeliveryRec) (hd : P.delivery = some d)
    (hl : (P.pack d.handle).state ≠ .free ∧ (P.pack d.handle).state ≠ .disposing) :
    Turn P ((((P.dropDelivery d).leaveQueue d.handle).setStapler (P.stapler.without d.handle)).setPack d.handle
      PackRec.cleared)
  | lostIgnored (d : DeliveryRec) (hd : P.delivery = some d)
    (hl : ¬((P.pack d.handle).state ≠ .free ∧ (P.pack d.handle).state ≠ .disposing ∧ (P.pack d.handle).gen = d.gen)) :
    Turn P ((P.dropDelivery d).setPack d.handle { P.pack d.handle with pocket := none })
  | restarted (k : Handle) (hl : (P.pack k).state ≠ .free ∧ (P.pack k).state ≠ .disposing)
    (hd : (P.pack k).state = .delivering → (P.pack k).pocket = none) :
    Turn P (((P.setPack k (P.pack k).restarted).setStapler (P.stapler.without k)).onPocket (P.pack k).pocket
      PocketRec.purgeAsked)
  | disposed (k : Handle) (hl : (P.pack k).state ≠ .free ∧ (P.pack k).state ≠ .disposing ∧ (P.pack k).state ≠ .delivering)
    (hp : (P.pack k).state ≠ .announced ∨ (P.pack k).pocket ≠ none) :
    Turn P ((((P.leaveQueue k).setStapler (P.stapler.without k)).setPack k
      { P.pack k with state := .disposing }).onPocket (P.pack k).pocket PocketRec.purgeAsked)
  | freed (k : Handle) (hl : (P.pack k).state ≠ .free ∧ (P.pack k).state ≠ .disposing)
    (hp : (P.pack k).state = .announced ∨ (P.pack k).pocket = none) :
    Turn P (((P.leaveQueue k).setStapler (P.stapler.without k)).setPack k PackRec.cleared)
  | purged (p : PocketId) (x : PocketRec) (hr : (P.pocket p).state = .purging ∧ (P.pocket p).purge = .running)
    (hx : x = (P.pocket p).emptied ∨ x = (P.pocket p).timedOut) (hn : ∀ k ∈ (P.pocket p).pack, (P.pack k).purged = none) :
    Turn P (P.setPocket p x)
  | purgedPack (p : PocketId) (x : PocketRec) (k : Handle) (r : PackRec)
    (hr : (P.pocket p).state = .purging ∧ (P.pocket p).purge = .running)
    (hx : x = (P.pocket p).emptied ∨ x = (P.pocket p).timedOut) (hk : (P.pocket p).pack = some k)
    (hn : (P.pack k).purged = some r) : Turn P ((P.setPocket p x).setPack k r)
  | purging (p : PocketId) (start : Time) (allowance : Nat)
    (hs : (P.pocket p).state = .purging ∧ (P.pocket p).purge = .pending) (hh : P.halted = false)
    (ho : ¬(P.stapler.work.map WorkRec.op = some .inFlight ∧ P.stapler.command.map Prod.fst = some p)) :
    Turn P (P.setPocket p { P.pocket p with
      purge := .running, offset := false, purgeStart := start, purgeAllowance := allowance })
  | halted (o : Option DeliveryRec) (ho : o.map DeliveryRec.names = P.delivery.map DeliveryRec.names) :
    Turn P { P with
      stapler := P.stapler.cutOff, delivery := o, pocket := fun p => (P.pocket p).purgeCutOff, halted := true }
  | unhalted (h : ∀ k ∈ P.stapler.work, k.op = .cutOff → P.stapler.state ≠ .idle) : Turn P (P.setHalted false)
  | redelivered (o : Option DeliveryRec) (ho : o.map DeliveryRec.names = P.delivery.map DeliveryRec.names) :
    Turn P (P.setReturn P.returns o)
  | undeliverable (hd : P.delivery ≠ none) : Turn P (P.setReturn .faulted P.delivery)
  | serviceWritten (p : PocketId) (b : Bool) : Turn P (P.setPocket p ((P.pocket p).serviceWritten b))
  | cartridge (n : Nat) : Turn P { P with
      stapler := { P.stapler with remaining := min P.stapler.remaining n }, cartridge := n }
  | reset (workOnly : Bool) (n m : Nat) (h : n ≤ m ∨ (n = P.stapler.remaining ∧ m = P.cartridge)) :
    Turn P {
      pack := fun _ => PackRec.cleared, queue := fun _ => [], pocket := fun p => (P.pocket p).reset workOnly
      stapler := { state := .idle, queue := [], remaining := n, work := none, command := none }
      returns := .idle, delivery := none, halted := false, cartridge := m }

/-- Any number of turns of the plant. -/
abbrev Turns : Plant → Plant → Prop := Relation.ReflTransGen Turn

end Plant

/-! ### The operations of the packs -/

section
variable {A : Plant} {w : Work}

theorem Plant.Turns.of_plant {v : Work} (h : A.Turns w.plant) (hv : v.plant = w.plant) : A.Turns v.plant := hv ▸ h

theorem Plant.Turns.one {v : Work} {Q : Plant} (h : A.Turns w.plant) (hv : v.plant = Q) (hQ : w.plant.Turn Q) :
    A.Turns v.plant := hv ▸ h.tail hQ

@[simp] theorem Work.stapler_leaveClassQueue (w : Work) (k : Handle) : (w.leaveClassQueue k).stapler = w.stapler :=
  w.setClassQueue_stapler _ _

theorem Work.restartPack_plant (w : Work) (k : Handle) (c : RestartCause) : (w.restartPack k c).plant
    = ((w.plant.setPack k (w.pack k).restarted).setStapler (w.stapler.without k)).onPocket (w.pack k).pocket
      PocketRec.purgeAsked := by
  simp [Work.restartPack]

theorem Work.abandonPack_plant_free (w : Work) {k : Handle} (c : RestartCause) (hp : (w.pack k).pocket = none) :
    (w.abandonPack k c).plant
    = ((w.plant.leaveQueue k).setStapler (w.stapler.without k)).setPack k PackRec.cleared := by
  simp [Work.abandonPack, hp]

theorem Work.abandonPack_plant_held (w : Work) {k : Handle} (c : RestartCause) (hp : (w.pack k).pocket ≠ none) :
    (w.abandonPack k c).plant = (((w.plant.leaveQueue k).setStapler (w.stapler.without k)).setPack k
      { w.pack k with state := .disposing }).onPocket (w.pack k).pocket PocketRec.purgeAsked := by
  obtain ⟨p, hp⟩ := Option.ne_none_iff_exists'.1 hp
  simp [Work.abandonPack, hp, Plant.onPocket]

theorem Plant.Turns.restartPack (h : A.Turns w.plant) (k : Handle) (c : RestartCause)
    (hl : (w.pack k).state ≠ .free ∧ (w.pack k).state ≠ .disposing)
    (hd : (w.pack k).state = .delivering → (w.pack k).pocket = none) : A.Turns (w.restartPack k c).plant :=
  Plant.Turns.one h (w.restartPack_plant k c) (.restarted k hl hd)

theorem Plant.Turns.abandonPack (h : A.Turns w.plant) (k : Handle) (c : RestartCause)
    (hl : (w.pack k).state ≠ .free ∧ (w.pack k).state ≠ .disposing)
    (hd : (w.pack k).state = .delivering → (w.pack k).pocket = none) : A.Turns (w.abandonPack k c).plant := by
  by_cases hp : (w.pack k).pocket = none
  · exact Plant.Turns.one h (w.abandonPack_plant_free c hp) (.freed k hl (.inr hp))
  · exact Plant.Turns.one h (w.abandonPack_plant_held c hp) (.disposed k ⟨hl.1, hl.2, fun hs => hp (hd hs)⟩ (.inr hp))

theorem State.takesRestart_iff {s : State} {k : Handle} {g : Nat} : s.takesRestart k g = true
    ↔ (s.pack k).state ≠ .free ∧ (s.pack k).state ≠ .disposing ∧ (s.pack k).gen = g
      ∧ ((s.pack k).state = .delivering → (s.pack k).pocket = none) := by
  simp only [State.takesRestart, Bool.and_eq_true, decide_eq_true_eq, Bool.not_eq_true', Bool.and_eq_false_iff,
    decide_eq_false_iff_not, Option.isSome_eq_false_iff, Option.isNone_iff_eq_none, ← imp_iff_not_or, and_assoc]

theorem Plant.Turns.requestRestart (h : A.Turns w.plant) (k : Handle) (g : Nat) (c : RestartCause) :
    A.Turns (w.requestRestart k g c).plant := by
  unfold Work.requestRestart
  split
  next ht =>
    obtain ⟨hf, hx, -, hd⟩ := State.takesRestart_iff.1 ht
    split
    · exact (h.restartPack k c ⟨hf, hx⟩ hd).of_plant (Work.judge_plant _)
    · exact (h.abandonPack k c ⟨hf, hx⟩ hd).of_plant (Work.judge_plant _)
  · exact h

theorem Plant.Turns.requestFor (h : A.Turns w.plant) (e : InFlight) (c : RestartCause) : A.Turns (w.requestFor e c).plant := by
  unfold Work.requestFor
  split
  · exact h.requestRestart _ _ _
  · exact h

theorem Plant.Turns.withdrawPack (h : A.Turns w.plant) (k : Handle) (hl : withdrawRefusal (w.pack k).state = none) :
    A.Turns (w.withdrawPack k).plant := by
  have hlive : (w.pack k).state ≠ .free ∧ (w.pack k).state ≠ .disposing ∧ (w.pack k).state ≠ .delivering := by
    cases hs : (w.pack k).state <;> simp [hs, withdrawRefusal] at hl ⊢
  by_cases ha : (w.pack k).state = .announced
  · exact Plant.Turns.one h (by simp [Work.withdrawPack, ha]) (.freed k ⟨hlive.1, hlive.2.1⟩ (.inl ha))
  · exact Plant.Turns.one h (by simp [Work.withdrawPack, ha]) (.disposed k hlive (.inl ha))

theorem Plant.Turns.endPurge (h : A.Turns w.plant) (p : PocketId) (x : PocketRec) (hr : w.purgeRunning p = true)
    (hx : x = w.pockets[p].emptied ∨ x = w.pockets[p].timedOut) : A.Turns (w.endPurge p x).plant := by
  have hrun := of_decide_eq_true hr
  unfold Work.endPurge
  dsimp only
  split
  next hn => exact Plant.Turns.one h (w.setPocket_plant p x) (.purged p x hrun hx (by rw [State.plant_pocket, hn]; nofun))
  next k hk =>
    have hplant : ((w.setPocket p x).purgeEnded k).plant
        = (w.pack k).purged.elim (w.plant.setPocket p x) ((w.plant.setPocket p x).setPack k) := by
      rw [Work.purgeEnded_plant, Work.pack_setPocket, Work.setPocket_plant]
    cases hq : (w.pack k).purged with
    | none =>
      rw [hq] at hplant
      refine Plant.Turns.one h hplant (.purged p x hrun hx fun j hj => ?_)
      rw [State.plant_pocket, hk] at hj
      cases hj
      exact hq
    | some r =>
      rw [hq] at hplant
      exact Plant.Turns.one h hplant (.purgedPack p x k r hrun hx hk hq)

theorem Plant.Turns.setFlags (h : A.Turns w.plant) (k : Handle) (f : PackFlags) :
    A.Turns (w.setPack k { w.pack k with flags := f }).plant := Plant.Turns.one h (w.setPack_plant _ _) (.flagged k f)

theorem Plant.Turns.each {α : Type} (h : A.Turns w.plant) (f : Work → α → Work) (l : List α)
    (hf : ∀ x y, A.Turns x.plant → A.Turns (f x y).plant) : A.Turns (w.each f l).plant := by
  induction l generalizing w with
  | nil => exact h
  | cons y l ih => exact ih (hf w y h)

theorem Plant.Turns.startPurges (h : A.Turns w.plant) : A.Turns w.startPurges.plant :=
  h.each _ _ fun x p hx => by
    unfold Work.startPurge
    dsimp only
    split
    next hc =>
      simp only [Bool.and_eq_true, decide_eq_true_eq, Bool.not_eq_true'] at hc
      obtain ⟨⟨hs, hh⟩, ho⟩ := hc
      refine Plant.Turns.one hx (x.setPocket_plant p _) (.purging p _ _ hs hh ?_)
      simpa [State.operationOn] using ho
    · exact hx

/-! ### The operations of the Stapler -/

theorem Work.finishPack_plant (w : Work) (k : Handle) (f : PackFlags) : (w.finishPack k f).plant
    = ((w.plant.setStapler { w.stapler with
        queue := w.stapler.queue.filter fun j => decide (j ≠ k), state := .idle, work := none
        command := none }).onPocket (w.pack k).pocket fun x => x.finished (w.pack k).volumes).setPack k
      { w.pack k with state := .ready, flags := f } := by
  unfold Work.finishPack
  cases hp : (w.pack k).pocket <;> simp [hp, Work.goReady, Plant.onPocket]

theorem Plant.Turns.finishPack (h : A.Turns w.plant) (k : Handle) (f : PackFlags)
    (hs : k ∈ w.stapler.queue ∨ (w.pack k).state = .stapling) : A.Turns (w.finishPack k f).plant :=
  Plant.Turns.one h (w.finishPack_plant k f) (.finished k f hs)

theorem Plant.Turns.shortVolume (h : A.Turns w.plant) {k : WorkRec} (hk : w.plant.InHand k) :
    A.Turns (w.shortVolume k).plant := by
  unfold Work.shortVolume
  dsimp only
  split
  · exact Plant.Turns.one h rfl (.waiting k hk)
  · exact (h.of_plant (w.latch_plant _)).finishPack _ _ (.inl (List.mem_of_mem_head? hk.head))

@[simp] theorem Work.setRemaining_plant (w : Work) (n : Nat) :
    (w.setRemaining n).plant = w.plant.setStapler { w.stapler with remaining := n } := by
  simp [Work.setRemaining]

@[simp] theorem Work.stapler_setRemaining (w : Work) (n : Nat) :
    (w.setRemaining n).stapler = { w.stapler with remaining := n } := congrArg Plant.stapler (w.setRemaining_plant n)

/-- A volume started, written out: the count, the pack, the pocket and the Stapler. -/
theorem Work.startVolume_plant (w : Work) (k : WorkRec) (hn : patternCount (w.pack k.handle).snap.pattern ≤ w.stapler.remaining) :
    (w.startVolume k).plant = ((w.plant.setPack k.handle { w.pack k.handle with
        state := if k.volume = 1 ∧ (w.pack k.handle).state = .complete then .stapling
          else (w.pack k.handle).state }).onPocket (w.pack k.handle).pocket fun x => x.presenting k.volume).setStapler
      { state := .stapling, queue := w.stapler.queue
        remaining := w.stapler.remaining - patternCount (w.pack k.handle).snap.pattern
        work := some { k with op := .inFlight, start := w.now, allowance := w.tables.settings.mechTimeout }
        command := (w.pack k.handle).pocket.map fun p => (p, patternCount (w.pack k.handle).snap.pattern) } := by
  have hpack (x : Work) (hx : x.pack k.handle = w.pack k.handle) :
      (if k.volume = 1 ∧ (w.pack k.handle).state = .complete then
        x.setPack k.handle { w.pack k.handle with state := .stapling } else x).plant
      = x.plant.setPack k.handle { w.pack k.handle with
          state := if k.volume = 1 ∧ (w.pack k.handle).state = .complete then .stapling
            else (w.pack k.handle).state } := by
    split
    · exact x.setPack_plant _ _
    · rw [← hx]
      exact (x.plant.setPack_self k.handle).symm
  have hpocket (x : Work) (o : Option PocketId) : (match o with
      | none => x
      | some p => x.presentVolume p k.volume).plant = x.plant.onPocket o fun y => y.presenting k.volume := by
    cases o with
    | none => rfl
    | some p => exact x.presentVolume_plant p k.volume
  unfold Work.startVolume
  dsimp only
  rw [if_neg (Nat.not_lt.2 hn)]
  refine (congrArg (fun P : Plant => P.setStapler { P.stapler with
    state := .stapling
    work := some { k with op := .inFlight, start := w.now, allowance := w.tables.settings.mechTimeout }
    command := (w.pack k.handle).pocket.map fun p => (p, patternCount (w.pack k.handle).snap.pattern) })
    ((hpocket _ _).trans (congrArg (fun P : Plant => P.onPocket (w.pack k.handle).pocket fun y => y.presenting k.volume)
      ((hpack _ (w.pack_setRemaining _ _)).trans (congrArg (fun P : Plant => P.setPack k.handle _)
        (w.setRemaining_plant _)))))).trans ?_
  rw [Plant.setPack_setStapler, Plant.onPocket_setStapler]
  rfl

theorem Plant.Turns.startVolume (h : A.Turns w.plant) {k : WorkRec} (hk : w.plant.InHand k) :
    A.Turns (w.startVolume k).plant := by
  by_cases hn : w.stapler.remaining < patternCount (w.pack k.handle).snap.pattern
  · rw [show w.startVolume k = w.shortVolume k from if_pos hn]
    exact h.shortVolume hk
  · exact Plant.Turns.one h (w.startVolume_plant k (Nat.not_lt.1 hn)) (.stapling k _ _ _ _ hk (Nat.sub_le _ _))

theorem Plant.InHand.workFor {s : State} {k : Handle} (hi : s.stapler.state = .idle) (hq : s.stapler.queue.head? = some k) :
    s.plant.InHand (s.workFor k) := by
  have hfresh : s.plant.InHand (s.freshWork k) := ⟨hi, hq, rfl, .inr ⟨rfl, rfl, rfl⟩⟩
  unfold State.workFor
  split
  · exact hfresh
  next j hj =>
    split
    next hk => exact ⟨hi, hq.trans (congrArg some hk.1.symm), hk.2.trans (by rw [State.plant_pack, hk.1]), .inl hj⟩
    · exact hfresh

theorem Plant.Turns.takeUp (h : A.Turns w.plant) (n : Nat) : A.Turns (Work.takeUp n w).plant := by
  induction n generalizing w with
  | zero => exact h
  | succ n ih =>
    unfold Work.takeUp
    split
    · exact h
    next k rest hq =>
      split
      next hc =>
        have hi := of_decide_eq_true (Bool.and_eq_true_iff.1 hc).1
        exact ih (h.startVolume (.workFor hi (by rw [hq]; rfl)))
      · exact h

theorem Plant.Turns.staple (h : A.Turns w.plant) : A.Turns w.staple.plant := h.takeUp _

theorem State.volumeInFlight_iff {s : State} {k : WorkRec} : s.volumeInFlight = some k ↔ s.plant.Busy k := by
  unfold State.volumeInFlight Plant.Busy
  simp only [State.plant_stapler]
  constructor
  · intro h
    split at h
    next j hs hw =>
      split at h
      next ho =>
        cases h
        exact ⟨hs, hw, ho⟩
      · cases h
    · cases h
  · rintro ⟨hs, hw, ho⟩
    rw [hs, hw]
    exact if_pos ho

theorem State.stillStapling_iff {s : State} {k : WorkRec} : s.stillStapling k = true ↔ s.plant.stillStapling k :=
  decide_eq_true_iff

theorem Plant.Turns.volumeDone (h : A.Turns w.plant) {k : WorkRec} (hk : w.volumeInFlight = some k) :
    A.Turns (w.volumeDone k).plant := by
  unfold Work.volumeDone
  split
  next hs =>
    have hstill := State.stillStapling_iff.1 hs
    dsimp only
    split
    next hv => exact Plant.Turns.one h rfl (.nextVolume k (State.volumeInFlight_iff.1 hk) hstill hv)
    · exact h.finishPack _ _ (.inr hstill.1)
  · exact Plant.Turns.one h rfl .dropped

theorem Plant.Turns.volumeTimedOut (h : A.Turns w.plant) {k : WorkRec} (hk : w.volumeInFlight = some k) :
    A.Turns (w.volumeTimedOut k).plant := by
  refine Plant.Turns.one h rfl (.timedOut k _ (State.volumeInFlight_iff.1 hk) ?_)
  split
  next hs => exact .inr ⟨State.stillStapling_iff.1 hs, rfl⟩
  · exact .inl rfl

theorem Plant.Turns.reissueVolume (h : A.Turns w.plant) : A.Turns w.reissueVolume.plant := by
  unfold Work.reissueVolume
  split
  · exact h
  next k hw =>
    split
    next hk =>
      split
      next hs =>
        have hstill := State.stillStapling_iff.1 hs.2
        exact h.startVolume ⟨hk.2, hs.1, hstill.2.symm, .inl hw⟩
      · exact Plant.Turns.one h rfl .dropped
    · exact h

theorem Plant.Turns.fitCartridge (h : A.Turns w.plant) : A.Turns w.fitCartridge.plant := by
  refine Plant.Turns.one h ?_ .refilled
  unfold Work.fitCartridge
  dsimp only
  split
  next hw => simp [Work.setStapler, hw, Plant.setStapler]
  next hw => simp [hw]

/-! ### The operations of the Return Unit -/

theorem Plant.Turns.beginDelivery (h : A.Turns w.plant) {k : Handle} {p : PocketId} (b : BinId)
    (hs : (w.pack k).state = .ready) (hp : (w.pack k).pocket = some p) (hi : w.ret.state = .idle) :
    A.Turns (w.beginDelivery k p b).plant := by
  have hd : DeliveryRec.names {
      handle := k, gen := (w.pack k).gen, pocket := p, bin := b, units := (w.pack k).units, op := .inFlight
      start := w.now, allowance := w.tables.settings.mechTimeout } = (k, (w.pack k).gen, p) := rfl
  refine Plant.Turns.one h ?_ (.delivering k p _ hs hp hi hd)
  simp [Work.beginDelivery]
  rfl

theorem Plant.Turns.startDelivery (h : A.Turns w.plant) : A.Turns w.startDelivery.plant := by
  unfold Work.startDelivery
  split
  next hc =>
    have hi := of_decide_eq_true (Bool.and_eq_true_iff.1 hc).1
    split
    · exact h
    next k hk =>
      split
      next p b hp hb => exact h.beginDelivery b (State.eligible_ready (List.find?_some hk)) hp hi
      · exact h
  · exact h

@[simp] theorem Work.dropDelivery_plant (w : Work) : w.dropDelivery.plant = w.plant.setReturn .idle none := rfl

theorem Plant.Turns.completeDelivery (h : A.Turns w.plant) {d : DeliveryRec} (hd : w.ret.delivery = some d) :
    A.Turns (w.completeDelivery d).plant := by
  have hdrop (b : BinRec) : (((w.setBin d.bin b).dropDelivery).setPocket d.pocket w.pockets[d.pocket].emptied).plant
      = w.plant.dropDelivery d := by
    rw [Work.setPocket_plant, Work.dropDelivery_plant, Work.setBin_plant]
    rfl
  unfold Work.completeDelivery
  dsimp only
  rw [Work.judge_plant]
  have hpockets (b : BinRec) : (w.setBin d.bin b).dropDelivery.pockets = w.pockets := w.setBin_pockets _ _
  split
  next hs =>
    refine Plant.Turns.one h ?_ (.delivered d hd hs.1)
    simp only [Work.notify_plant, Work.deliveredPack, Work.freePack_plant, Work.leaveClassQueue_plant, hpockets, hdrop]
  next hs =>
    refine Plant.Turns.one h ?_ (.undelivered d hd hs)
    simp only [hpockets, hdrop]

theorem Plant.Turns.deliveryTimedOut (h : A.Turns w.plant) {d : DeliveryRec} (hd : w.deliveryInFlight = some d) :
    A.Turns w.deliveryTimedOut.plant :=
  Plant.Turns.one h rfl (.undeliverable (by rw [State.plant_delivery, State.delivery_of_inFlight hd]; nofun))

theorem Plant.Turns.reissueDelivery (h : A.Turns w.plant) : A.Turns w.reissueDelivery.plant := by
  unfold Work.reissueDelivery
  split
  · exact h
  next d hd =>
    split
    · refine Plant.Turns.one h rfl (.redelivered _ ?_)
      rw [State.plant_delivery, hd]
      rfl
    · exact h

theorem Plant.Turns.loseDelivery (h : A.Turns w.plant) {d : DeliveryRec} (hd : w.ret.delivery = some d) :
    A.Turns (w.loseDelivery d).plant := by
  have hlost : (((w.setPocket d.pocket w.pockets[d.pocket].emptied).setPack d.handle
      { w.pack d.handle with pocket := none }).dropDelivery).plant
      = (w.plant.dropDelivery d).setPack d.handle { w.pack d.handle with pocket := none } := by
    rw [Work.dropDelivery_plant, Work.setPack_plant, Work.setPocket_plant]
    rfl
  unfold Work.loseDelivery
  dsimp only
  rw [Work.pack_setPocket]
  generalize (((w.setPocket d.pocket w.pockets[d.pocket].emptied).setPack d.handle
    { w.pack d.handle with pocket := none }).dropDelivery) = x at *
  have hpack : x.pack d.handle = { w.pack d.handle with pocket := none } :=
    (congrArg (fun P : Plant => P.pack d.handle) hlost).trans (Function.update_self ..)
  have hstapler : x.stapler = w.stapler := congrArg Plant.stapler hlost
  have hleave : (x.plant.leaveQueue d.handle).setPack d.handle PackRec.cleared
      = ((w.plant.dropDelivery d).leaveQueue d.handle).setPack d.handle PackRec.cleared := by
    have hcls : ((w.plant.dropDelivery d).pack d.handle).cls = (w.pack d.handle).cls := rfl
    rw [hlost]
    unfold Plant.leaveQueue Plant.setPack Plant.setQueue
    simp [hcls]
  unfold Work.requestRestart
  split
  next ht =>
    obtain ⟨hf, hx, -, -⟩ := State.takesRestart_iff.1 ht
    rw [hpack] at hf hx
    split
    · refine Plant.Turns.one h ?_ (.lostRestarted d hd ⟨hf, hx⟩)
      rw [Work.judge_plant, Work.restartPack_plant, hpack, hstapler, hlost, Plant.setPack_setPack]
      rfl
    · refine Plant.Turns.one h ?_ (.lostFreed d hd ⟨hf, hx⟩)
      rw [Work.judge_plant, Work.abandonPack_plant_free _ _ (by rw [hpack]), Plant.setPack_setStapler, hleave, hstapler]
      rfl
  next ht =>
    refine Plant.Turns.one h hlost (.lostIgnored d hd fun hl => ht (State.takesRestart_iff.2 ?_))
    rw [hpack]
    exact ⟨hl.1, hl.2.1, hl.2.2, fun _ => rfl⟩

end

end Sys2Proof.Machine
end

section
/-! SUPPORT. The turns of the arbiter, of Run Control, of a write and of the settling; `exec_turns` says of every command
that it makes turns of the plant. -/

namespace Sys2Proof.Machine

section
variable {A : Plant} {w : Work}

/-! ### The arbiter -/

theorem Plant.Turns.admitSheet (h : A.Turns w.plant) {k : Handle} {p : PocketId} (ho : (w.pack k).state = .opened)
    (hp : (w.pack k).pocket = some p) : A.Turns (w.admitSheet k p).plant := by
  unfold Work.admitSheet
  dsimp only
  split
  · exact h
  next hr =>
    have hr := Nat.not_le.1 hr
    split
    next hl =>
      split
      next hs =>
        refine Plant.Turns.one h ?_ (.admitted k p .complete (w.stapler.queue ++ [k]) ho hp hr
          (by rw [State.plant_pack, if_pos hl, if_pos hs]) rfl)
        simp
      next hs =>
        refine Plant.Turns.one h ?_ (.admitted k p .ready w.stapler.queue ho hp hr
          (by rw [State.plant_pack, if_pos hl, if_neg hs]) rfl)
        simp
        rfl
    next hl =>
      refine Plant.Turns.one h ?_ (.admitted k p .opened w.stapler.queue ho hp hr
        (by rw [State.plant_pack, if_neg hl]) rfl)
      simp only [Work.setPack_plant, Work.setPocket_plant, ← ho]
      rfl

theorem Plant.Turns.takeHead (h : A.Turns w.plant) (e : InFlight) : A.Turns (w.takeHead e).plant := by
  have hgate (g : Gate) : A.Turns (w.dropHead.setGate g).plant := h
  unfold Work.takeHead
  dsimp only
  split
  · exact hgate _
  · exact hgate _
  · exact hgate _
  · split
    next hp =>
      split
      next ho => exact (hgate _).admitSheet ho.1 hp
      · exact hgate _
    · exact hgate _

theorem Plant.Turns.matchArrival (h : A.Turns w.plant) (t : Option TagNum) : A.Turns (w.matchArrival t).plant := by
  have hmiss (e : InFlight) :
      A.Turns (((((w.restartTimer.setGate .reject).dropHead).latch .mismatch).requestFor e .mismatch).plant) :=
    Plant.Turns.requestFor (w := (((w.restartTimer.setGate .reject).dropHead).latch .mismatch)) h _ _
  unfold Work.matchArrival
  dsimp only
  split
  · exact h
  next e rest he =>
    split
    · exact Plant.Turns.takeHead (w := w.restartTimer) h e
    · split
      next e2 _ =>
        split
        · refine Plant.Turns.takeHead (Plant.Turns.requestFor (h.of_plant ?_) _ _) _
          rw [Work.latch_plant, Work.faultFeed_plant, Work.dropHead_plant, Work.restartTimer_plant]
        · exact hmiss e
      · exact hmiss e

theorem Plant.Turns.breakDelivery (h : A.Turns w.plant) (k : Handle) : A.Turns (w.breakDelivery k).plant :=
  Plant.Turns.of_plant (w := w.setPack k _) (h.setFlags k _) rfl

theorem Plant.Turns.breakBlock (h : A.Turns w.plant) : A.Turns w.breakBlock.plant := by
  unfold Work.breakBlock
  split
  · exact h.requestRestart _ _ _
  · split
    · exact h
    · split
      · exact h.breakDelivery _
      · split
        · exact h.requestRestart _ _ _
        · exact h

theorem Work.releaseHead_plant (w : Work) (f : FeedId) (e : StagingEntry) (d : Disposition) :
    (w.releaseHead f e d).plant = w.plant := w.setFeed_plant _ _

theorem Plant.Turns.openPack (h : A.Turns w.plant) {k : Handle} {p : PocketId} (ha : (w.pack k).state = .announced)
    (hp : 1 ≤ (w.pack k).pages) (he : w.pockets[p].state = .empty) : A.Turns (w.openPack k p).plant := by
  have hplant (f : PackFlags) : ((w.openPocket p k).setPack k
      { w.pack k with state := .opened, pocket := some p, released := 1, flags := f }).plant
      = (w.plant.setPocket p { w.pockets[p] with
          state := .collating, pack := some k, sheets := 0, thickness := 0, volume := 1, offset := false }).setPack k
        { w.pack k with state := .opened, pocket := some p, released := 1, flags := f } := by
    rw [Work.setPack_plant, Work.openPocket, Work.setPocket_plant]
  have hopened (f : PackFlags) := Plant.Turns.one h (hplant f) (.opened k p f ha hp he)
  unfold Work.openPack
  dsimp only
  split
  · rw [Work.latch_plant, Work.notify_plant, Work.setArb_plant]
    exact hopened _
  · exact hopened _

theorem Plant.Turns.pageReleased (h : A.Turns w.plant) {k : Handle} (ho : (w.pack k).state = .opened)
    (hp : (w.pack k).released + 1 ≤ (w.pack k).pages) : A.Turns (w.pageReleased k).plant :=
  Plant.Turns.one h (w.setPack_plant _ _) (.released k ho hp)

theorem Plant.Turns.release (h : A.Turns w.plant) (f : FeedId) : A.Turns (w.release f).plant := by
  have hbare (t : EntryTag) (d : Disposition) : A.Turns ((w.pulse f).restartTimer.releaseBare f t d).plant :=
    h.of_plant (Work.setFeed_plant _ _ _)
  have hhead (e : StagingEntry) (d : Disposition) : A.Turns ((w.pulse f).restartTimer.releaseHead f e d).plant :=
    h.of_plant (Work.releaseHead_plant _ _ _ _)
  unfold Work.release
  dsimp only
  split
  · exact h
  · exact hbare _ _
  · rw [Work.latch_plant]
    exact hbare _ _
  · exact h
  · exact hhead _ _
  case h_6 hv _ hq =>
    have hj := State.verdict_collate hv hq
    have ho := State.judgeEntry_open hj
    refine (hhead _ _).openPack ?_ ?_ ?_
    · rw [Work.pack_releaseHead]; exact ho.1
    · rw [Work.pack_releaseHead]; exact ho.2.2
    · rw [Work.pockets_releaseHead]; exact State.offer_empty (State.judgeEntry_offer hj)
  case h_7 hv _ hq =>
    have ho := State.judgeEntry_next (State.verdict_collate hv hq)
    refine (hhead _ _).pageReleased ?_ ?_
    · rw [Work.pack_releaseHead]; exact ho.1
    · rw [Work.pack_releaseHead]; exact ho.2.2

theorem Work.dropPick_plant (w : Work) : w.dropPick.plant = w.plant := by
  unfold Work.dropPick
  split
  · rfl
  · split <;> rfl

theorem Plant.Turns.decideUpTo (h : A.Turns w.plant) (n : Nat) : A.Turns (Work.decideUpTo n w).plant := by
  induction n generalizing w with
  | zero => exact h
  | succ n ih =>
    have hpick : A.Turns w.boundALast.dropPick.plant := h.of_plant (Work.dropPick_plant w.boundALast)
    unfold Work.decideUpTo
    dsimp only
    split
    · exact hpick
    · exact ih (hpick.release _)

theorem Plant.Turns.decideReleases (h : A.Turns w.plant) : A.Turns w.decideReleases.plant := by
  unfold Work.decideReleases
  split
  · exact h.decideUpTo 5
  · exact h

/-! ### Run Control -/

/-- Every pocket changes in the same way, one after the other. -/
theorem Plant.foldl_setPocket (f : PocketRec → PocketRec) (l : List PocketId) (hl : l.Nodup) (P : Plant) :
    l.foldl (fun (Q : Plant) p => Q.setPocket p (f (Q.pocket p))) P
      = { P with pocket := fun q => if q ∈ l then f (P.pocket q) else P.pocket q } := by
  induction l generalizing P with
  | nil => simp
  | cons p l ih =>
    obtain ⟨hp, hl⟩ := List.nodup_cons.1 hl
    rw [List.foldl_cons, ih hl]
    unfold Plant.setPocket
    congr 1
    funext q
    by_cases hq : q = p
    · subst hq
      simp [hp]
    · simp [hq]

theorem Work.each_setPocket (f : PocketRec → PocketRec) (g : Work → PocketId → Work)
    (hg : ∀ x p, (g x p).plant = x.plant.setPocket p (f (x.plant.pocket p))) (w : Work) :
    (w.each g allPockets).plant = { w.plant with pocket := fun q => f w.pockets[q] } := by
  have hfold (l : List PocketId) (x : Work) : (x.each g l).plant
      = l.foldl (fun (Q : Plant) p => Q.setPocket p (f (Q.pocket p))) x.plant := by
    induction l generalizing x with
    | nil => rfl
    | cons p l ih => exact (ih (g x p)).trans (by rw [hg]; rfl)
  rw [hfold, Plant.foldl_setPocket f allPockets (by decide)]
  simp [mem_allPockets]

theorem Work.cutOffVolume_plant (w : Work) : w.cutOffVolume.plant = w.plant.setStapler w.stapler.cutOff := by
  unfold Work.cutOffVolume State.volumeInFlight Stapler.cutOff
  cases hs : w.stapler.state <;> cases hk : w.stapler.work
  case stapling.some k =>
    dsimp only
    by_cases ho : k.op = .inFlight
    · rw [if_pos ho, if_pos ho]
      rfl
    · rw [if_neg ho, if_neg ho]
      rfl
  all_goals rfl

theorem Work.cutOffDelivery_plant (w : Work) : ∃ o : Option DeliveryRec,
    o.map DeliveryRec.names = w.ret.delivery.map DeliveryRec.names
      ∧ w.cutOffDelivery.plant = w.plant.setReturn w.ret.state o := by
  unfold Work.cutOffDelivery
  split
  · exact ⟨_, rfl, rfl⟩
  next d hd => exact ⟨some { d with op := .cutOff }, by rw [State.delivery_of_inFlight hd]; rfl, rfl⟩

/-- Entry to HALT cuts off the volume operation, the delivery and the running purges (R90, R108, R126). -/
theorem Work.halt_plant (w : Work) (c : HaltCause) (t : ResumeTarget) : ∃ o : Option DeliveryRec,
    o.map DeliveryRec.names = w.ret.delivery.map DeliveryRec.names
      ∧ (w.halt c t).plant = { w.plant with
          stapler := w.stapler.cutOff, delivery := o, halted := true, pocket := fun q => w.pockets[q].purgeCutOff } := by
  obtain ⟨o, ho, hx⟩ := (w.setRunState (.halt c t)).cutOffVolume.cutOffDelivery_plant
  have hrun : (w.setRunState (.halt c t)).plant = w.plant.setHalted true := w.setRunState_plant _
  have hv := (w.setRunState (.halt c t)).cutOffVolume_plant
  have hd : (w.setRunState (.halt c t)).cutOffVolume.ret.delivery = w.ret.delivery :=
    (congrArg Plant.delivery hv).trans (congrArg Plant.delivery hrun)
  have hst : (w.setRunState (.halt c t)).cutOffVolume.ret.state = w.ret.state :=
    (congrArg Plant.returns hv).trans (congrArg Plant.returns hrun)
  have hs : (w.setRunState (.halt c t)).stapler = w.stapler := congrArg Plant.stapler hrun
  refine ⟨o, ho.trans (by rw [hd]), ?_⟩
  unfold Work.halt
  rw [Work.each_setPocket PocketRec.purgeCutOff _ fun x p => x.cutOffPurge_plant p]
  have hp : (w.setRunState (.halt c t)).cutOffVolume.cutOffDelivery.plant
      = { w.plant with stapler := w.stapler.cutOff, delivery := o, halted := true } := by
    rw [hx, hv, hrun, hst, hs]
    rfl
  exact congrArg (fun P : Plant => { P with pocket := fun q => (P.pocket q).purgeCutOff }) hp

theorem Plant.Turns.halt (h : A.Turns w.plant) (c : HaltCause) (t : ResumeTarget) : A.Turns (w.halt c t).plant := by
  obtain ⟨o, ho, hx⟩ := w.halt_plant c t
  exact Plant.Turns.one h hx (.halted o ho)

/-- The run state changes while the block is not halted, to another in which it is not. -/
theorem Plant.Turns.setRunState (h : A.Turns w.plant) {st : RunState} (hw : w.halted = false) (hst : st.halts = false) :
    A.Turns (w.setRunState st).plant := by
  refine h.of_plant ?_
  rw [Work.setRunState_plant, hst, ← hw]
  rfl

theorem Plant.Turns.requestHalt (h : A.Turns w.plant) (c : HaltCause) : A.Turns (w.requestHalt c).plant := by
  unfold Work.requestHalt
  split
  next hr => exact h.setRunState (by simp [State.halted, hr]) rfl
  · split
    · exact h
    · exact h.halt _ _

theorem Plant.Turns.takeStop (h : A.Turns w.plant) : A.Turns w.takeStop.plant :=
  Plant.Turns.requestHalt (w := w.latch .stop) h _

theorem Work.flushFeed_plant (w : Work) (f : FeedId) : (w.flushFeed f).plant = w.plant := w.setFeed_plant _ _

theorem Work.enterTarget_plant (w : Work) (t : ResumeTarget) : (w.enterTarget t).plant = w.plant.setHalted false := by
  have hbypass : w.enterBypass.plant = w.plant.setHalted false :=
    (Work.each_plant _ _ _ fun x f => x.flushFeed_plant f).trans (w.setRunState_plant _)
  unfold Work.enterTarget
  cases t
  case bypass => exact hbypass
  all_goals exact w.setRunState_plant _

theorem Plant.Turns.enterTarget (h : A.Turns w.plant) {t : ResumeTarget} (hw : w.halted = false) :
    A.Turns (w.enterTarget t).plant := h.of_plant ((w.enterTarget_plant t).trans (by rw [← hw]; rfl))

theorem Plant.Turns.endStartUp (h : A.Turns w.plant) : A.Turns w.endStartUp.plant := by
  unfold Work.endStartUp
  split
  next hr =>
    split
    · exact h
    · unfold Work.leaveStarting
      dsimp only
      rw [Work.setReport_plant]
      split
      · exact h.halt _ _
      · exact h.enterTarget (by simp [State.halted, hr])
  · exact h

theorem Plant.Turns.endStopping (h : A.Turns w.plant) : A.Turns w.endStopping.plant := by
  unfold Work.endStopping
  split
  next hr =>
    split
    · exact h.setRunState (by simp [State.halted, hr]) rfl
    · exact h
  · exact h

theorem Work.finishPack_work (w : Work) (k : Handle) (f : PackFlags) : (w.finishPack k f).stapler.work = none := by
  refine (congrArg (fun P : Plant => P.stapler.work) (w.finishPack_plant k f)).trans ?_
  rw [Plant.onPocket_setStapler]
  rfl

/-- A volume started, or found short, is not cut off. -/
theorem Work.startVolume_notCutOff (w : Work) (k : WorkRec) : ∀ j ∈ (w.startVolume k).stapler.work, j.op ≠ .cutOff := by
  intro j hj
  by_cases hn : w.stapler.remaining < patternCount (w.pack k.handle).snap.pattern
  · rw [show w.startVolume k = w.shortVolume k from if_pos hn] at hj
    unfold Work.shortVolume at hj
    dsimp only at hj
    split at hj
    · cases hj
      nofun
    · rw [Work.finishPack_work] at hj
      cases hj
  · have hs := congrArg Plant.stapler (w.startVolume_plant k (Nat.not_lt.1 hn))
    rw [State.plant_stapler] at hs
    rw [hs] at hj
    cases hj
    nofun

/-- What RESUME has reissued or dropped is cut off no longer. -/
theorem Work.reissueVolume_notCutOff (w : Work) :
    ∀ j ∈ w.reissueVolume.stapler.work, j.op = .cutOff → w.reissueVolume.stapler.state ≠ .idle := by
  intro j hj hc hi
  unfold Work.reissueVolume at hj hi
  split at hj
  next hn =>
    rw [hn] at hj
    cases hj
  next k hk =>
    split at hj
    next hcut =>
      split at hj
      · exact w.startVolume_notCutOff k j hj hc
      · cases hj
    next hcut =>
      rw [hk] at hj
      cases hj
      simp only [hk] at hi
      rw [if_neg hcut] at hi
      exact hcut ⟨hc, hi⟩

theorem Plant.Turns.resume (h : A.Turns w.plant) (t : ResumeTarget) : A.Turns (w.resume t).plant := by
  have hflush : A.Turns w.flushInFlight.plant :=
    Plant.Turns.each (w := w.setArb { w.arb with inFlight := [] }) h
      (fun (x : Work) (e : InFlight) => x.requestFor e .resumeFlush) w.arb.inFlight fun x e hx => hx.requestFor e _
  have hreissued := hflush.reissueVolume.reissueDelivery
  unfold Work.resume
  refine Plant.Turns.one hreissued (Work.enterTarget_plant _ _) (.unhalted ?_)
  generalize w.flushInFlight = x
  have hd : x.reissueVolume.reissueDelivery.stapler = x.reissueVolume.stapler := by
    unfold Work.reissueDelivery
    split
    · rfl
    · split <;> rfl
  rw [State.plant_stapler, hd]
  exact x.reissueVolume_notCutOff

/-! ### The settling -/

theorem Plant.Turns.settle (h : A.Turns w.plant) (s : State) : A.Turns (w.settle s).plant := by
  have hwait (x : Work) : x.timeWaits.plant = x.plant := x.each_plant _ _ fun y f => by
    unfold Work.timeWait
    dsimp only
    split
    · split
      · rfl
      · exact y.setFeed_plant _ _
    · split
      · rfl
      · exact y.setFeed_plant _ _
  have hfull (x : Work) : (x.judgeBinFull s).plant = x.plant := by
    unfold Work.judgeBinFull
    split <;> rfl
  have hlamps (x : Work) : x.driveLamps.plant = x.plant := by
    obtain ⟨bs, hbs⟩ := x.driveLamps_shape
    rw [hbs]
    rfl
  have hjudged := h.startPurges.endStartUp.of_plant (Work.judge_plant _)
  have hrest := hjudged.staple.startDelivery.endStopping
  unfold Work.settle
  dsimp only
  refine hrest.decideReleases.of_plant ?_
  rw [hlamps, hfull, Work.timeBlock, Work.setArb_plant, hwait]

/-! ### Writes and resets -/

theorem Plant.Turns.writeEntry {s : State} (h : A.Turns s.plant) (x : Staged) : A.Turns (s.writeEntry x).plant := by
  unfold State.writeEntry
  split
  case h_7 v _ _ => exact h.tail (.cartridge v.cartridgeSize)
  case h_9 p b _ _ =>
    refine h.tail ?_
    have hplant : ({ s with pockets := s.pockets.set p (s.pockets[p].serviceWritten b) } : State).plant
        = s.plant.setPocket p ((s.plant.pocket p).serviceWritten b) := by
      ext q : 2
      case pocket =>
        simp only [State.plant, Plant.setPocket, Fin.getElem_fin, Vector.getElem_set, Function.update_apply,
          Fin.ext_iff, eq_comm]
      all_goals rfl
    rw [hplant]
    exact .serviceWritten p b
  all_goals exact h

theorem Plant.Turns.writeAll (ws : List Staged) {s : State} (h : A.Turns s.plant) : A.Turns (s.writeAll ws).plant := by
  induction ws generalizing s with
  | nil => exact h
  | cons x ws ih => exact ih (h.writeEntry x)

theorem Work.settleFeed_plant (w : Work) (f : FeedId) : (w.settleFeed f).plant = w.plant := by
  unfold Work.settleFeed
  dsimp only
  split
  · rfl
  · exact w.setFeed_plant _ _

theorem Work.meetSettings_plant (w : Work) : w.meetSettings.plant = w.plant := by
  unfold Work.meetSettings
  dsimp only
  rw [Work.judgeStaples_plant]
  rfl

theorem Work.touches_plant (w : Work) (ws : List Staged) :
    (w.each (fun (x : Work) (y : Staged) => x.touch y.ref) ws).plant = w.plant :=
  Work.each_plant _ _ _ fun x y => by
    obtain ⟨m, hm⟩ := x.touch_shape y.ref
    rw [hm]
    rfl

theorem Work.meetWrite_plant (w : Work) (before : State) (ws : List Staged) : (w.meetWrite before ws).plant = w.plant := by
  unfold Work.meetWrite
  dsimp only
  split
  · rw [Work.meetSettings_plant, Work.each_plant _ _ _ fun x f => x.settleFeed_plant f, Work.occasionIf_plant,
      Work.touches_plant]
  · rw [Work.each_plant _ _ _ fun x f => x.settleFeed_plant f, Work.occasionIf_plant, Work.touches_plant]

theorem Plant.Turns.resetCommon (h : A.Turns w.plant) {u : Work} {kind : ResetKind} (hu : w.ResetsFrom kind u) :
    A.Turns (u.resetCommon kind).plant := by
  obtain ⟨fs, ps, bs, hr, -, hps, -⟩ := u.resetCommon_shape kind
  have hplant : (u.resetCommon kind).plant = {
      pack := fun _ => PackRec.cleared, queue := fun _ => []
      pocket := fun p => (w.plant.pocket p).reset (decide (kind = .work))
      stapler := { state := .idle, queue := [], remaining := u.stapler.remaining, work := none, command := none }
      returns := .idle, delivery := none, halted := false, cartridge := u.tables.settings.cartridgeSize } := by
    have hpockets : u.pockets = w.pockets := by
      cases kind
      case work =>
        obtain ⟨l, rfl⟩ := hu
        rfl
      all_goals
        obtain ⟨now, l, straps, gate, rfl⟩ := hu
        rfl
    ext p : 2
    case pocket =>
      have hp : ps[p] = w.pockets[p].reset (decide (kind = .work)) := by rw [hps, hpockets]
      rw [hr]
      exact hp
    all_goals
      rw [hr]
      rfl
  refine Plant.Turns.one h hplant (.reset _ _ _ ?_)
  cases kind
  case work =>
    obtain ⟨l, rfl⟩ := hu
    exact .inr ⟨rfl, rfl⟩
  all_goals
    obtain ⟨now, l, straps, gate, rfl⟩ := hu
    exact .inl le_rfl

theorem Plant.Turns.acceptPack (h : A.Turns w.plant) {k : Handle} {r : PackRec} (hfree : (w.pack k).state = .free)
    (hr : r.state = .announced ∧ r.pocket = none ∧ r.released = 0 ∧ r.received = 0) (hp : r.planned) :
    A.Turns (w.acceptPack k r).plant := by
  refine Plant.Turns.one h ?_ (.announced k r hfree hr hp)
  have hq : (w.setPack k r).classQueue r.cls = w.classQueue r.cls :=
    congrArg (fun P : Plant => P.queue r.cls) (w.setPack_plant k r)
  unfold Work.acceptPack
  dsimp only
  rw [hq]
  exact (Work.setClassQueue_plant _ _ _).trans (by rw [Work.setPack_plant]; rfl)

/-! ### Every command -/

/-- The split's end pages rise, from the page before the one it goes on with to the last. -/
theorem splitFrom_rises (limit body rest : Nat) : ∀ page running : Nat, 1 ≤ page →
    (splitFrom limit body rest page running).Pairwise (· < ·)
      ∧ (∀ x ∈ splitFrom limit body rest page running, page - 1 ≤ x)
      ∧ (splitFrom limit body rest page running).getLast? = some (page - 1 + rest) := by
  induction rest with
  | zero =>
    intro page running hp
    exact ⟨List.pairwise_singleton _ _, fun x hx => (List.mem_singleton.1 hx).ge, rfl⟩
  | succ rest ih =>
    intro page running hp
    unfold splitFrom
    split
    · obtain ⟨hrise, hfrom, hlast⟩ := ih (page + 1) (running + body) (Nat.le_add_left 1 page)
      exact ⟨hrise, fun x hx => (Nat.sub_le_sub_right (Nat.le_succ page) 1).trans (hfrom x hx),
        hlast.trans (congrArg some (by omega))⟩
    · obtain ⟨hrise, hfrom, hlast⟩ := ih (page + 1) body (Nat.le_add_left 1 page)
      refine ⟨List.pairwise_cons.2 ⟨fun x hx => ?_, hrise⟩, fun x hx => ?_, ?_⟩
      · have := hfrom x hx
        omega
      · rcases List.mem_cons.1 hx with rfl | hx
        · exact le_rfl
        · have := hfrom x hx
          omega
      · rw [List.getLast?_cons, hlast, Option.getD_some]
        exact congrArg some (by omega)

/-- The plan that a stack budget makes is one of the pages. -/
theorem stackBudget_planned {pages cover body s p : Nat} {pattern : StaplePattern} {policy : OversizePolicy} {b : Budget}
    (hp : 1 ≤ pages) (hb : stackBudget pages cover body s p pattern policy = .fits b) :
    (0 :: b.plan.ends).Pairwise (· < ·) ∧ b.plan.ends.getLast? = some pages := by
  have hwhole : (0 :: [pages]).Pairwise (· < ·) ∧ [pages].getLast? = some pages := by
    simpa using Nat.lt_of_lt_of_le Nat.zero_lt_one hp
  have hsplit : (0 :: greedySplit s pages cover body).Pairwise (· < ·)
      ∧ (greedySplit s pages cover body).getLast? = some pages := by
    obtain ⟨hrise, hfrom, hlast⟩ := splitFrom_rises s body (pages - 1) 2 cover (by decide)
    exact ⟨List.pairwise_cons.2 ⟨fun x hx => hfrom x hx, hrise⟩, hlast.trans (congrArg some (by omega))⟩
  unfold stackBudget at hb
  dsimp only at hb
  split at hb
  · cases hb
  · split at hb
    · cases hb
      exact hwhole
    · split at hb
      · cases hb
        exact hwhole
      · split at hb
        · cases hb
        · cases hb
          exact hwhole
        · split at hb
          · cases hb
            exact hsplit
          · cases hb
            exact hwhole

/-- The record an announcement fills has a plan of its pages. -/
theorem State.announced_planned {s : State} {j : JobId} {st : StudentId} {c : ClassId} {pages : Nat} {b : Budget}
    (hp : 1 ≤ pages ∧ pages ≤ 60) (hb : s.budgetFor s.tables.jobs[j] pages = .fits b) :
    (s.announcedRecord j st c pages b).planned := stackBudget_planned hp.1 hb

theorem Plant.Turns.op {u : Work} (h : A.Turns w.plant) (hu : w.Op u) : A.Turns u.plant := by
  cases hu with
  | occasion b => exact h
  | feed f r => exact h.of_plant (w.setFeed_plant f r)
  | announce k j st c pages b hfree hp hb => exact h.acceptPack hfree ⟨rfl, rfl, rfl, rfl⟩ (State.announced_planned hp hb)
  | withdraw k hk => exact h.withdrawPack k hk
  | runState st ho hn => exact h.setRunState ((State.halted_eq _).trans ho.1) hn.1
  | bypass hs => exact h.enterTarget (t := .bypass) (by simp [State.halted, hs])
  | resume c t hr => exact h.resume t
  | stop => exact h.takeStop
  | arrival t hh => exact h.matchArrival t
  | deadline e he =>
    refine Plant.Turns.requestFor (Plant.Turns.of_plant (Plant.Turns.requestHalt (w := w.dropHead) h .jam) ?_) _ _
    rw [Work.faultFeed_plant, Work.latch_plant]
  | breakBlock => exact Plant.Turns.breakBlock (w := w.restartTimer) h
  | purgeDone p hr => exact h.endPurge p _ hr (.inl rfl)
  | purgeTimeout p hr => exact (h.endPurge p _ hr (.inr rfl)).of_plant (Work.latch_plant _ _)
  | volumeDone k hk => exact h.volumeDone hk
  | volumeTimedOut k hk => exact h.volumeTimedOut hk
  | cartridge => exact h.fitCartridge
  | clearStapler hs => exact Plant.Turns.one h rfl (.unfaulted hs)
  | deliver d hd => exact h.completeDelivery hd
  | lose d hd => exact h.loseDelivery hd
  | deliveryTimedOut d hd => exact h.deliveryTimedOut hd
  | clearBin b => exact h.of_plant (w.setBin_plant _ _)
  | write ws => exact Plant.Turns.of_plant (w := w.wrote ws) (Plant.Turns.writeAll ws h) (Work.meetWrite_plant _ _ _)
  | reset kind x hx hl => exact h.resetCommon hx

theorem Work.Still.plant {v : Work} (h : w.Still v) : v.plant = w.plant := by
  obtain ⟨bs, hr, -⟩ := h.ret
  exact State.plant_of_eq h.packs h.queues h.pockets h.stapler (by rw [hr]) (by rw [hr]) h.run h.settings

theorem Plant.Turns.does {v : Work} (h : A.Turns w.plant) (hv : w.Does v) : A.Turns v.plant := by
  cases hv with
  | still hs => exact h.of_plant hs.plant
  | settled x u b hx hu hb hv => exact (((h.of_plant hx.plant).op hu).settle _).of_plant hv.plant

end

/-- Every command makes turns of the plant. -/
theorem exec_turns {c : Instr} {s t : State} (h : exec c s = .next t) : s.plant.Turns t.plant :=
  Plant.Turns.does (w := Work.of s) .refl (exec_does h)

/-- What turns keep, every step keeps. -/
theorem step_turns {P : Plant → Prop} (hP : ∀ p q : Plant, p.Turn q → P p → P q) {s t : State} (h : step s = .next t)
    (hs : P s.plant) : P t.plant := by
  refine step_keeps (P := fun s => P s.plant) (fun _ _ h => h) (fun _ h => h) (fun _ h => h) (fun c s t h hs => ?_) h hs
  have hturns := exec_turns h
  generalize t.plant = q at hturns ⊢
  induction hturns with
  | refl => exact hs
  | tail _ hq ih => exact hP _ _ hq ih

end Sys2Proof.Machine
end

section
/-! SUPPORT. The class queues and the staple queue over the turns of the plant: the settling of
`Obligations.ClassQueuesKept`. -/

namespace Sys2Proof.Machine

/-- The pack belongs in the delivery queue of its class (R21). -/
def PackRec.queued (r : PackRec) : Prop := r.state ≠ .free ∧ r.state ≠ .disposing

namespace Plant

/-- The members of the staple queue are COMPLETE or STAPLING, each once (R96). -/
def StapleQueueSound (P : Plant) : Prop :=
  P.stapler.queue.Nodup ∧ ∀ k ∈ P.stapler.queue, (P.pack k).state = .complete ∨ (P.pack k).state = .stapling

/-- Every record not FREE and not DISPOSING is in the delivery queue of its class once, and no other is in any (R21). -/
def QueuesAgree (P : Plant) : Prop :=
  ∀ c : ClassId, (P.queue c).Nodup ∧ ∀ k : Handle, k ∈ P.queue c ↔ (P.pack k).queued ∧ (P.pack k).cls = c

section
variable {P : Plant}

/-! ### The records of the plant after a change -/

@[simp] theorem setPack_pack_self (k : Handle) (r : PackRec) : (P.setPack k r).pack k = r := Function.update_self ..

theorem setPack_pack_ne {k j : Handle} (r : PackRec) (h : j ≠ k) : (P.setPack k r).pack j = P.pack j :=
  Function.update_of_ne h ..

theorem setPack_pack_congr {Q : Plant} (k : Handle) (r : PackRec) (h : Q.pack = P.pack) :
    (Q.setPack k r).pack = (P.setPack k r).pack := congrArg (fun f : Handle → PackRec => Function.update f k r) h

@[simp] theorem onPocket_pack (o : Option PocketId) (f : PocketRec → PocketRec) : (P.onPocket o f).pack = P.pack := by
  cases o <;> rfl

@[simp] theorem onPocket_queue (o : Option PocketId) (f : PocketRec → PocketRec) : (P.onPocket o f).queue = P.queue := by
  cases o <;> rfl

/-! ### The class queues -/

/-- A record changes and stays in the queue of its class, or stays out of it. -/
theorem QueuesAgree.setPack (h : P.QueuesAgree) {k : Handle} {r : PackRec} (hq : r.queued ↔ (P.pack k).queued)
    (hc : (P.pack k).queued → r.cls = (P.pack k).cls) : (P.setPack k r).QueuesAgree := by
  intro c
  obtain ⟨hn, hm⟩ := h c
  refine ⟨hn, fun j => (hm j).trans ?_⟩
  by_cases hj : j = k
  · subst hj
    rw [setPack_pack_self, hq]
    exact and_congr_right fun hl => by rw [hc hl]
  · rw [setPack_pack_ne r hj]

/-- A record leaves the queue of its class and is FREE or DISPOSING. -/
theorem QueuesAgree.leave (h : P.QueuesAgree) {k : Handle} {r : PackRec} (hr : ¬r.queued) :
    ((P.leaveQueue k).setPack k r).QueuesAgree := by
  intro c
  have hqueue : ((P.leaveQueue k).setPack k r).queue c
      = if c = (P.pack k).cls then (P.queue c).filter fun j => decide (j ≠ k) else P.queue c := by
    show Function.update _ _ _ c = _
    rw [Function.update_apply]
    split
    next hc => rw [hc]
    · rfl
  obtain ⟨hn, hm⟩ := h c
  rw [hqueue]
  refine ⟨?_, fun j => ?_⟩
  · split
    · exact hn.filter _
    · exact hn
  · by_cases hj : j = k
    · subst hj
      rw [setPack_pack_self]
      refine iff_of_false ?_ fun hx => hr hx.1
      split
      · simp
      next hc => exact fun hx => hc ((hm j).1 hx).2.symm
    · rw [setPack_pack_ne r hj, show (P.leaveQueue k).pack j = P.pack j from rfl, ← hm j]
      split
      · simp [hj]
      · rfl

/-- A record that was FREE joins the queue of its class. -/
theorem QueuesAgree.join (h : P.QueuesAgree) {k : Handle} {r : PackRec} (hk : ¬(P.pack k).queued) (hr : r.queued) :
    ((P.setPack k r).setQueue r.cls (P.queue r.cls ++ [k])).QueuesAgree := by
  intro c
  obtain ⟨hn, hm⟩ := h c
  have hout : k ∉ P.queue c := fun hx => hk ((hm k).1 hx).1
  have hqueue : ((P.setPack k r).setQueue r.cls (P.queue r.cls ++ [k])).queue c
      = if c = r.cls then P.queue c ++ [k] else P.queue c := by
    show Function.update _ _ _ c = _
    rw [Function.update_apply]
    split
    next hc => rw [hc]
    · rfl
  rw [hqueue, show ((P.setPack k r).setQueue r.cls (P.queue r.cls ++ [k])).pack = (P.setPack k r).pack from rfl]
  refine ⟨?_, fun j => ?_⟩
  · split
    · exact List.nodup_append.2 ⟨hn, List.nodup_singleton k, fun a ha b hb => by
        rw [List.mem_singleton.1 hb]
        exact fun e => hout (e ▸ ha)⟩
    · exact hn
  · by_cases hj : j = k
    · subst hj
      rw [setPack_pack_self]
      split
      next hc => simp [hr, hc]
      next hc => exact iff_of_false hout fun hx => hc hx.2.symm
    · rw [setPack_pack_ne r hj, ← hm j]
      split
      · simp [hj]
      · rfl

/-! ### The staple queue -/

/-- The staple queue loses members at most, and those left keep to their states. -/
theorem StapleQueueSound.of (h : P.StapleQueueSound) {Q : Plant} (hq : Q.stapler.queue.Sublist P.stapler.queue)
    (hs : ∀ k ∈ Q.stapler.queue, (P.pack k).state = .complete ∨ (P.pack k).state = .stapling →
      (Q.pack k).state = .complete ∨ (Q.pack k).state = .stapling) : Q.StapleQueueSound :=
  ⟨h.1.sublist hq, fun k hk => hs k hk (h.2 k (hq.subset hk))⟩

/-- A record changes that is not in the staple queue, or stays COMPLETE or goes STAPLING. -/
theorem StapleQueueSound.setPack (h : P.StapleQueueSound) {Q : Plant} {k : Handle} {r : PackRec}
    (hq : Q.stapler.queue = P.stapler.queue) (hp : Q.pack = (P.setPack k r).pack)
    (hr : (P.pack k).state = .complete ∨ (P.pack k).state = .stapling → r.state = .complete ∨ r.state = .stapling) :
    Q.StapleQueueSound := by
  refine h.of (by rw [hq]) fun j _ hs => ?_
  rw [hp]
  by_cases hj : j = k
  · subst hj
    rw [setPack_pack_self]
    exact hr hs
  · rw [setPack_pack_ne r hj]
    exact hs

/-- A record changes whose pack leaves the staple queue. -/
theorem StapleQueueSound.without (h : P.StapleQueueSound) {Q : Plant} {k : Handle} {r : PackRec}
    (hq : Q.stapler.queue = P.stapler.queue.filter fun j => decide (j ≠ k)) (hp : Q.pack = (P.setPack k r).pack) :
    Q.StapleQueueSound := by
  refine h.of (by rw [hq]; exact List.filter_sublist) fun j hj hs => ?_
  rw [hq] at hj
  have hjk : j ≠ k := by simpa using (List.mem_filter.1 hj).2
  rw [hp, setPack_pack_ne r hjk]
  exact hs

end

/-! ### Every turn -/

theorem Turn.stapleQueueSound {P Q : Plant} (h : P.Turn Q) (hs : P.StapleQueueSound) : Q.StapleQueueSound := by
  cases h with
  | announced k r hfree hr hp => exact hs.setPack (k := k) (r := r) rfl rfl fun hx => by simp [hfree] at hx
  | flagged k f => exact hs.setPack (k := k) rfl rfl id
  | released k ho hp => exact hs.setPack (k := k) rfl rfl id
  | opened k p f ha hp he => exact hs.setPack (k := k) rfl rfl fun hx => by simp [ha] at hx
  | admitted k p st q ho hp hr hst hq =>
    have hout : k ∉ P.stapler.queue := fun hx => by simpa [ho] using hs.2 k hx
    have hkept : ∀ j ∈ P.stapler.queue, (P.setPack k
        { P.pack k with received := (P.pack k).received + 1, state := st }).pack j = P.pack j :=
      fun j hj => setPack_pack_ne _ fun e => hout (e ▸ hj)
    subst hq
    split
    next hc =>
      refine ⟨List.nodup_append.2 ⟨hs.1, List.nodup_singleton k, fun a ha b hb e => ?_⟩, fun j hj => ?_⟩
      · rw [List.mem_singleton.1 hb] at e
        exact hout (e ▸ ha)
      · rcases List.mem_append.1 hj with hj | hj
        · exact (congrArg (fun r : PackRec => r.state = .complete ∨ r.state = .stapling) (hkept j hj)).mpr (hs.2 j hj)
        · rw [List.mem_singleton.1 hj]
          exact .inl ((congrArg PackRec.state (setPack_pack_self k _)).trans hc)
    · exact ⟨hs.1, fun j hj =>
        (congrArg (fun r : PackRec => r.state = .complete ∨ r.state = .stapling) (hkept j hj)).mpr (hs.2 j hj)⟩
  | stapling k n c start allowance hk hn =>
    refine hs.setPack (k := k.handle) rfl (onPocket_pack _ _) fun hx => ?_
    dsimp only
    split
    · exact .inr rfl
    · exact hx
  | waiting k hk => exact hs
  | finished k f hf =>
    exact hs.without (k := k) (r := { P.pack k with state := .ready, flags := f })
      (by rw [onPocket_setStapler]; rfl) (setPack_pack_congr k _ (onPocket_pack _ _))
  | nextVolume k hk hst hv => exact hs
  | dropped => exact hs
  | timedOut k o hk ho => exact hs
  | unfaulted hf => exact hs
  | refilled => exact hs
  | delivering k p d hr hp hi hd => exact hs.setPack (k := k) rfl rfl fun hx => by simp [hr] at hx
  | delivered d hd hst => exact hs.setPack (k := d.handle) rfl rfl fun hx => by simp [hst] at hx
  | undelivered d hd hst => exact hs
  | lostRestarted d hd hl => exact hs.without (k := d.handle) rfl rfl
  | lostFreed d hd hl => exact hs.without (k := d.handle) rfl rfl
  | lostIgnored d hd hl => exact hs.setPack (k := d.handle) rfl rfl id
  | restarted k hl hd => exact hs.without (k := k) (by rw [onPocket_stapler]; rfl) (onPocket_pack _ _)
  | disposed k hl hp => exact hs.without (k := k) (by rw [onPocket_stapler]; rfl) (onPocket_pack _ _)
  | freed k hl hp => exact hs.without (k := k) rfl rfl
  | purged p x hr hx hn => exact hs
  | purgedPack p x k r hr hx hk hn =>
    refine hs.setPack (k := k) (r := r) rfl rfl fun hx => ?_
    unfold PackRec.purged at hn
    rcases hx with hx | hx <;> simp [hx] at hn
  | purging p start allowance hst hh ho => exact hs
  | halted o ho =>
    refine hs.of (Q := { P with
      stapler := P.stapler.cutOff, delivery := o, pocket := fun p => (P.pocket p).purgeCutOff, halted := true })
      ?_ fun j hj => id
    show P.stapler.cutOff.queue.Sublist _
    unfold Stapler.cutOff
    split
    · split <;> exact List.Sublist.refl _
    · exact List.Sublist.refl _
  | unhalted hk => exact hs
  | redelivered o ho => exact hs
  | undeliverable hd => exact hs
  | serviceWritten p b => exact hs
  | cartridge n => exact hs
  | reset workOnly n m hn => exact ⟨List.nodup_nil, fun _ h => absurd h List.not_mem_nil⟩

/-- What the class queues agree with is the packs and the queues alone. -/
theorem QueuesAgree.of {P Q : Plant} (h : P.QueuesAgree) (hq : Q.queue = P.queue) (hp : Q.pack = P.pack) :
    Q.QueuesAgree := by
  intro c
  rw [hq, hp]
  exact h c

theorem Turn.queuesAgree {P Q : Plant} (h : P.Turn Q) (hs : P.StapleQueueSound) (hq : P.QueuesAgree) : Q.QueuesAgree := by
  have hsame {k : Handle} {r : PackRec} (hst : r.state = (P.pack k).state) (hc : r.cls = (P.pack k).cls) :
      (P.setPack k r).QueuesAgree := hq.setPack (by rw [PackRec.queued, PackRec.queued, hst]) fun _ => hc
  have hlive {k : Handle} {r : PackRec} (hk : (P.pack k).queued) (hr : r.queued) (hc : r.cls = (P.pack k).cls) :
      (P.setPack k r).QueuesAgree := hq.setPack (iff_of_true hr hk) fun _ => hc
  have hcleared : ¬PackRec.cleared.queued := fun h => h.1 rfl
  cases h with
  | announced k r hfree hr hp =>
    exact hq.join (fun hx => hx.1 hfree) ⟨by rw [hr.1]; nofun, by rw [hr.1]; nofun⟩
  | flagged k f => exact hsame rfl rfl
  | released k ho hp => exact hsame rfl rfl
  | opened k p f ha hp he =>
    refine (hlive (k := k) (r := { P.pack k with state := .opened, pocket := some p, released := 1, flags := f }) ?_ ?_
      rfl).of rfl rfl
    · exact ⟨by rw [ha]; nofun, by rw [ha]; nofun⟩
    · exact ⟨nofun, nofun⟩
  | admitted k p st q ho hp hr hst hx =>
    refine (hlive (k := k) (r := { P.pack k with received := (P.pack k).received + 1, state := st }) ?_ ?_ rfl).of rfl rfl
    · exact ⟨by rw [ho]; nofun, by rw [ho]; nofun⟩
    · subst hst
      dsimp only [PackRec.queued]
      split
      · split <;> exact ⟨nofun, nofun⟩
      · exact ⟨nofun, nofun⟩
  | stapling k n c start allowance hk hn =>
    refine QueuesAgree.of (hq.setPack (k := k.handle) (r := { P.pack k.handle with
      state := if k.volume = 1 ∧ (P.pack k.handle).state = .complete then .stapling
        else (P.pack k.handle).state }) ?_ fun _ => rfl) (onPocket_queue _ _) (onPocket_pack _ _)
    dsimp only [PackRec.queued]
    split
    next hc => simp [hc.2]
    · rfl
  | waiting k hk => exact hq
  | finished k f hf =>
    refine QueuesAgree.of (hlive (k := k) (r := { P.pack k with state := .ready, flags := f }) ?_ ⟨nofun, nofun⟩ rfl)
      (onPocket_queue _ _) (setPack_pack_congr k _ (onPocket_pack _ _))
    rcases hf with hf | hf
    · rcases hs.2 k hf with hx | hx <;> exact ⟨by rw [hx]; nofun, by rw [hx]; nofun⟩
    · exact ⟨by rw [hf]; nofun, by rw [hf]; nofun⟩
  | nextVolume k hk hst hv => exact hq
  | dropped => exact hq
  | timedOut k o hk ho => exact hq
  | unfaulted hf => exact hq
  | refilled => exact hq
  | delivering k p d hr hp hi hd =>
    refine (hlive (k := k) (r := { P.pack k with state := .delivering }) ?_ ⟨nofun, nofun⟩ rfl).of rfl rfl
    exact ⟨by rw [hr]; nofun, by rw [hr]; nofun⟩
  | delivered d hd hst => exact (hq.leave (k := d.handle) hcleared).of rfl rfl
  | undelivered d hd hst => exact hq
  | lostRestarted d hd hl =>
    refine (hlive (k := d.handle) (r := { P.pack d.handle with pocket := none }.restarted) hl ?_ rfl).of rfl rfl
    exact ⟨nofun, nofun⟩
  | lostFreed d hd hl => exact (hq.leave (k := d.handle) hcleared).of rfl rfl
  | lostIgnored d hd hl =>
    exact (hsame (k := d.handle) (r := { P.pack d.handle with pocket := none }) rfl rfl).of rfl rfl
  | restarted k hl hd =>
    refine QueuesAgree.of (hlive (k := k) (r := (P.pack k).restarted) hl ?_ rfl) (onPocket_queue _ _) (onPocket_pack _ _)
    dsimp only [PackRec.queued, PackRec.restarted]
    split <;> exact ⟨nofun, nofun⟩
  | disposed k hl hp =>
    exact QueuesAgree.of (hq.leave (k := k) (r := { P.pack k with state := .disposing }) fun h => h.2 rfl)
      (onPocket_queue _ _) (onPocket_pack _ _)
  | freed k hl hp => exact (hq.leave (k := k) hcleared).of rfl rfl
  | purged p x hr hx hn => exact hq
  | purgedPack p x k r hr hx hk hn =>
    have hcase : (P.pack k).state = .restarting ∧ r = { P.pack k with state := .announced, pocket := none }
        ∨ (P.pack k).state = .disposing ∧ r = PackRec.cleared := by
      unfold PackRec.purged at hn
      split at hn
      next hst => exact .inl ⟨hst, (Option.some.inj hn).symm⟩
      next hst => exact .inr ⟨hst, (Option.some.inj hn).symm⟩
      · cases hn
    rcases hcase with ⟨hst, rfl⟩ | ⟨hst, rfl⟩
    · refine (hlive (k := k) (r := { P.pack k with state := .announced, pocket := none }) ?_ ⟨nofun, nofun⟩ rfl).of rfl rfl
      exact ⟨by rw [hst]; nofun, by rw [hst]; nofun⟩
    · have hout : ¬(P.pack k).queued := fun h => h.2 hst
      exact (hq.setPack (k := k) (iff_of_false hcleared hout) fun h => absurd h hout).of rfl rfl
  | purging p start allowance hst hh ho => exact hq
  | halted o ho => exact hq
  | unhalted hk => exact hq
  | redelivered o ho => exact hq
  | undeliverable hd => exact hq
  | serviceWritten p b => exact hq
  | cartridge n => exact hq
  | reset workOnly n m hn => exact fun c => ⟨List.nodup_nil, fun k => iff_of_false List.not_mem_nil fun h => hcleared h.1⟩

end Plant

theorem State.stapleQueueSound_iff (s : State) : s.stapleQueueSound ↔ s.plant.StapleQueueSound := Iff.rfl

theorem State.classQueuesAgree_iff (s : State) : s.classQueuesAgree ↔ s.plant.QueuesAgree := by
  simp only [State.classQueuesAgree, Plant.QueuesAgree, State.plant_queue, State.plant_pack, PackRec.queued, and_assoc]

end Sys2Proof.Machine

namespace Sys2Proof.Proofs

open Sys2Proof.Machine

/-- Settles O16: a turn that frees or disposes a pack takes it from its class queue, one that announces it puts it there,
and a pack that leaves COMPLETE and STAPLING leaves the staple queue. -/
theorem classQueuesKept : Obligations.ClassQueuesKept := by
  unfold Obligations.ClassQueuesKept
  intro s t hs h
  rw [State.stapleQueueSound_iff, State.classQueuesAgree_iff] at hs ⊢
  exact step_turns (P := fun p => p.StapleQueueSound ∧ p.QueuesAgree)
    (fun p q hpq hp => ⟨hpq.stapleQueueSound hp.1, hpq.queuesAgree hp.1 hp.2⟩) h hs

end Sys2Proof.Proofs
end

section
/-! SUPPORT. Packs and pockets that name one another, and the delivery record, over the turns of the plant: the settling of
`Obligations.PocketsAgreeKept`. -/

namespace Sys2Proof.Machine

/-- A pocket in a state in which it holds a pack in that state (R8, R72). -/
def Housed (r : PackRec) (x : PocketRec) : Prop := x.state ∈ r.state.housedBy

/-! ### What becomes of the pack that a pocket's record names, and of its state -/

@[simp] theorem PocketRec.pack_admitted (x : PocketRec) (r : PackRec) : (x.admitted r).pack = x.pack := by
  unfold PocketRec.admitted
  dsimp only
  split
  · rfl
  · split <;> rfl

theorem PocketRec.admitted_housed {x : PocketRec} (r : PackRec) (h : x.state ∈ PackState.opened.housedBy) :
    (x.admitted r).state ∈ PackState.opened.housedBy := by
  unfold PocketRec.admitted
  dsimp only
  split
  · exact List.mem_cons_of_mem _ (List.mem_cons_self ..)
  · split <;> exact h

@[simp] theorem PocketRec.pack_purgeAsked (x : PocketRec) : x.purgeAsked.pack = x.pack := by
  unfold PocketRec.purgeAsked
  split <;> rfl

theorem PocketRec.state_purgeAsked_of_housed {x : PocketRec} {st : PackState} (hs : st ≠ .delivering)
    (h : x.state ∈ st.housedBy) : x.purgeAsked.state = .purging := by
  unfold PocketRec.purgeAsked
  cases st <;> simp_all [PackState.housedBy]
  all_goals rcases h with h | h | h <;> rw [h]

@[simp] theorem PocketRec.pack_purgeCutOff (x : PocketRec) : x.purgeCutOff.pack = x.pack := by
  unfold PocketRec.purgeCutOff
  split <;> rfl

@[simp] theorem PocketRec.state_purgeCutOff (x : PocketRec) : x.purgeCutOff.state = x.state := by
  unfold PocketRec.purgeCutOff
  split <;> rfl

theorem PocketRec.serviceWritten_of_housed {x : PocketRec} {st : PackState} (h : x.state ∈ st.housedBy) (b : Bool) :
    x.serviceWritten b = x := by
  unfold PocketRec.serviceWritten
  split
  next he => rw [he] at h; cases st <;> simp [PackState.housedBy] at h
  next he => rw [he] at h; cases st <;> simp [PackState.housedBy] at h
  · rfl

theorem PocketRec.pack_serviceWritten_none {x : PocketRec} (h : x.pack = none) (b : Bool) :
    (x.serviceWritten b).pack = none := by
  unfold PocketRec.serviceWritten
  split
  · exact h
  · rfl
  · exact h

/-- The pack that waits for the purge of its pocket is RESTARTING or DISPOSING (R15). -/
theorem PackRec.purged_ne_none {r : PackRec} (h : PocketState.purging ∈ r.state.housedBy) : r.purged ≠ none := by
  unfold PackRec.purged
  cases hs : r.state <;> simp_all [PackState.housedBy]

namespace Plant

theorem setPocket_pocket_self {P : Plant} (p : PocketId) (x : PocketRec) : (P.setPocket p x).pocket p = x :=
  Function.update_self ..

theorem setPocket_pocket_ne {P : Plant} {p q : PocketId} (x : PocketRec) (h : q ≠ p) :
    (P.setPocket p x).pocket q = P.pocket q := Function.update_of_ne h ..

/-- A pocket names a pack exactly where the pack names the pocket, a pack names one in the states that hold one, and where
they name each other `L` holds between them. -/
structure Linked (L : PackRec → PocketRec → Prop) (P : Plant) : Prop where
  names : ∀ p k, (P.pocket p).pack = some k ↔ (P.pack k).pocket = some p
  homeless : ∀ k, (P.pack k).pocket = none → (P.pack k).state.housedBy = []
  holds : ∀ k p, (P.pack k).pocket = some p → L (P.pack k) (P.pocket p)

/-- The delivery under way names the DELIVERING pack, its generation and its pocket; there is one exactly while the Return
Unit is not IDLE (R112). -/
structure ReturnAgrees (P : Plant) : Prop where
  delivery : ∀ d ∈ P.delivery, (P.pack d.handle).state = .delivering ∧ (P.pack d.handle).gen = d.gen
    ∧ (P.pack d.handle).pocket = some d.pocket
  only : ∀ k, (P.pack k).state = .delivering → P.delivery.map DeliveryRec.handle = some k
  idle : P.returns = .idle ↔ P.delivery = none

section
variable {L : PackRec → PocketRec → Prop} {P Q : Plant}

/-! ### Packs and pockets after a change -/

/-- A pack and a pocket that name each other or nothing become a pair in which `L` holds, or are parted. -/
theorem Linked.pair (h : P.Linked L) {k : Handle} {p : PocketId} (hpack : ∀ j, j ≠ k → Q.pack j = P.pack j)
    (hpocket : ∀ q, q ≠ p → Q.pocket q = P.pocket q) (hk : (P.pack k).pocket = some p ∨ (P.pack k).pocket = none)
    (hp : (P.pocket p).pack = some k ∨ (P.pocket p).pack = none)
    (hnew : ((Q.pack k).pocket = some p ∧ (Q.pocket p).pack = some k ∧ L (Q.pack k) (Q.pocket p))
      ∨ ((Q.pack k).pocket = none ∧ (Q.pocket p).pack = none ∧ (Q.pack k).state.housedBy = [])) : Q.Linked L := by
  have hq : ∀ q, q ≠ p → (P.pocket q).pack ≠ some k := fun q hq hx => by
    rcases hk with hk | hk <;> rw [(h.names q k).1 hx] at hk
    · exact hq (Option.some.inj hk)
    · cases hk
  have hj : ∀ j, j ≠ k → (P.pack j).pocket ≠ some p := fun j hj hx => by
    rcases hp with hp | hp <;> rw [(h.names p j).2 hx] at hp
    · exact hj (Option.some.inj hp)
    · cases hp
  constructor
  · intro q j
    by_cases hqp : q = p <;> by_cases hjk : j = k
    · rw [hqp, hjk]
      rcases hnew with ⟨h1, h2, -⟩ | ⟨h1, h2, -⟩ <;> simp [h1, h2]
    · rw [hqp, hpack j hjk]
      refine iff_of_false (fun hx => ?_) (hj j hjk)
      rcases hnew with ⟨-, h2, -⟩ | ⟨-, h2, -⟩ <;> rw [h2] at hx
      · exact hjk (Option.some.inj hx).symm
      · cases hx
    · rw [hjk, hpocket q hqp]
      refine iff_of_false (hq q hqp) fun hx => ?_
      rcases hnew with ⟨h1, -, -⟩ | ⟨h1, -, -⟩ <;> rw [h1] at hx
      · exact hqp (Option.some.inj hx).symm
      · cases hx
    · rw [hpack j hjk, hpocket q hqp]
      exact h.names q j
  · intro j hn
    by_cases hjk : j = k
    · subst hjk
      rcases hnew with ⟨h1, -, -⟩ | ⟨-, -, h3⟩
      · rw [h1] at hn
        cases hn
      · exact h3
    · rw [hpack j hjk] at hn ⊢
      exact h.homeless j hn
  · intro j q hx
    by_cases hjk : j = k
    · subst hjk
      rcases hnew with ⟨h1, -, h3⟩ | ⟨h1, -, -⟩ <;> rw [h1] at hx
      · rw [← Option.some.inj hx]
        exact h3
      · cases hx
    · rw [hpack j hjk] at hx ⊢
      rw [hpocket q fun e => hj j hjk (e ▸ hx)]
      exact h.holds j q hx

/-- The pair's records after the change, written out. -/
theorem Linked.pairSet (h : P.Linked L) {k : Handle} {p : PocketId} {r : PackRec} {x : PocketRec}
    (hpack : Q.pack = (P.setPack k r).pack) (hpocket : Q.pocket = (P.setPocket p x).pocket)
    (hk : (P.pack k).pocket = some p ∨ (P.pack k).pocket = none)
    (hp : (P.pocket p).pack = some k ∨ (P.pocket p).pack = none)
    (hnew : (r.pocket = some p ∧ x.pack = some k ∧ L r x) ∨ (r.pocket = none ∧ x.pack = none ∧ r.state.housedBy = [])) :
    Q.Linked L := by
  refine h.pair (k := k) (p := p) (fun j hj => by rw [hpack, setPack_pack_ne r hj])
    (fun q hq => by rw [hpocket]; exact setPocket_pocket_ne x hq) hk hp ?_
  rw [hpack, hpocket, setPack_pack_self, setPocket_pocket_self]
  exact hnew

/-- A pack's record changes and goes on to name what it named. -/
theorem Linked.onPack (h : P.Linked L) {k : Handle} {r : PackRec} (hpack : Q.pack = (P.setPack k r).pack)
    (hpocket : Q.pocket = P.pocket) (hr : r.pocket = (P.pack k).pocket)
    (hn : (P.pack k).pocket = none → r.state.housedBy = [])
    (hL : ∀ p, (P.pack k).pocket = some p → L (P.pack k) (P.pocket p) → L r (P.pocket p)) : Q.Linked L := by
  have hself : Q.pack k = r := by rw [hpack, setPack_pack_self]
  have hother : ∀ j, j ≠ k → Q.pack j = P.pack j := fun j hj => by rw [hpack, setPack_pack_ne r hj]
  constructor
  · intro p j
    rw [hpocket]
    by_cases hjk : j = k
    · rw [hjk, hself, hr]
      exact h.names p k
    · rw [hother j hjk]
      exact h.names p j
  · intro j hx
    by_cases hjk : j = k
    · rw [hjk, hself] at hx ⊢
      exact hn (hr ▸ hx)
    · rw [hother j hjk] at hx ⊢
      exact h.homeless j hx
  · intro j p hx
    rw [hpocket]
    by_cases hjk : j = k
    · rw [hjk, hself] at hx ⊢
      exact hL p (hr ▸ hx) (h.holds k p (hr ▸ hx))
    · rw [hother j hjk] at hx ⊢
      exact h.holds j p hx

/-- The pockets' records change and go on to name what they named. -/
theorem Linked.onPockets (h : P.Linked L) (hpack : Q.pack = P.pack)
    (hpocket : ∀ p, (Q.pocket p).pack = (P.pocket p).pack)
    (hL : ∀ p k, (P.pocket p).pack = some k → L (P.pack k) (P.pocket p) → L (P.pack k) (Q.pocket p)) : Q.Linked L := by
  constructor
  · intro p k
    rw [hpocket, hpack]
    exact h.names p k
  · intro k
    rw [hpack]
    exact h.homeless k
  · intro k p hk
    rw [hpack] at hk ⊢
    exact hL p k ((h.names p k).2 hk) (h.holds k p hk)

/-- Neither packs nor pockets change. -/
theorem Linked.of (h : P.Linked L) (hpack : Q.pack = P.pack) (hpocket : Q.pocket = P.pocket) : Q.Linked L :=
  h.onPockets hpack (fun p => by rw [hpocket]) fun p k _ hl => by rw [hpocket]; exact hl

section
variable (hL : ∀ r x, L r x → Housed r x)
include hL

/-- A pack in a state that holds no pocket names none. -/
theorem Linked.pocket_none (h : P.Linked L) {k : Handle} (hs : (P.pack k).state.housedBy = []) :
    (P.pack k).pocket = none := by
  rw [Option.eq_none_iff_forall_ne_some]
  intro p hp
  have := hL _ _ (h.holds k p hp)
  rw [Housed, hs] at this
  exact absurd this List.not_mem_nil

/-- A pocket in a state in which it holds no pack names none. -/
theorem Linked.pack_none (h : P.Linked L) {p : PocketId} (hs : ∀ st : PackState, (P.pocket p).state ∉ st.housedBy) :
    (P.pocket p).pack = none := by
  rw [Option.eq_none_iff_forall_ne_some]
  intro k hk
  exact hs _ (hL _ _ (h.holds k p ((h.names p k).1 hk)))

end

theorem Linked.pocket_some (h : P.Linked L) {k : Handle} (hs : (P.pack k).state.housedBy ≠ []) :
    ∃ p, (P.pack k).pocket = some p ∧ (P.pocket p).pack = some k := by
  obtain ⟨p, hp⟩ := Option.ne_none_iff_exists'.1 fun hn => hs (h.homeless k hn)
  exact ⟨p, hp, (h.names p k).2 hp⟩

/-! ### The delivery record after a change -/

/-- No pack comes to be or ceases to be DELIVERING, and the delivery record names what it named. -/
theorem ReturnAgrees.keep (h : P.ReturnAgrees) (hd : Q.delivery.map DeliveryRec.names = P.delivery.map DeliveryRec.names)
    (hi : Q.returns = .idle ↔ P.returns = .idle)
    (hk : ∀ k, Q.pack k = P.pack k ∨ ((Q.pack k).state ≠ .delivering ∧ (P.pack k).state ≠ .delivering)
      ∨ ((Q.pack k).state = (P.pack k).state ∧ (Q.pack k).gen = (P.pack k).gen ∧ (Q.pack k).pocket = (P.pack k).pocket)) :
    Q.ReturnAgrees := by
  have hnone : Q.delivery = none ↔ P.delivery = none := by
    rw [← Option.map_eq_none_iff (f := DeliveryRec.names), hd, Option.map_eq_none_iff]
  have hhandle : Q.delivery.map DeliveryRec.handle = P.delivery.map DeliveryRec.handle := by
    have := congrArg (Option.map Prod.fst) hd
    rwa [Option.map_map, Option.map_map] at this
  constructor
  · intro d hx
    obtain ⟨d', hd', hn⟩ := Option.map_eq_some_iff.1 (hd.symm.trans (congrArg (Option.map DeliveryRec.names) hx))
    obtain ⟨e1, e2⟩ := Prod.mk.inj hn
    obtain ⟨e2, e3⟩ := Prod.mk.inj e2
    have hold := h.delivery d' hd'
    rw [e1, e2, e3] at hold
    rcases hk d.handle with hk | hk | ⟨h1, h2, h3⟩
    · rw [hk]; exact hold
    · exact absurd hold.1 hk.2
    · rw [h1, h2, h3]; exact hold
  · intro k hs
    rw [hhandle]
    rcases hk k with hk | hk | ⟨h1, -, -⟩
    · exact h.only k (hk ▸ hs)
    · exact absurd hs hk.1
    · exact h.only k (h1 ▸ hs)
  · rw [hi, hnone]
    exact h.idle

/-- Neither the packs nor the Return Unit change. -/
theorem ReturnAgrees.of (h : P.ReturnAgrees) (hpack : Q.pack = P.pack) (hd : Q.delivery = P.delivery)
    (hi : Q.returns = P.returns) : Q.ReturnAgrees :=
  h.keep (by rw [hd]) (by rw [hi]) fun k => .inl (by rw [hpack])

/-- One pack's record changes, neither from nor to DELIVERING. -/
theorem ReturnAgrees.onPack (h : P.ReturnAgrees) {k : Handle} {r : PackRec} (hpack : Q.pack = (P.setPack k r).pack)
    (hd : Q.delivery = P.delivery) (hi : Q.returns = P.returns) (hs : (P.pack k).state ≠ .delivering)
    (hr : r.state ≠ .delivering) : Q.ReturnAgrees := by
  refine h.keep (by rw [hd]) (by rw [hi]) fun j => ?_
  rw [hpack]
  by_cases hj : j = k
  · rw [hj, setPack_pack_self]
    exact .inr (.inl ⟨hr, hs⟩)
  · exact .inl (setPack_pack_ne r hj)

/-- One pack's record changes but for what the delivery record names. -/
theorem ReturnAgrees.onFields (h : P.ReturnAgrees) {k : Handle} {r : PackRec} (hpack : Q.pack = (P.setPack k r).pack)
    (hd : Q.delivery = P.delivery) (hi : Q.returns = P.returns) (hs : r.state = (P.pack k).state)
    (hg : r.gen = (P.pack k).gen) (hp : r.pocket = (P.pack k).pocket) : Q.ReturnAgrees := by
  refine h.keep (by rw [hd]) (by rw [hi]) fun j => ?_
  rw [hpack]
  by_cases hj : j = k
  · rw [hj, setPack_pack_self]
    exact .inr (.inr ⟨hs, hg, hp⟩)
  · exact .inl (setPack_pack_ne r hj)

/-- The delivery ends: its pack is DELIVERING no longer. -/
theorem ReturnAgrees.ends (h : P.ReturnAgrees) {d : DeliveryRec} {r : PackRec} (hx : P.delivery = some d)
    (hpack : Q.pack = (P.setPack d.handle r).pack) (hd : Q.delivery = none) (hi : Q.returns = .idle)
    (hr : r.state ≠ .delivering) : Q.ReturnAgrees := by
  constructor
  · rw [hd]
    nofun
  · intro k hs
    rw [hpack] at hs
    by_cases hk : k = d.handle
    · rw [hk, setPack_pack_self] at hs
      exact absurd hs hr
    · rw [setPack_pack_ne r hk] at hs
      have := h.only k hs
      rw [hx] at this
      exact absurd (Option.some.inj this).symm hk
  · rw [hd, hi]
    exact iff_of_true rfl rfl

/-- No pack is DELIVERING where the Return Unit is IDLE. -/
theorem ReturnAgrees.none_delivering (h : P.ReturnAgrees) (hi : P.returns = .idle) (k : Handle) :
    (P.pack k).state ≠ .delivering := by
  intro hs
  have := h.only k hs
  rw [h.idle.1 hi] at this
  cases this

end

/-! ### Every turn -/

theorem Turn.returnAgrees {P Q : Plant} (h : P.Turn Q) (hs : P.StapleQueueSound) (hl : P.Linked Housed)
    (hr : P.ReturnAgrees) : Q.ReturnAgrees := by
  have hends {d : DeliveryRec} (hd : P.delivery = some d) : (P.pack d.handle).state = .delivering := (hr.delivery d hd).1
  cases h with
  | announced k r hfree hx hp => exact hr.onPack (k := k) (r := r) rfl rfl rfl (by rw [hfree]; nofun) (by rw [hx.1]; nofun)
  | flagged k f => exact hr.onFields (k := k) rfl rfl rfl rfl rfl rfl
  | released k ho hp => exact hr.onFields (k := k) rfl rfl rfl rfl rfl rfl
  | opened k p f ha hp he => exact hr.onPack (k := k) rfl rfl rfl (by rw [ha]; nofun) nofun
  | admitted k p st q ho hp hx hst hq =>
    refine hr.onPack (k := k) rfl rfl rfl (by rw [ho]; nofun) ?_
    subst hst
    dsimp only
    split
    · split <;> nofun
    · nofun
  | stapling k n c start allowance hk hn =>
    have hmem := hs.2 k.handle (List.mem_of_mem_head? hk.head)
    refine hr.onPack (k := k.handle) (onPocket_pack _ _) (by cases (P.pack k.handle).pocket <;> rfl)
      (by cases (P.pack k.handle).pocket <;> rfl) ?_ ?_
    · rcases hmem with hx | hx <;> (rw [hx]; nofun)
    · dsimp only
      split
      · nofun
      · rcases hmem with hx | hx <;> (rw [hx]; nofun)
  | waiting k hk => exact hr.of rfl rfl rfl
  | finished k f hf =>
    refine hr.onPack (k := k) (r := { P.pack k with state := .ready, flags := f }) (setPack_pack_congr k _ (onPocket_pack _ _))
      (by cases (P.pack k).pocket <;> rfl) (by cases (P.pack k).pocket <;> rfl) ?_ nofun
    rcases hf with hf | hf
    · rcases hs.2 k hf with hx | hx <;> (rw [hx]; nofun)
    · rw [hf]; nofun
  | nextVolume k hk hst hv => exact hr.of rfl rfl rfl
  | dropped => exact hr.of rfl rfl rfl
  | timedOut k o hk ho => exact hr.of rfl rfl rfl
  | unfaulted hf => exact hr.of rfl rfl rfl
  | refilled => exact hr.of rfl rfl rfl
  | delivering k p d hk hp hi hd =>
    obtain ⟨e1, e2⟩ := Prod.mk.inj hd
    obtain ⟨e2, e3⟩ := Prod.mk.inj e2
    have hself : (((P.setPack k { P.pack k with state := .delivering }).setPocket p
        { P.pocket p with state := .ejecting }).setReturn .ejecting (some d)).pack k
        = { P.pack k with state := .delivering } := setPack_pack_self k _
    refine ⟨fun d' hd' => ?_, fun j hj => ?_, iff_of_false nofun nofun⟩
    · cases hd'
      rw [e1, hself]
      exact ⟨rfl, e2.symm, hp.trans (congrArg some e3.symm)⟩
    · by_cases hjk : j = k
      · exact congrArg some (e1.trans hjk.symm)
      · rw [show (((P.setPack k { P.pack k with state := .delivering }).setPocket p
          { P.pocket p with state := .ejecting }).setReturn .ejecting (some d)).pack j = P.pack j from
          setPack_pack_ne _ hjk] at hj
        exact absurd hj (hr.none_delivering hi j)
  | delivered d hd hst => exact hr.ends (r := PackRec.cleared) hd rfl rfl rfl nofun
  | undelivered d hd hst => exact absurd ⟨hends hd, (hr.delivery d hd).2.1⟩ hst
  | lostRestarted d hd hx => exact hr.ends hd rfl rfl rfl nofun
  | lostFreed d hd hx => exact hr.ends (r := PackRec.cleared) hd rfl rfl rfl nofun
  | lostIgnored d hd hx =>
    refine absurd ⟨?_, ?_, (hr.delivery d hd).2.1⟩ hx <;> (rw [hends hd]; nofun)
  | restarted k hx hd =>
    refine hr.onPack (k := k) (onPocket_pack _ _) (by cases (P.pack k).pocket <;> rfl)
      (by cases (P.pack k).pocket <;> rfl) (fun hk => ?_) ?_
    · have := hl.homeless k (hd hk)
      rw [hk] at this
      cases this
    · dsimp only [PackRec.restarted]
      split <;> nofun
  | disposed k hx hp =>
    exact hr.onPack (k := k) (onPocket_pack _ _) (by cases (P.pack k).pocket <;> rfl)
      (by cases (P.pack k).pocket <;> rfl) hx.2.2 nofun
  | freed k hx hp =>
    refine hr.onPack (k := k) (r := PackRec.cleared) rfl rfl rfl (fun hk => ?_) nofun
    rcases hp with hp | hp
    · rw [hk] at hp
      cases hp
    · have := hl.homeless k hp
      rw [hk] at this
      cases this
  | purged p x hx hy hn => exact hr.of rfl rfl rfl
  | purgedPack p x k r hx hy hk hn =>
    have hstate : (P.pack k).state ≠ .delivering ∧ r.state ≠ .delivering := by
      unfold PackRec.purged at hn
      split at hn
      next hst => rw [← Option.some.inj hn, hst]; exact ⟨nofun, nofun⟩
      next hst => rw [← Option.some.inj hn, hst]; exact ⟨nofun, nofun⟩
      · cases hn
    exact hr.onPack (k := k) (r := r) rfl rfl rfl hstate.1 hstate.2
  | purging p start allowance hst hh ho => exact hr.of rfl rfl rfl
  | halted o ho => exact hr.keep ho Iff.rfl fun k => .inl rfl
  | unhalted hk => exact hr.of rfl rfl rfl
  | redelivered o ho => exact hr.keep ho Iff.rfl fun k => .inl rfl
  | undeliverable hd => exact ⟨hr.delivery, hr.only, iff_of_false nofun hd⟩
  | serviceWritten p b => exact hr.of rfl rfl rfl
  | cartridge n => exact hr.of rfl rfl rfl
  | reset workOnly n m hn => exact ⟨nofun, nofun, iff_of_true rfl rfl⟩

theorem Turn.linked {P Q : Plant} (h : P.Turn Q) (hs : P.StapleQueueSound) (hl : P.Linked Housed)
    (hr : P.ReturnAgrees) : Q.Linked Housed := by
  have hnone {k : Handle} (h : (P.pack k).state.housedBy = []) : (P.pack k).pocket = none :=
    hl.pocket_none (fun _ _ => id) h
  have hstaple {k : Handle} (h : (P.pack k).state = .complete ∨ (P.pack k).state = .stapling) :
      ∃ p, (P.pack k).pocket = some p ∧ (P.pocket p).pack = some k :=
    hl.pocket_some (by rcases h with h | h <;> (rw [h]; nofun))
  have hnames {k : Handle} {p : PocketId} (h : (P.pack k).pocket = some p) : (P.pocket p).pack = some k :=
    (hl.names p k).2 h
  cases h with
  | announced k r hfree hx hp =>
    have hn := hnone (k := k) (by rw [hfree]; rfl)
    refine hl.onPack (k := k) (r := r) rfl rfl (hx.2.1.trans hn.symm) (fun _ => by rw [hx.1]; rfl) fun p hp => ?_
    rw [hn] at hp
    cases hp
  | flagged k f => exact hl.onPack (k := k) rfl rfl rfl (hl.homeless k) fun _ _ => id
  | released k ho hp => exact hl.onPack (k := k) rfl rfl rfl (hl.homeless k) fun _ _ => id
  | opened k p f ha hp he =>
    exact hl.pairSet (k := k) (p := p) rfl rfl (.inr (hnone (by rw [ha]; rfl)))
      (.inr (hl.pack_none (fun _ _ => id) fun st => by rw [he]; cases st <;> simp [PackState.housedBy]))
      (.inl ⟨rfl, rfl, by simp [Housed, PackState.housedBy]⟩)
  | admitted k p st q ho hp hx hst hq =>
    have hold : (P.pocket p).state ∈ PackState.opened.housedBy := ho ▸ hl.holds k p hp
    refine hl.pairSet (k := k) (p := p) rfl rfl (.inl hp) (.inl (hnames hp))
      (.inl ⟨hp, by rw [PocketRec.pack_admitted, hnames hp], ?_⟩)
    have hst' : st.housedBy = PackState.opened.housedBy := by
      subst hst
      split
      · split <;> rfl
      · rfl
    rw [Housed, hst']
    exact PocketRec.admitted_housed _ hold
  | stapling k n c start allowance hk hn =>
    have hmem := hs.2 k.handle (List.mem_of_mem_head? hk.head)
    obtain ⟨p, hp, hx⟩ := hstaple hmem
    rw [hp]
    refine hl.pairSet (k := k.handle) (p := p) rfl rfl (.inl hp) (.inl hx) (.inl ⟨hp, hx, ?_⟩)
    rcases hmem with hm | hm <;> (simp only [Housed, hm]; split <;> simp [PackState.housedBy, PocketRec.presenting])
  | waiting k hk => exact hl.of rfl rfl
  | finished k f hf =>
    obtain ⟨p, hp, hx⟩ := hstaple (k := k) (hf.elim (hs.2 k) .inr)
    rw [hp]
    exact hl.pairSet (k := k) (p := p) rfl rfl (.inl hp) (.inl hx)
      (.inl ⟨hp, hx, by simp [Housed, PackState.housedBy, PocketRec.finished]⟩)
  | nextVolume k hk hst hv => exact hl.of rfl rfl
  | dropped => exact hl.of rfl rfl
  | timedOut k o hk ho => exact hl.of rfl rfl
  | unfaulted hf => exact hl.of rfl rfl
  | refilled => exact hl.of rfl rfl
  | delivering k p d hk hp hi hd =>
    exact hl.pairSet (k := k) (p := p) rfl rfl (.inl hp) (.inl (hnames hp))
      (.inl ⟨hp, hnames hp, by simp [Housed, PackState.housedBy]⟩)
  | delivered d hd hst =>
    have hp := (hr.delivery d hd).2.2
    exact hl.pairSet (k := d.handle) (p := d.pocket) (r := PackRec.cleared) rfl rfl (.inl hp) (.inl (hnames hp))
      (.inr ⟨rfl, rfl, rfl⟩)
  | undelivered d hd hst => exact absurd ⟨(hr.delivery d hd).1, (hr.delivery d hd).2.1⟩ hst
  | lostRestarted d hd hx =>
    have hp := (hr.delivery d hd).2.2
    exact hl.pairSet (k := d.handle) (p := d.pocket) rfl rfl (.inl hp) (.inl (hnames hp)) (.inr ⟨rfl, rfl, rfl⟩)
  | lostFreed d hd hx =>
    have hp := (hr.delivery d hd).2.2
    exact hl.pairSet (k := d.handle) (p := d.pocket) (r := PackRec.cleared) rfl rfl (.inl hp) (.inl (hnames hp))
      (.inr ⟨rfl, rfl, rfl⟩)
  | lostIgnored d hd hx =>
    obtain ⟨hst, hg, -⟩ := hr.delivery d hd
    refine absurd ⟨?_, ?_, hg⟩ hx <;> (rw [hst]; nofun)
  | restarted k hx hd =>
    cases hp : (P.pack k).pocket with
    | none =>
      refine hl.onPack (k := k) (r := (P.pack k).restarted) rfl rfl rfl (fun _ => ?_) fun p h => ?_
      · simp [PackRec.restarted, hp, PackState.housedBy]
      · rw [hp] at h
        cases h
    | some p =>
      refine hl.pairSet (k := k) (p := p) (r := (P.pack k).restarted) (x := (P.pocket p).purgeAsked) rfl rfl (.inl hp)
        (.inl (hnames hp)) (.inl ⟨hp, (PocketRec.pack_purgeAsked _).trans (hnames hp), ?_⟩)
      have hne : (P.pack k).state ≠ .delivering := fun h => by rw [hd h] at hp; cases hp
      have hst : (P.pack k).restarted.state = .restarting := by simp [PackRec.restarted, hp]
      rw [Housed, hst, PocketRec.state_purgeAsked_of_housed hne (hl.holds k p hp)]
      exact List.mem_singleton_self _
  | disposed k hx hp =>
    have hhome : (P.pack k).state.housedBy ≠ [] := fun h => by
      rcases hp with hp | hp
      · cases hst : (P.pack k).state <;> simp_all [PackState.housedBy]
      · exact hp (hnone h)
    obtain ⟨p, hp, hk⟩ := hl.pocket_some hhome
    rw [hp]
    refine hl.pairSet (k := k) (p := p) (r := { P.pack k with state := .disposing }) (x := (P.pocket p).purgeAsked) rfl
      rfl (.inl hp) (.inl hk) (.inl ⟨hp, (PocketRec.pack_purgeAsked _).trans hk, ?_⟩)
    rw [Housed, PocketRec.state_purgeAsked_of_housed hx.2.2 (hl.holds k p hp)]
    exact List.mem_singleton_self _
  | freed k hx hp =>
    have hn : (P.pack k).pocket = none := hp.elim (fun h => hnone (by rw [h]; rfl)) id
    refine hl.onPack (k := k) (r := PackRec.cleared) rfl rfl hn.symm (fun _ => rfl) fun p h => ?_
    rw [hn] at h
    cases h
  | purged p x hx hy hn =>
    have hp : (P.pocket p).pack = none := by
      rw [Option.eq_none_iff_forall_ne_some]
      intro k hk
      exact PackRec.purged_ne_none (hx.1 ▸ hl.holds k p ((hl.names p k).1 hk)) (hn k hk)
    have hxp : x.pack = none := by rcases hy with rfl | rfl <;> rfl
    refine hl.onPockets rfl (fun q => ?_) fun q k hk hL => ?_
    · by_cases hq : q = p
      · rw [hq, setPocket_pocket_self, hp, hxp]
      · rw [setPocket_pocket_ne x hq]
    · rwa [setPocket_pocket_ne x fun e => by rw [e, hp] at hk; cases hk]
  | purgedPack p x k r hx hy hk hn =>
    have hxp : x.pack = none := by rcases hy with rfl | rfl <;> rfl
    refine hl.pairSet (k := k) (p := p) (r := r) (x := x) rfl rfl (.inl ((hl.names p k).1 hk)) (.inl hk)
      (.inr ⟨?_, hxp, ?_⟩)
    all_goals
      unfold PackRec.purged at hn
      split at hn <;> cases hn <;> rfl
  | purging p start allowance hst hh ho =>
    refine hl.onPockets rfl (fun q => ?_) fun q k hk hL => ?_
    · by_cases hq : q = p
      · rw [hq, setPocket_pocket_self]
      · rw [setPocket_pocket_ne _ hq]
    · by_cases hq : q = p
      · rw [hq] at hL ⊢
        rw [setPocket_pocket_self]
        exact hL
      · rwa [setPocket_pocket_ne _ hq]
  | halted o ho =>
    exact hl.onPockets rfl (fun q => PocketRec.pack_purgeCutOff _) fun q k hk hL => by
      rw [Housed, PocketRec.state_purgeCutOff]
      exact hL
  | unhalted hk => exact hl.of rfl rfl
  | redelivered o ho => exact hl.of rfl rfl
  | undeliverable hd => exact hl.of rfl rfl
  | serviceWritten p b =>
    have hx : (P.pocket p).pack ≠ none → (P.pocket p).serviceWritten b = P.pocket p := fun hx => by
      obtain ⟨k, hk⟩ := Option.ne_none_iff_exists'.1 hx
      exact PocketRec.serviceWritten_of_housed (hl.holds k p ((hl.names p k).1 hk)) b
    refine hl.onPockets rfl (fun q => ?_) fun q k hk hL => ?_
    · by_cases hq : q = p
      · rw [hq, setPocket_pocket_self]
        by_cases hp : (P.pocket p).pack = none
        · rw [hp]
          exact PocketRec.pack_serviceWritten_none hp b
        · rw [hx hp]
      · rw [setPocket_pocket_ne _ hq]
    · by_cases hq : q = p
      · rw [hq] at hL hk ⊢
        rw [setPocket_pocket_self, hx (by rw [hk]; nofun)]
        exact hL
      · rwa [setPocket_pocket_ne _ hq]
  | cartridge n => exact hl.of rfl rfl
  | reset workOnly n m hn =>
    have hp (p : PocketId) : ((P.pocket p).reset workOnly).pack = none := by
      unfold PocketRec.reset
      split
      · split
        next he => exact hl.pack_none (fun _ _ => id) fun st => by rw [he]; cases st <;> simp [PackState.housedBy]
        · rfl
      · rfl
    exact ⟨fun p k => iff_of_false (fun h => by rw [hp p] at h; cases h) nofun, fun k _ => rfl, nofun⟩

end Plant

/-! ### The states -/

theorem State.pocketsAgree_iff (s : State) : s.pocketsAgree ↔ s.plant.Linked Housed := by
  constructor
  · rintro ⟨hn, hk⟩
    exact ⟨hn, fun k => (hk k).1, fun k p => (hk k).2 p⟩
  · rintro ⟨hn, hh, hL⟩
    exact ⟨hn, fun k => ⟨hh k, fun p => hL k p⟩⟩

theorem State.returnAgrees_iff (s : State) : s.returnAgrees ↔ s.plant.ReturnAgrees :=
  ⟨fun ⟨h1, h2, h3⟩ => ⟨h1, h2, h3⟩, fun ⟨h1, h2, h3⟩ => ⟨h1, h2, h3⟩⟩

end Sys2Proof.Machine

namespace Sys2Proof.Proofs

open Sys2Proof.Machine

/-- Settles O17: each turn changes the records of one pack and of the pocket it holds, and leaves them naming each other or
parts them; a delivery record comes with the pack going DELIVERING and goes with its end. -/
theorem pocketsAgreeKept : Obligations.PocketsAgreeKept := by
  unfold Obligations.PocketsAgreeKept
  intro s t hs h
  rw [State.stapleQueueSound_iff, State.pocketsAgree_iff, State.returnAgrees_iff] at hs ⊢
  exact step_turns (P := fun p => p.StapleQueueSound ∧ p.Linked Housed ∧ p.ReturnAgrees)
    (fun p q hpq ⟨hq, hl, hr⟩ => ⟨hpq.stapleQueueSound hq, hpq.linked hq hl hr, hpq.returnAgrees hq hl hr⟩) h hs

end Sys2Proof.Proofs
end

section
/-! SUPPORT. What stands in the records of the packs and of the pockets, one by one and pair by pair, over the turns of the
plant: page counters, volume plans, purges and causes, volume indexes and offsets. -/

namespace Sys2Proof.Machine

/-- A record's counters are sound, and while it is not FREE so is its plan (R7, R83). -/
structure PackRec.Sound (r : PackRec) : Prop where
  counted : r.counted
  planned : r.state ≠ .free → r.planned

/-- A pocket's own fields agree (R70, R72, R76 to R79, R86, R88). -/
structure PocketRec.Sound (x : PocketRec) : Prop where
  purge : x.purge = .none ↔ x.state ≠ .purging
  cause : x.cause = .none ↔ x.state ≠ .outOfService
  empty : x.state = .empty → x = x.emptied
  pack : x.state ∈ [PocketState.collating, .held, .stapling, .ejecting] → x.pack ≠ none
  volume : x.state = .collating ∨ x.state = .stapling → 1 ≤ x.volume ∧ x.offset = evenVolume x.volume
  offset : x.offset = true → x.volume % 2 = 0 ∧ (x.state = .collating ∨ x.state = .stapling ∨ x.state = .purging)

/-- The volume that the next page of the pack joins (R76). -/
def PackRec.nextVolume (r : PackRec) : Nat := (r.snap.plan.ends.filter fun e => decide (e ≤ r.received)).length + 1

/-- A pocket suits the pack that it holds: the state, the sheets held and the volume index (R72, R75 to R78). -/
structure Fit (r : PackRec) (x : PocketRec) : Prop where
  opened : r.state = .opened → x.state = .collating
  held : r.state = .complete ∨ r.state = .ready → x.state = .held
  stapling : r.state = .stapling → x.state = .stapling
  sheets : r.state ≠ .restarting → r.state ≠ .disposing → x.sheets = r.received
  next : r.state = .opened → x.volume = r.nextVolume
  within : r.state = .stapling → x.volume ≤ r.volumes
  last : r.state ∈ [PackState.complete, .ready, .delivering] → x.volume = r.volumes

/-! ### The records of the packs -/

theorem PackRec.Sound.cleared : PackRec.cleared.Sound := ⟨by decide, fun h => absurd rfl h⟩

/-- A pack that goes on with the counters it has is sound in any state but those that wait for page 1. -/
theorem PackRec.Sound.withState {r : PackRec} (h : r.Sound) {st : PackState} {f : PackFlags} (hr : r.state ≠ .free)
    (hst : st ≠ .announced ∧ st ≠ .restarting) : PackRec.Sound { r with state := st, flags := f } :=
  ⟨⟨h.counted.1, h.counted.2.1, fun hx => absurd hx (not_or.2 hst)⟩, fun _ => h.planned hr⟩

theorem PackRec.Sound.restarted {r : PackRec} (h : r.Sound) (hr : r.state ≠ .free) : r.restarted.Sound :=
  ⟨⟨Nat.le_refl _, Nat.zero_le _, fun _ => ⟨rfl, rfl⟩⟩, fun _ => h.planned hr⟩

theorem PackRec.planned.ends_pos {r : PackRec} (h : r.planned) {e : Nat} (he : e ∈ r.snap.plan.ends) : 0 < e :=
  (List.pairwise_cons.1 h.1).1 e he

theorem PackRec.planned.volumes_pos {r : PackRec} (h : r.planned) : 1 ≤ r.volumes := by
  unfold PackRec.volumes
  rw [Nat.one_le_iff_ne_zero]
  intro h0
  have := h.2
  rw [List.length_eq_zero_iff.1 h0] at this
  cases this

namespace Plant

variable {P Q : Plant}

/-- Every pack's record is sound. -/
def PacksSound (P : Plant) : Prop := ∀ k, (P.pack k).Sound

/-- Every pocket's record is sound. -/
def PocketsSound (P : Plant) : Prop := ∀ p, (P.pocket p).Sound

/-- Every pocket suits the pack that holds it. -/
def Fits (P : Plant) : Prop := ∀ k p, (P.pack k).pocket = some p → Fit (P.pack k) (P.pocket p)

theorem PacksSound.onPack (h : P.PacksSound) {k : Handle} {r : PackRec} (hpack : Q.pack = (P.setPack k r).pack)
    (hr : r.Sound) : Q.PacksSound := by
  intro j
  rw [hpack]
  by_cases hj : j = k
  · rw [hj, setPack_pack_self]
    exact hr
  · rw [setPack_pack_ne r hj]
    exact h j

theorem PacksSound.of (h : P.PacksSound) (hpack : Q.pack = P.pack) : Q.PacksSound := fun k => by
  rw [hpack]
  exact h k

theorem Turn.packsSound (h : P.Turn Q) (hq : P.StapleQueueSound) (hs : P.PacksSound) : Q.PacksSound := by
  have hstaple {k : Handle} (h : (P.pack k).state = .complete ∨ (P.pack k).state = .stapling) :
      (P.pack k).state ≠ .free := by
    rcases h with h | h <;> (rw [h]; nofun)
  cases h with
  | announced k r hfree hx hp =>
    obtain ⟨-, -, h1, h2⟩ := hx
    refine hs.onPack (k := k) (r := r) rfl ⟨⟨?_, ?_, fun _ => ⟨h1, h2⟩⟩, fun _ => hp⟩
    · rw [h1, h2]
    · rw [h1]
      exact Nat.zero_le _
  | flagged k f => exact hs.onPack (k := k) rfl ⟨(hs k).counted, (hs k).planned⟩
  | released k ho hp =>
    exact hs.onPack (k := k) rfl ⟨⟨Nat.le_succ_of_le (hs k).counted.1, hp, by simp [ho]⟩, (hs k).planned⟩
  | opened k p f ha hp he =>
    have h0 := ((hs k).counted.2.2 (.inl ha)).2
    exact hs.onPack (k := k) rfl
      ⟨⟨by simp [h0], hp, by simp⟩, fun _ => (hs k).planned (by rw [ha]; nofun)⟩
  | admitted k p st q ho hp hx hst hq =>
    have hst' : st ≠ .announced ∧ st ≠ .restarting := by
      subst hst
      split
      · split <;> exact ⟨nofun, nofun⟩
      · exact ⟨nofun, nofun⟩
    exact hs.onPack (k := k) rfl
      ⟨⟨hx, (hs k).counted.2.1, fun h => absurd h (not_or.2 hst')⟩, fun _ => (hs k).planned (by rw [ho]; nofun)⟩
  | stapling k n c start allowance hk hn =>
    have hmem := hq.2 k.handle (List.mem_of_mem_head? hk.head)
    refine hs.onPack (k := k.handle) (onPocket_pack _ _) ((hs k.handle).withState (hstaple hmem) ?_)
    split
    · exact ⟨nofun, nofun⟩
    · rcases hmem with h | h <;> (rw [h]; exact ⟨nofun, nofun⟩)
  | waiting k hk => exact hs.of rfl
  | finished k f hf =>
    exact hs.onPack (k := k) (r := { P.pack k with state := .ready, flags := f })
      (setPack_pack_congr k _ (onPocket_pack _ _))
      ((hs k).withState (hstaple (hf.elim (hq.2 k) .inr)) ⟨nofun, nofun⟩)
  | nextVolume k hk hst hv => exact hs.of rfl
  | dropped => exact hs.of rfl
  | timedOut k o hk ho => exact hs.of rfl
  | unfaulted hf => exact hs.of rfl
  | refilled => exact hs.of rfl
  | delivering k p d hk hp hi hd => exact hs.onPack (k := k) rfl ((hs k).withState (by rw [hk]; nofun) ⟨nofun, nofun⟩)
  | delivered d hd hst => exact hs.onPack (k := d.handle) rfl .cleared
  | undelivered d hd hst => exact hs.of rfl
  | lostRestarted d hd hx =>
    exact hs.onPack (k := d.handle) rfl
      ⟨⟨Nat.le_refl _, Nat.zero_le _, fun _ => ⟨rfl, rfl⟩⟩, fun _ => (hs d.handle).planned hx.1⟩
  | lostFreed d hd hx => exact hs.onPack (k := d.handle) rfl .cleared
  | lostIgnored d hd hx => exact hs.onPack (k := d.handle) rfl ⟨(hs d.handle).counted, (hs d.handle).planned⟩
  | restarted k hx hd => exact hs.onPack (k := k) (onPocket_pack _ _) ((hs k).restarted hx.1)
  | disposed k hx hp => exact hs.onPack (k := k) (onPocket_pack _ _) ((hs k).withState hx.1 ⟨nofun, nofun⟩)
  | freed k hx hp => exact hs.onPack (k := k) rfl .cleared
  | purged p x hx hy hn => exact hs.of rfl
  | purgedPack p x k r hx hy hk hn =>
    refine hs.onPack (k := k) (r := r) rfl ?_
    unfold PackRec.purged at hn
    split at hn
    next hst =>
      rw [← Option.some.inj hn]
      exact ⟨⟨(hs k).counted.1, (hs k).counted.2.1, fun _ => (hs k).counted.2.2 (.inr hst)⟩,
        fun _ => (hs k).planned (by rw [hst]; nofun)⟩
    · rw [← Option.some.inj hn]
      exact .cleared
    · cases hn
  | purging p start allowance hst hh ho => exact hs.of rfl
  | halted o ho => exact hs.of rfl
  | unhalted hk => exact hs.of rfl
  | redelivered o ho => exact hs.of rfl
  | undeliverable hd => exact hs.of rfl
  | serviceWritten p b => exact hs.of rfl
  | cartridge n => exact hs.of rfl
  | reset workOnly n m hn => exact fun _ => .cleared

end Plant

/-! ### The records of the pockets -/

namespace PocketRec

variable {x : PocketRec}

theorem Sound.emptied (x : PocketRec) : x.emptied.Sound := by
  constructor <;> simp [PocketRec.emptied]

theorem Sound.timedOut (x : PocketRec) : x.timedOut.Sound := by
  constructor <;> simp [PocketRec.timedOut]

/-- A pocket with a pack and no purge that goes to such a state again, its offset output low or laying its volume. -/
theorem Sound.kept (h : x.Sound) {y : PocketRec} (hpurge : y.purge = .none) (hcause : y.cause = x.cause)
    (hx : x.state ∈ [PocketState.collating, .held, .stapling])
    (hy : y.state ∈ [PocketState.collating, .held, .stapling, .ejecting]) (hpack : y.pack = x.pack)
    (hv : y.state = .collating ∨ y.state = .stapling → 1 ≤ y.volume ∧ y.offset = evenVolume y.volume)
    (hoff : y.state = .held ∨ y.state = .ejecting → y.offset = false) : y.Sound := by
  have hxc : x.cause = .none := h.cause.2 fun e => by rw [e] at hx; simp at hx
  have hxp : x.pack ≠ none := h.pack (by simp only [List.mem_cons, List.not_mem_nil, or_false] at hx ⊢; tauto)
  refine ⟨iff_of_true hpurge ?_, iff_of_true (hcause.trans hxc) ?_, ?_, fun _ => hpack ▸ hxp, hv, fun ho => ?_⟩
  · exact fun e => by rw [e] at hy; simp at hy
  · exact fun e => by rw [e] at hy; simp at hy
  · exact fun e => by rw [e] at hy; simp at hy
  · simp only [List.mem_cons, List.not_mem_nil, or_false] at hy
    have hcs : y.state = .collating ∨ y.state = .stapling := by
      rcases hy with hy | hy | hy | hy
      · exact .inl hy
      · rw [hoff (.inl hy)] at ho
        cases ho
      · exact .inr hy
      · rw [hoff (.inr hy)] at ho
        cases ho
    refine ⟨?_, hcs.imp_right .inl⟩
    have := (hv hcs).2
    rw [ho] at this
    exact of_decide_eq_true this.symm

theorem Sound.purge_none (h : x.Sound) (hx : x.state ∈ [PocketState.collating, .held, .stapling]) : x.purge = .none :=
  h.purge.2 fun e => by rw [e] at hx; simp at hx

theorem Sound.admitted (h : x.Sound) {r : PackRec} (hx : x.state = .collating) : (x.admitted r).Sound := by
  have hmem : x.state ∈ [PocketState.collating, .held, .stapling] := by simp [hx]
  have hv := h.volume (.inl hx)
  have hp := h.purge_none hmem
  unfold PocketRec.admitted
  dsimp only
  split
  · exact h.kept hp rfl hmem (by simp) rfl (by simp) fun _ => rfl
  · split
    · exact h.kept hp rfl hmem (by simp [hx]) rfl (fun _ => ⟨Nat.succ_pos _, rfl⟩) (by simp [hx])
    · exact h.kept hp rfl hmem (by simp [hx]) rfl (fun _ => hv) (by simp [hx])

theorem Sound.presenting (h : x.Sound) (hx : x.state ∈ [PocketState.collating, .held, .stapling]) {v : Nat} (hv : 1 ≤ v) :
    (x.presenting v).Sound :=
  h.kept (h.purge_none hx) rfl hx (by simp [PocketRec.presenting]) rfl (fun _ => ⟨hv, rfl⟩) (by simp [PocketRec.presenting])

theorem Sound.finished (h : x.Sound) (hx : x.state ∈ [PocketState.collating, .held, .stapling]) (v : Nat) :
    (x.finished v).Sound :=
  h.kept (h.purge_none hx) rfl hx (by simp [PocketRec.finished]) rfl (by simp [PocketRec.finished]) fun _ => rfl

theorem Sound.ejecting (h : x.Sound) (hx : x.state = .held) : Sound { x with state := .ejecting } := by
  have hmem : x.state ∈ [PocketState.collating, .held, .stapling] := by simp [hx]
  refine h.kept (h.purge_none hmem) rfl hmem (by simp) rfl (by simp) fun _ => ?_
  cases ho : x.offset with
  | false => rfl
  | true => exact absurd (h.offset ho).2 (by simp [hx])

theorem Sound.purgeAsked (h : x.Sound) : x.purgeAsked.Sound := by
  unfold PocketRec.purgeAsked
  split
  next hs =>
    have hc := h.cause.2 (by rw [hs]; nofun)
    constructor <;> simp [hc]
  next hs =>
    have hc := h.cause.2 (by rw [hs]; nofun)
    have ho := h.offset
    constructor <;> simp_all
  next hs =>
    have hc := h.cause.2 (by rw [hs]; nofun)
    have ho := h.offset
    constructor <;> simp_all
  all_goals exact h

theorem Sound.purging (h : x.Sound) (hx : x.state = .purging) (start : Time) (allowance : Nat) :
    Sound { x with purge := .running, offset := false, purgeStart := start, purgeAllowance := allowance } := by
  have hc := h.cause.2 (by rw [hx]; nofun)
  constructor <;> simp [hx, hc]

theorem Sound.purgeCutOff (h : x.Sound) : x.purgeCutOff.Sound := by
  unfold PocketRec.purgeCutOff
  split
  next hr =>
    have hx : x.state = .purging := by
      by_contra hx
      rw [h.purge.2 hx] at hr
      cases hr
    have hc := h.cause.2 (by rw [hx]; nofun)
    have ho := h.offset
    constructor <;> simp_all
  · exact h

theorem Sound.serviceWritten (h : x.Sound) (b : Bool) : (x.serviceWritten b).Sound := by
  unfold PocketRec.serviceWritten
  split
  next hs =>
    have he := h.empty hs
    rw [he]
    constructor <;> simp [PocketRec.emptied]
  · exact .emptied x
  · exact h

theorem Sound.reset (h : x.Sound) (workOnly : Bool) : (x.reset workOnly).Sound := by
  unfold PocketRec.reset
  split
  · split
    · exact h
    · constructor <;> simp
  · constructor <;> simp

end PocketRec

namespace Plant

variable {P Q : Plant}

theorem PocketsSound.onPocket (h : P.PocketsSound) {p : PocketId} {x : PocketRec}
    (hpocket : Q.pocket = (P.setPocket p x).pocket) (hx : x.Sound) : Q.PocketsSound := by
  intro q
  rw [hpocket]
  by_cases hq : q = p
  · rw [hq, setPocket_pocket_self]
    exact hx
  · rw [setPocket_pocket_ne x hq]
    exact h q

theorem PocketsSound.of (h : P.PocketsSound) (hpocket : Q.pocket = P.pocket) : Q.PocketsSound := fun p => by
  rw [hpocket]
  exact h p

/-- A COMPLETE or STAPLING pack's pocket is HELD or STAPLING. -/
theorem Fits.heldOrStapling (h : P.Fits) {k : Handle} {p : PocketId} (hp : (P.pack k).pocket = some p)
    (hs : (P.pack k).state = .complete ∨ (P.pack k).state = .stapling) :
    (P.pocket p).state ∈ [PocketState.collating, .held, .stapling] := by
  rcases hs with hs | hs
  · simp [(h k p hp).held (.inl hs)]
  · simp [(h k p hp).stapling hs]

theorem Turn.pocketsSound (h : P.Turn Q) (hq : P.StapleQueueSound) (hl : P.Linked Housed) (hf : P.Fits)
    (hw : ∀ k, P.InHand k → 1 ≤ k.volume) (hs : P.PocketsSound) : Q.PocketsSound := by
  have hstaple {k : Handle} (h : (P.pack k).state = .complete ∨ (P.pack k).state = .stapling) :
      ∃ p, (P.pack k).pocket = some p ∧ (P.pocket p).pack = some k :=
    hl.pocket_some (by rcases h with h | h <;> (rw [h]; nofun))
  have hpurge (k : Handle) : (fun o => (P.onPocket o PocketRec.purgeAsked).PocketsSound) (P.pack k).pocket := by
    cases (P.pack k).pocket with
    | none => exact hs
    | some p => exact hs.onPocket rfl (hs p).purgeAsked
  cases h with
  | announced k r hfree hx hp => exact hs.of rfl
  | flagged k f => exact hs.of rfl
  | released k ho hp => exact hs.of rfl
  | opened k p f ha hp he =>
    refine hs.onPocket (p := p) rfl ?_
    have hx := hs p
    have hpu := hx.purge.2 (by rw [he]; nofun)
    have hca := hx.cause.2 (by rw [he]; nofun)
    constructor <;> simp [hpu, hca, evenVolume]
  | admitted k p st q ho hp hx hst hq => exact hs.onPocket (p := p) rfl ((hs p).admitted ((hf k p hp).opened ho))
  | stapling k n c start allowance hk hn =>
    have hmem := hq.2 k.handle (List.mem_of_mem_head? hk.head)
    obtain ⟨p, hp, hx⟩ := hstaple hmem
    rw [hp]
    exact hs.onPocket (p := p) rfl ((hs p).presenting (hf.heldOrStapling hp hmem) (hw k hk))
  | waiting k hk => exact hs.of rfl
  | finished k f hk =>
    have hmem := hk.elim (hq.2 k) .inr
    obtain ⟨p, hp, hx⟩ := hstaple hmem
    rw [hp]
    exact hs.onPocket (p := p) rfl ((hs p).finished (hf.heldOrStapling hp hmem) _)
  | nextVolume k hk hst hv => exact hs.of rfl
  | dropped => exact hs.of rfl
  | timedOut k o hk ho => exact hs.of rfl
  | unfaulted hf => exact hs.of rfl
  | refilled => exact hs.of rfl
  | delivering k p d hk hp hi hd => exact hs.onPocket (p := p) rfl ((hs p).ejecting ((hf k p hp).held (.inr hk)))
  | delivered d hd hst => exact hs.onPocket (p := d.pocket) rfl (.emptied _)
  | undelivered d hd hst => exact hs.onPocket (p := d.pocket) rfl (.emptied _)
  | lostRestarted d hd hx => exact hs.onPocket (p := d.pocket) rfl (.emptied _)
  | lostFreed d hd hx => exact hs.onPocket (p := d.pocket) rfl (.emptied _)
  | lostIgnored d hd hx => exact hs.onPocket (p := d.pocket) rfl (.emptied _)
  | restarted k hx hd =>
    refine PocketsSound.of (hpurge k) ?_
    cases (P.pack k).pocket <;> rfl
  | disposed k hx hp =>
    refine PocketsSound.of (hpurge k) ?_
    cases (P.pack k).pocket <;> rfl
  | freed k hx hp => exact hs.of rfl
  | purged p x hx hy hn => exact hs.onPocket (p := p) rfl (by rcases hy with rfl | rfl; exacts [.emptied _, .timedOut _])
  | purgedPack p x k r hx hy hk hn =>
    exact hs.onPocket (p := p) (x := x) rfl (by rcases hy with rfl | rfl; exacts [.emptied _, .timedOut _])
  | purging p start allowance hst hh ho => exact hs.onPocket (p := p) rfl ((hs p).purging hst.1 _ _)
  | halted o ho => exact fun p => (hs p).purgeCutOff
  | unhalted hk => exact hs.of rfl
  | redelivered o ho => exact hs.of rfl
  | undeliverable hd => exact hs.of rfl
  | serviceWritten p b => exact hs.onPocket (p := p) rfl ((hs p).serviceWritten b)
  | cartridge n => exact hs.of rfl
  | reset workOnly n m hn => exact fun p => (hs p).reset workOnly

end Plant

end Sys2Proof.Machine
end

section
/-! SUPPORT. Every pocket suits the pack that it holds (`Plant.Fits`), over the turns of the plant. -/

namespace Sys2Proof.Machine

/-! ### The volume that the next page joins -/

/-- In a rising list one more number is at most `n + 1` than at most `n` exactly where `n + 1` is in the list. -/
theorem length_filter_le_succ {l : List Nat} (h : l.Pairwise (· < ·)) (n : Nat) :
    (l.filter fun e => decide (e ≤ n + 1)).length
      = (l.filter fun e => decide (e ≤ n)).length + if n + 1 ∈ l then 1 else 0 := by
  induction l with
  | nil => rfl
  | cons a l ih =>
    obtain ⟨ha, hl⟩ := List.pairwise_cons.1 h
    have ih := ih hl
    simp only [List.filter_cons, List.mem_cons, decide_eq_true_eq]
    by_cases h1 : a ≤ n
    · simp only [h1, Nat.le_succ_of_le h1, if_true, List.length_cons, ih, show n + 1 ≠ a by omega, false_or]
      omega
    · by_cases h2 : a = n + 1
      · have hn : n + 1 ∉ l := fun hn => Nat.lt_irrefl a (h2 ▸ ha _ hn)
        simp only [h2, Nat.le_refl, if_true, Nat.not_succ_le_self, if_false, List.length_cons, ih, hn, true_or]
      · simp only [h1, show ¬a ≤ n + 1 by omega, if_false, ih, Ne.symm h2, false_or]

/-- The number that stands behind those that are at most `n` is `n + 1`, where the rising list has it. -/
theorem getElem?_length_filter_le {l : List Nat} (h : l.Pairwise (· < ·)) (n : Nat) :
    l[(l.filter fun e => decide (e ≤ n)).length]? = some (n + 1) ↔ n + 1 ∈ l := by
  induction l with
  | nil => simp
  | cons a l ih =>
    obtain ⟨ha, hl⟩ := List.pairwise_cons.1 h
    have ih := ih hl
    simp only [List.filter_cons, List.mem_cons, decide_eq_true_eq]
    by_cases h1 : a ≤ n
    · simp only [h1, if_true, List.length_cons, List.getElem?_cons_succ, ih, show n + 1 ≠ a by omega, false_or]
    · have h0 : (l.filter fun e => decide (e ≤ n)) = [] := by
        rw [List.filter_eq_nil_iff]
        intro e he
        have := ha e he
        simp only [decide_eq_true_eq]
        omega
      have hn : n + 1 ∈ l → n + 1 ≠ a := fun hm he => Nat.lt_irrefl a (he ▸ ha _ hm)
      simp only [h1, if_false, h0, List.length_nil, List.getElem?_cons_zero, Option.some.injEq]
      constructor
      · exact fun he => .inl he.symm
      · rintro (he | hm)
        · exact he.symm
        · have := ha _ hm
          omega

/-- A list whose last number is above `n` has more numbers than those that are at most `n`. -/
theorem length_filter_le_lt {l : List Nat} {m n : Nat} (hl : l.getLast? = some m) (h : n < m) :
    (l.filter fun e => decide (e ≤ n)).length < l.length := by
  refine Nat.lt_of_le_of_ne (List.length_filter_le _ _) fun he => ?_
  have := List.length_filter_eq_length_iff.1 he m (List.mem_of_getLast? hl)
  rw [decide_eq_true_eq] at this
  omega

section
variable {r : PackRec} {x : PocketRec}

theorem PackRec.nextVolume_of_none (h : r.planned) (h0 : r.received = 0) : r.nextVolume = 1 := by
  unfold PackRec.nextVolume
  rw [h0, List.filter_eq_nil_iff.2 fun e he => ?_]
  · rfl
  · have := h.ends_pos he
    simp only [decide_eq_true_eq]
    omega

/-- The pocket of an OPEN pack once its next sheet is admitted (R75 to R77). -/
theorem Fit.admitted (h : Fit r x) (ho : r.state = .opened) (hp : r.planned) (hr : r.received < r.pages) {st : PackState}
    (hst : st = if r.received + 1 = r.pages then (if r.snap.plan.stapled then .complete else .ready) else .opened) :
    Fit { r with received := r.received + 1, state := st } (x.admitted r) := by
  have hx := h.opened ho
  have hsheets : x.sheets = r.received := h.sheets (by rw [ho]; nofun) (by rw [ho]; nofun)
  have hv : x.volume = r.nextVolume := h.next ho
  have hrise := (List.pairwise_cons.1 hp.1).2
  unfold PocketRec.admitted
  dsimp only
  rw [hsheets]
  by_cases hlast : r.received + 1 = r.pages
  · rw [if_pos hlast] at hst ⊢
    have hcr : st = .complete ∨ st = .ready := by
      subst hst
      split
      · exact .inl rfl
      · exact .inr rfl
    have hne : st ≠ .opened ∧ st ≠ .stapling := by rcases hcr with h | h <;> (rw [h]; exact ⟨nofun, nofun⟩)
    exact ⟨fun e => absurd e hne.1, fun _ => rfl, fun e => absurd e hne.2, fun _ _ => rfl, fun e => absurd e hne.1,
      fun e => absurd e hne.2, fun _ => rfl⟩
  · rw [if_neg hlast] at hst ⊢
    subst hst
    have hlt := length_filter_le_lt hp.2 hr
    have hindex : x.volume - 1 = (r.snap.plan.ends.filter fun e => decide (e ≤ r.received)).length := by
      rw [hv, PackRec.nextVolume, Nat.add_sub_cancel]
    have hnext := length_filter_le_succ hrise r.received
    have hmem := getElem?_length_filter_le hrise r.received
    have hbelow (hm : r.received + 1 ∈ r.snap.plan.ends) : x.volume < r.snap.plan.ends.length := by
      have := length_filter_le_lt hp.2 (n := r.received + 1) (by omega)
      rw [hnext, if_pos hm] at this
      rw [hv, PackRec.nextVolume]
      exact this
    rw [hindex]
    split
    next hm =>
      have hm : r.received + 1 ∈ r.snap.plan.ends := hmem.1 hm.2
      exact ⟨fun _ => hx, by simp, by simp, fun _ _ => rfl, fun _ => by
        rw [PackRec.nextVolume]; dsimp only; rw [hnext, if_pos hm, hv]; rfl, by simp, by simp⟩
    next hm =>
      have hn : r.received + 1 ∉ r.snap.plan.ends := fun hn => hm ⟨hbelow hn, hmem.2 hn⟩
      exact ⟨fun _ => hx, by simp, by simp, fun _ _ => rfl, fun _ => by
        rw [PackRec.nextVolume]; dsimp only; rw [hnext, if_neg hn, hv]; rfl, by simp, by simp⟩

/-- A pack that waits for its purge asks of its pocket only that it be PURGING. -/
theorem Fit.of_waiting (h : r.state = .restarting ∨ r.state = .disposing) : Fit r x := by
  rcases h with h | h <;> constructor <;> simp [h]

end

@[simp] theorem PocketRec.sheets_purgeCutOff (x : PocketRec) : x.purgeCutOff.sheets = x.sheets := by
  unfold PocketRec.purgeCutOff
  split <;> rfl

@[simp] theorem PocketRec.volume_purgeCutOff (x : PocketRec) : x.purgeCutOff.volume = x.volume := by
  unfold PocketRec.purgeCutOff
  split <;> rfl

@[simp] theorem PocketRec.volume_purgeAsked (x : PocketRec) : x.purgeAsked.volume = x.volume := by
  unfold PocketRec.purgeAsked
  split <;> rfl

/-! ### The turns -/

namespace Plant

variable {P Q : Plant}

/-- One pack and the pocket it holds change. -/
theorem Fits.pair (h : P.Fits) (hQ : Q.Linked Housed) {k : Handle} {p : PocketId} {r : PackRec} {x : PocketRec}
    (hpack : Q.pack = (P.setPack k r).pack) (hpocket : Q.pocket = (P.setPocket p x).pocket)
    (hx : x.pack = some k ∨ x.pack = none) (hr : r.pocket = some p ∨ r.pocket = none)
    (hnew : r.pocket = some p → Fit r x) : Q.Fits := by
  intro j q hj
  by_cases hjk : j = k
  · subst hjk
    rw [hpack, setPack_pack_self] at hj ⊢
    have hqp : q = p := by
      rcases hr with hr | hr <;> rw [hj] at hr
      · exact Option.some.inj hr
      · cases hr
    rw [hqp, hpocket, setPocket_pocket_self]
    exact hnew (hqp ▸ hj)
  · have hqp : q ≠ p := fun e => by
      have hn := (hQ.names q j).2 hj
      rw [hpocket, e, setPocket_pocket_self] at hn
      rcases hx with hx | hx <;> rw [hn] at hx
      · exact hjk (Option.some.inj hx)
      · cases hx
    rw [hpack, setPack_pack_ne r hjk] at hj ⊢
    rw [hpocket, setPocket_pocket_ne x hqp]
    exact h j q hj

/-- One pack's record changes and goes on to name what it named. -/
theorem Fits.onPack (h : P.Fits) {k : Handle} {r : PackRec} (hpack : Q.pack = (P.setPack k r).pack)
    (hpocket : Q.pocket = P.pocket) (hr : r.pocket = (P.pack k).pocket ∨ r.pocket = none)
    (hnew : ∀ p, (P.pack k).pocket = some p → Fit (P.pack k) (P.pocket p) → Fit r (P.pocket p)) : Q.Fits := by
  intro j q hj
  rw [hpocket]
  by_cases hjk : j = k
  · subst hjk
    rw [hpack, setPack_pack_self] at hj ⊢
    have hold : (P.pack j).pocket = some q := by
      rcases hr with hr | hr <;> rw [hj] at hr
      · exact hr.symm
      · cases hr
    exact hnew q hold (h j q hold)
  · rw [hpack, setPack_pack_ne r hjk] at hj ⊢
    exact h j q hj

/-- The pockets that hold a pack keep their state, sheets and volume. -/
theorem Fits.onPockets (h : P.Fits) (hpack : Q.pack = P.pack)
    (hpocket : ∀ k p, (P.pack k).pocket = some p → (Q.pocket p).state = (P.pocket p).state
      ∧ (Q.pocket p).sheets = (P.pocket p).sheets ∧ (Q.pocket p).volume = (P.pocket p).volume) : Q.Fits := by
  intro k p hk
  rw [hpack] at hk ⊢
  obtain ⟨h1, h2, h3⟩ := hpocket k p hk
  obtain ⟨f1, f2, f3, f4, f5, f6, f7⟩ := h k p hk
  exact ⟨fun e => h1.trans (f1 e), fun e => h1.trans (f2 e), fun e => h1.trans (f3 e), fun e e' => h2.trans (f4 e e'),
    fun e => h3.trans (f5 e), fun e => h3 ▸ f6 e, fun e => h3.trans (f7 e)⟩

theorem Fits.of (h : P.Fits) (hpack : Q.pack = P.pack) (hpocket : Q.pocket = P.pocket) : Q.Fits :=
  h.onPockets hpack fun k p _ => by rw [hpocket]; exact ⟨rfl, rfl, rfl⟩

/-- A purge is asked for of the pocket of a pack that goes on to wait for it. -/
theorem Fits.purgeAsked (h : P.Fits) (hQ : Q.Linked Housed) {k : Handle} {r : PackRec} {f : PocketRec → PocketRec}
    (hpack : Q.pack = (P.setPack k r).pack) (hpocket : Q.pocket = (P.onPocket (P.pack k).pocket f).pocket)
    (hk : ∀ p, (P.pack k).pocket = some p → (P.pocket p).pack = some k)
    (hf : ∀ x : PocketRec, (f x).pack = x.pack) (hr : r.pocket = (P.pack k).pocket)
    (hw : (P.pack k).pocket ≠ none → r.state = .restarting ∨ r.state = .disposing) : Q.Fits := by
  cases hp : (P.pack k).pocket with
  | none => exact h.onPack hpack (by rw [hpocket, hp]; rfl) (.inl hr) fun p e => by rw [hp] at e; cases e
  | some p =>
    rw [hp] at hpocket hw hr
    exact h.pair hQ hpack hpocket (.inl (by rw [hf]; exact hk p hp)) (.inl hr) fun _ => .of_waiting (hw nofun)

theorem Turn.fits (h : P.Turn Q) (hq : P.StapleQueueSound) (hl : P.Linked Housed) (hr : P.ReturnAgrees)
    (hs : P.PacksSound) (hw : ∀ k, P.InHand k → k.volume ≤ (P.pack k.handle).volumes
      ∧ ((P.pack k.handle).state = .complete → k.volume = 1)) (hf : P.Fits) : Q.Fits := by
  have hQ := h.linked hq hl hr
  have hstaple {k : Handle} (h : (P.pack k).state = .complete ∨ (P.pack k).state = .stapling) :
      ∃ p, (P.pack k).pocket = some p ∧ (P.pocket p).pack = some k :=
    hl.pocket_some (by rcases h with h | h <;> (rw [h]; nofun))
  have hnames {k : Handle} (p : PocketId) : (P.pack k).pocket = some p → (P.pocket p).pack = some k := (hl.names p k).2
  cases h with
  | announced k r hfree hx hp =>
    refine hf.onPack (k := k) (r := r) rfl rfl (.inr hx.2.1) fun p h => ?_
    rw [hl.pocket_none (k := k) (fun _ _ => id) (by rw [hfree]; rfl)] at h
    cases h
  | flagged k f => exact hf.onPack (k := k) rfl rfl (.inl rfl) fun p _ h => ⟨h.1, h.2, h.3, h.4, h.5, h.6, h.7⟩
  | released k ho hp => exact hf.onPack (k := k) rfl rfl (.inl rfl) fun p _ h => ⟨h.1, h.2, h.3, h.4, h.5, h.6, h.7⟩
  | opened k p f ha hp he =>
    have h0 := ((hs k).counted.2.2 (.inl ha)).2
    have hn := PackRec.nextVolume_of_none ((hs k).planned (by rw [ha]; nofun)) h0
    refine hf.pair hQ (k := k) (p := p) rfl rfl (.inl rfl) (.inl rfl) fun _ => ?_
    exact ⟨fun _ => rfl, by simp, by simp, fun _ _ => h0.symm, fun _ => hn.symm, by simp, by simp⟩
  | admitted k p st q ho hp hx hst hq =>
    refine hf.pair hQ (k := k) (p := p) rfl rfl (.inl ?_) (.inl hp) fun _ =>
      (hf k p hp).admitted ho ((hs k).planned (by rw [ho]; nofun)) (Nat.lt_of_lt_of_le hx (hs k).counted.2.1) hst
    rw [PocketRec.pack_admitted, hnames p hp]
  | stapling k n c start allowance hk hn =>
    have hmem := hq.2 k.handle (List.mem_of_mem_head? hk.head)
    obtain ⟨p, hp, hx⟩ := hstaple hmem
    obtain ⟨hvol, hone⟩ := hw k hk
    have hfit := hf k.handle p hp
    have hst : (if k.volume = 1 ∧ (P.pack k.handle).state = .complete then PackState.stapling
        else (P.pack k.handle).state) = .stapling := by
      rcases hmem with hm | hm
      · rw [if_pos ⟨hone hm, hm⟩]
      · rw [hm, ite_self]
    rw [hp, hst] at hQ ⊢
    refine hf.pair hQ (k := k.handle) (p := p) rfl rfl (.inl hx) (.inl hp) fun _ => ?_
    refine ⟨by simp, by simp, fun _ => rfl, fun _ _ => hfit.sheets ?_ ?_, by simp, fun _ => hvol, by simp⟩
    all_goals rcases hmem with hm | hm <;> (rw [hm]; nofun)
  | waiting k hk => exact hf.of rfl rfl
  | finished k f hk =>
    have hmem := hk.elim (hq.2 k) .inr
    obtain ⟨p, hp, hx⟩ := hstaple hmem
    have hfit := hf k p hp
    rw [hp] at hQ ⊢
    refine hf.pair hQ (k := k) (p := p) rfl rfl (.inl hx) (.inl hp) fun _ => ?_
    refine ⟨by simp, fun _ => rfl, by simp, fun _ _ => hfit.sheets ?_ ?_, by simp, by simp, fun _ => rfl⟩
    all_goals rcases hmem with hm | hm <;> (rw [hm]; nofun)
  | nextVolume k hk hst hv => exact hf.of rfl rfl
  | dropped => exact hf.of rfl rfl
  | timedOut k o hk ho => exact hf.of rfl rfl
  | unfaulted hf' => exact hf.of rfl rfl
  | refilled => exact hf.of rfl rfl
  | delivering k p d hk hp hi hd =>
    have hfit := hf k p hp
    refine hf.pair hQ (k := k) (p := p) rfl rfl (.inl (hnames p hp)) (.inl hp) fun _ => ?_
    exact ⟨by simp, by simp, by simp, fun _ _ => hfit.sheets (by rw [hk]; nofun) (by rw [hk]; nofun), by simp, by simp,
      fun _ => hfit.last (by simp [hk])⟩
  | delivered d hd hst => exact hf.pair hQ (k := d.handle) (p := d.pocket) (r := PackRec.cleared) rfl rfl (.inr rfl) (.inr rfl) nofun
  | undelivered d hd hst => exact absurd ⟨(hr.delivery d hd).1, (hr.delivery d hd).2.1⟩ hst
  | lostRestarted d hd hx => exact hf.pair hQ (k := d.handle) (p := d.pocket) rfl rfl (.inr rfl) (.inr rfl) nofun
  | lostFreed d hd hx => exact hf.pair hQ (k := d.handle) (p := d.pocket) (r := PackRec.cleared) rfl rfl (.inr rfl) (.inr rfl) nofun
  | lostIgnored d hd hx => exact hf.pair hQ (k := d.handle) (p := d.pocket) rfl rfl (.inr rfl) (.inr rfl) nofun
  | restarted k hx hd =>
    refine hf.purgeAsked hQ (k := k) (r := (P.pack k).restarted) (f := PocketRec.purgeAsked) (onPocket_pack _ _) ?_ hnames
      PocketRec.pack_purgeAsked rfl fun hp => ?_
    · cases (P.pack k).pocket <;> rfl
    · exact .inl (if_pos (Option.isSome_iff_ne_none.2 hp))
  | disposed k hx hp =>
    refine hf.purgeAsked hQ (k := k) (f := PocketRec.purgeAsked) (onPocket_pack _ _) ?_ hnames
      PocketRec.pack_purgeAsked rfl fun hp => .inr rfl
    cases (P.pack k).pocket <;> rfl
  | freed k hx hp =>
    refine hf.onPack (k := k) (r := PackRec.cleared) rfl rfl (.inr rfl) fun p h => ?_
    rw [hp.elim (fun h => hl.pocket_none (k := k) (fun _ _ => id) (by rw [h]; rfl)) id] at h
    cases h
  | purged p x hx hy hn =>
    refine hf.onPockets rfl fun k q hk => ?_
    have hq : q ≠ p := fun e => PackRec.purged_ne_none (hx.1 ▸ hl.holds k p (e ▸ hk)) (hn k (hnames p (e ▸ hk)))
    rw [setPocket_pocket_ne x hq]
    exact ⟨rfl, rfl, rfl⟩
  | purgedPack p x k r hx hy hk hn =>
    have hrp : r.pocket = none := by
      unfold PackRec.purged at hn
      split at hn <;> cases hn <;> rfl
    exact hf.pair hQ (k := k) (p := p) (r := r) (x := x) rfl rfl (.inr (by rcases hy with rfl | rfl <;> rfl)) (.inr hrp)
      fun h => by rw [hrp] at h; cases h
  | purging p start allowance hst hh ho =>
    refine hf.onPockets rfl fun k q hk => ?_
    by_cases hq : q = p
    · rw [hq, setPocket_pocket_self]
      exact ⟨rfl, rfl, rfl⟩
    · rw [setPocket_pocket_ne _ hq]
      exact ⟨rfl, rfl, rfl⟩
  | halted o ho =>
    exact hf.onPockets rfl fun k q hk =>
      ⟨PocketRec.state_purgeCutOff _, PocketRec.sheets_purgeCutOff _, PocketRec.volume_purgeCutOff _⟩
  | unhalted hk => exact hf.of rfl rfl
  | redelivered o ho => exact hf.of rfl rfl
  | undeliverable hd => exact hf.of rfl rfl
  | serviceWritten p b =>
    refine hf.onPockets rfl fun k q hk => ?_
    by_cases hq : q = p
    · rw [hq] at hk ⊢
      rw [setPocket_pocket_self, PocketRec.serviceWritten_of_housed (hl.holds k p hk) b]
      exact ⟨rfl, rfl, rfl⟩
    · rw [setPocket_pocket_ne _ hq]
      exact ⟨rfl, rfl, rfl⟩
  | cartridge n => exact hf.of rfl rfl
  | reset workOnly n m hn => exact nofun

end Plant

end Sys2Proof.Machine
end

section
/-! SUPPORT. The Stapler's own fields, and purges apart from its operations and from HALT, over the turns of the plant; then
all that the plant keeps (`Plant.Sound`). -/

namespace Sys2Proof.Machine

namespace Plant

variable {P Q : Plant}

/-- A work record's standing (R95, R78, R108): `State.staplerSound` says it of the record in hand. -/
structure WorkFits (P : Plant) (k : WorkRec) : Prop where
  stapled : k.stapled + 1 = k.volume
  cutOff : k.op = .cutOff → P.stapler.state = .idle ∧ P.halted = true
  command : P.stapler.state = .stapling →
    (P.pack k.handle).pocket ≠ none ∧ P.stapler.command.map Prod.fst = (P.pack k.handle).pocket
  presents : k.op ≠ .none → P.stillStapling k → ∀ p, (P.pack k.handle).pocket = some p → (P.pocket p).volume = k.volume
  names : P.stapler.queue.head? = some k.handle ∧ (P.pack k.handle).gen = k.gen ∧ k.volume ≤ (P.pack k.handle).volumes
      ∧ ((P.pack k.handle).state = .stapling ∨ (P.pack k.handle).state = .complete ∧ k.op = .none ∧ k.volume = 1)
    ∨ k.op ≠ .none ∧ ((P.pack k.handle).state = .restarting ∨ (P.pack k.handle).state = .disposing)

/-- The Stapler's own fields agree (R95, R106). -/
structure StaplerSound (P : Plant) : Prop where
  stapling : P.stapler.state = .stapling ↔ P.stapler.work.map WorkRec.op = some .inFlight
  command : P.stapler.state = .stapling ↔ P.stapler.command ≠ none
  waiting : P.stapler.state = .waitingCartridge →
    P.stapler.work.map WorkRec.op = some .none ∧ P.stapler.work.map WorkRec.handle = P.stapler.queue.head?
  work : ∀ k ∈ P.stapler.work, P.WorkFits k
  remaining : P.stapler.remaining ≤ P.cartridge

/-- A volume operation is in flight on the pocket. -/
def Operates (P : Plant) (p : PocketId) : Prop :=
  P.stapler.work.map WorkRec.op = some .inFlight ∧ P.stapler.command.map Prod.fst = some p

/-- A purge runs only outside HALT, and while no volume operation is in flight on its pocket (R87, R90). -/
def Apart (P : Plant) : Prop := ∀ p, (P.pocket p).purge = .running → P.halted = false ∧ ¬P.Operates p

/-! ### A work record after a change -/

/-- The pack named keeps its state, generation, pocket and plan, its pocket the volume. -/
theorem WorkFits.congr {k : WorkRec} (h : P.WorkFits k) (hs : Q.stapler.state = P.stapler.state)
    (hc : Q.stapler.command = P.stapler.command)
    (hq : P.stapler.queue.head? = some k.handle → Q.stapler.queue.head? = some k.handle) (hh : Q.halted = P.halted)
    (hstate : (Q.pack k.handle).state = (P.pack k.handle).state) (hgen : (Q.pack k.handle).gen = (P.pack k.handle).gen)
    (hpocket : (Q.pack k.handle).pocket = (P.pack k.handle).pocket)
    (hvolumes : (Q.pack k.handle).volumes = (P.pack k.handle).volumes)
    (hv : ∀ p, (P.pack k.handle).pocket = some p → (Q.pocket p).volume = (P.pocket p).volume) : Q.WorkFits k := by
  refine ⟨h.stapled, ?_, ?_, fun ho ⟨h1, h2⟩ p hp => ?_, ?_⟩
  · rw [hs, hh]
    exact h.cutOff
  · rw [hs, hc, hpocket]
    exact h.command
  · rw [hpocket] at hp
    rw [hv p hp]
    exact h.presents ho ⟨hstate ▸ h1, hgen ▸ h2⟩ p hp
  · rw [hstate, hgen, hvolumes]
    exact h.names.imp_left (And.imp_left hq)

/-- The work record of a pack named neither FREE nor ANNOUNCED nor OPEN nor READY nor DELIVERING. -/
theorem WorkFits.state_mem {k : WorkRec} (h : P.WorkFits k) :
    (P.pack k.handle).state ∈ [PackState.complete, .stapling, .restarting, .disposing] := by
  rcases h.names with ⟨-, -, -, h | h⟩ | ⟨-, h | h⟩
  · simp [h]
  · simp [h.1]
  · simp [h]
  · simp [h]

/-- The pack in hand of an operation in flight or cut off that is a pack's own to go on. -/
theorem WorkFits.ownHead {k : WorkRec} (h : P.WorkFits k)
    (hs : (P.pack k.handle).state = .complete ∨ (P.pack k.handle).state = .stapling) :
    P.stapler.queue.head? = some k.handle ∧ (P.pack k.handle).gen = k.gen ∧ k.volume ≤ (P.pack k.handle).volumes
      ∧ ((P.pack k.handle).state = .stapling ∨ (P.pack k.handle).state = .complete ∧ k.op = .none ∧ k.volume = 1) := by
  rcases h.names with h | ⟨-, h⟩
  · exact h
  · rcases hs with hs | hs <;> rw [hs] at h <;> rcases h with h | h <;> cases h

/-- The volume in hand is one of the pack's plan, and the first while the pack is COMPLETE. -/
theorem StaplerSound.inHand (h : P.StaplerSound) (hq : P.StapleQueueSound) (hs : P.PacksSound) {k : WorkRec}
    (hk : P.InHand k) : k.stapled + 1 = k.volume ∧ k.volume ≤ (P.pack k.handle).volumes
      ∧ ((P.pack k.handle).state = .complete → k.volume = 1) := by
  have hmem := hq.2 k.handle (List.mem_of_mem_head? hk.head)
  rcases hk.held with hw | ⟨h1, h0, -⟩
  · have hfit := h.work k hw
    obtain ⟨-, -, hv, hst⟩ := hfit.ownHead hmem
    refine ⟨hfit.stapled, hv, fun hc => ?_⟩
    rcases hst with hst | hst
    · rw [hst] at hc
      cases hc
    · exact hst.2.2
  · refine ⟨by rw [h0, h1], ?_, fun _ => h1⟩
    rw [h1]
    refine ((hs k.handle).planned ?_).volumes_pos
    rcases hmem with hm | hm <;> (rw [hm]; nofun)

/-! ### The Stapler after a change -/

/-- The Stapler's record stands. -/
theorem StaplerSound.keep (h : P.StaplerSound) (hs : Q.stapler = P.stapler) (hc : Q.cartridge = P.cartridge)
    (hw : ∀ k ∈ P.stapler.work, P.WorkFits k → Q.WorkFits k) : Q.StaplerSound := by
  refine ⟨?_, ?_, ?_, ?_, ?_⟩ <;> rw [hs]
  · exact h.stapling
  · exact h.command
  · exact h.waiting
  · exact fun k hk => hw k hk (h.work k hk)
  · rw [hc]
    exact h.remaining

/-- Nothing that the work record looks at changes: one pack does, not the one in hand, and volumes of pockets that the pack
in hand does not hold. -/
theorem StaplerSound.elsewhere (h : P.StaplerSound) {j : Handle} (hs : Q.stapler = P.stapler)
    (hc : Q.cartridge = P.cartridge) (hh : Q.halted = P.halted) (hpack : ∀ i, i ≠ j → Q.pack i = P.pack i)
    (hj : (P.pack j).state ∉ [PackState.complete, .stapling, .restarting, .disposing])
    (hv : ∀ i p, i ≠ j → (P.pack i).pocket = some p → (Q.pocket p).volume = (P.pocket p).volume) : Q.StaplerSound :=
  h.keep hs hc fun k hk hfit => by
    have hne : k.handle ≠ j := fun e => hj (e ▸ hfit.state_mem)
    have he := hpack k.handle hne
    exact hfit.congr (by rw [hs]) (by rw [hs]) (by rw [hs]; exact id) hh (by rw [he]) (by rw [he]) (by rw [he])
      (by rw [he]) fun p hp => hv k.handle p hne hp

/-- No pack changes in what the work record looks at, and no volume of a pocket that holds one. -/
theorem StaplerSound.same (h : P.StaplerSound) (hs : Q.stapler = P.stapler) (hc : Q.cartridge = P.cartridge)
    (hh : Q.halted = P.halted)
    (hpack : ∀ i, (Q.pack i).state = (P.pack i).state ∧ (Q.pack i).gen = (P.pack i).gen
      ∧ (Q.pack i).pocket = (P.pack i).pocket ∧ (Q.pack i).volumes = (P.pack i).volumes)
    (hv : ∀ i p, (P.pack i).pocket = some p → (Q.pocket p).volume = (P.pocket p).volume) : Q.StaplerSound :=
  h.keep hs hc fun k hk hfit => by
    obtain ⟨h1, h2, h3, h4⟩ := hpack k.handle
    exact hfit.congr (by rw [hs]) (by rw [hs]) (by rw [hs]; exact id) hh h1 h2 h3 h4 fun p hp => hv k.handle p hp

/-- The Stapler stands with no work in hand. -/
theorem StaplerSound.atRest (hw : Q.stapler.work = none) (hc : Q.stapler.command = none)
    (hs : Q.stapler.state ≠ .stapling ∧ Q.stapler.state ≠ .waitingCartridge) (hr : Q.stapler.remaining ≤ Q.cartridge) :
    Q.StaplerSound :=
  ⟨iff_of_false hs.1 (by rw [hw]; nofun), iff_of_false hs.1 fun e => e hc, fun e => absurd e hs.2,
    fun k hk => absurd (hw.symm.trans hk) nofun, hr⟩

/-- The Stapler stands with the next volume in hand and no operation. -/
theorem StaplerSound.nextInHand {k : WorkRec} (hw : Q.stapler.work = some k) (ho : k.op = .none)
    (hc : Q.stapler.command = none) (hs : Q.stapler.state ≠ .stapling ∧ Q.stapler.state ≠ .waitingCartridge)
    (hr : Q.stapler.remaining ≤ Q.cartridge) (hst : k.stapled + 1 = k.volume) (hq : Q.stapler.queue.head? = some k.handle)
    (hg : (Q.pack k.handle).gen = k.gen) (hv : k.volume ≤ (Q.pack k.handle).volumes)
    (hp : (Q.pack k.handle).state = .stapling) : Q.StaplerSound :=
  ⟨iff_of_false hs.1 (by rw [hw, Option.map_some, ho]; nofun), iff_of_false hs.1 fun e => e hc, fun e => absurd e hs.2,
    fun j hj => by
      rw [hw] at hj
      cases hj
      exact ⟨hst, fun e => absurd (ho.symm.trans e) nofun, fun e => absurd e hs.1, fun e => absurd ho e, .inl ⟨hq, hg, hv, .inl hp⟩⟩,
    hr⟩

end Plant

/-! ### A pack leaves the staple queue -/

theorem Stapler.without_of_not_mem {r : Stapler} {k : Handle} (h : k ∉ r.queue) : r.without k = r := by
  have hq : r.queue.filter (fun j => decide (j ≠ k)) = r.queue :=
    List.filter_eq_self.2 fun j hj => decide_eq_true fun e => h (e ▸ hj)
  have hh : decide (r.queue.head? = some k) = false := decide_eq_false fun e => h (List.mem_of_mem_head? e)
  unfold Stapler.without
  rw [hq, hh]
  rfl

theorem Stapler.head?_without_queue {r : Stapler} {k : Handle} (h : r.queue.head? ≠ some k) :
    (r.queue.filter fun j => decide (j ≠ k)).head? = r.queue.head? := by
  cases hq : r.queue with
  | nil => rfl
  | cons j l =>
    rw [hq] at h
    have hj : j ≠ k := fun e => h (congrArg some e)
    simp [hj]

namespace Plant

variable {P Q : Plant}

/-- A pack that holds a pocket waits for its purge from then on, and has left the staple queue (R107). -/
theorem StaplerSound.without (h : P.StaplerSound) {k : Handle} {r : PackRec} (hpack : Q.pack = (P.setPack k r).pack)
    (hs : Q.stapler = P.stapler.without k) (hc : Q.cartridge = P.cartridge) (hh : Q.halted = P.halted)
    (hv : ∀ p, (Q.pocket p).volume = (P.pocket p).volume) (hrp : r.pocket = (P.pack k).pocket)
    (hr : (P.pack k).pocket ≠ none → r.state = .restarting ∨ r.state = .disposing)
    (hhome : (P.pack k).pocket = none → (P.pack k).state.housedBy = []) : Q.StaplerSound := by
  have hother {i : Handle} (hi : i ≠ k) : Q.pack i = P.pack i := by rw [hpack, setPack_pack_ne r hi]
  have hself : Q.pack k = r := by rw [hpack, setPack_pack_self]
  by_cases hdrop : P.stapler.queue.head? = some k ∧ P.stapler.work.map WorkRec.op ≠ some .inFlight
  · have hst : P.stapler.state ≠ .stapling := fun e => hdrop.2 (h.stapling.1 e)
    have hstate : Q.stapler.state ≠ .stapling ∧ Q.stapler.state ≠ .waitingCartridge := by
      rw [hs]
      simp only [Stapler.without, hdrop.1, decide_true, Bool.true_and, decide_eq_true_eq]
      split
      · exact ⟨nofun, nofun⟩
      · exact ⟨hst, by assumption⟩
    refine .atRest ?_ ?_ hstate (by rw [hs, hc]; exact h.remaining)
    · rw [hs]
      simp [Stapler.without, hdrop.1, hdrop.2]
    · rw [hs]
      by_contra e
      exact hst (h.command.2 e)
  · have hwork : Q.stapler.work = P.stapler.work := by
      rw [hs]
      rw [not_and, not_not] at hdrop
      by_cases hq : P.stapler.queue.head? = some k
      · simp [Stapler.without, hdrop hq]
      · simp [Stapler.without, hq]
    have hstate : Q.stapler.state = P.stapler.state := by
      rw [hs]
      by_cases hq : P.stapler.queue.head? = some k
      · have : P.stapler.state ≠ .waitingCartridge := fun e => by
          rw [not_and, not_not] at hdrop
          have := (h.waiting e).1
          rw [hdrop hq] at this
          cases this
        simp [Stapler.without, this]
      · simp [Stapler.without, hq]
    have hcommand : Q.stapler.command = P.stapler.command := by rw [hs]; rfl
    have hhead (hq : P.stapler.queue.head? ≠ some k) : Q.stapler.queue.head? = P.stapler.queue.head? := by
      rw [hs]
      exact Stapler.head?_without_queue hq
    refine ⟨?_, ?_, fun e => ?_, fun j hj => ?_, by rw [hs, hc]; exact h.remaining⟩
    · rw [hstate, hwork]
      exact h.stapling
    · rw [hstate, hcommand]
      exact h.command
    · rw [hstate] at e
      obtain ⟨h1, h2⟩ := h.waiting e
      rw [hwork, hhead fun hq => hdrop ⟨hq, by rw [h1]; nofun⟩]
      exact ⟨h1, h2⟩
    · rw [hwork] at hj
      have hfit := h.work j hj
      by_cases hjk : j.handle = k
      · have hpk : (P.pack k).pocket ≠ none := fun e => by
          have := hhome e
          have hm := hfit.state_mem
          rw [hjk] at hm
          simp only [List.mem_cons, List.not_mem_nil, or_false] at hm
          rcases hm with hm | hm | hm | hm <;> rw [hm] at this <;> cases this
        have hop : j.op ≠ .none := fun e => by
          rcases hfit.names with hn | hn
          · exact hdrop ⟨hjk ▸ hn.1, by rw [show P.stapler.work = some j from hj, Option.map_some, e]; nofun⟩
          · exact hn.1 e
        refine ⟨hfit.stapled, ?_, ?_, fun _ hx => ?_, .inr ⟨hop, ?_⟩⟩
        · rw [hstate, hh]
          exact hfit.cutOff
        · rw [hstate, hcommand, hjk, hself, hrp, ← hjk]
          exact hfit.command
        · have := hx.1
          rw [hjk, hself] at this
          rcases hr hpk with e | e <;> rw [this] at e <;> cases e
        · rw [hjk, hself]
          exact hr hpk
      · have he := hother hjk
        refine hfit.congr hstate hcommand (fun hq => ?_) hh (by rw [he]) (by rw [he]) (by rw [he]) (by rw [he])
          fun p _ => hv p
        rw [hhead fun e => hjk (Option.some.inj (hq.symm.trans e))]
        exact hq

end Plant

end Sys2Proof.Machine
end

section
/-! SUPPORT. The Stapler's own fields and the purges apart from it, turn by turn; then all that the plant keeps
(`Plant.Sound`). -/

namespace Sys2Proof.Machine

@[simp] theorem PocketRec.volume_presenting (x : PocketRec) (v : Nat) : (x.presenting v).volume = v := rfl

theorem Stapler.cutOff_of_busy {r : Stapler} {k : WorkRec} (hs : r.state = .stapling) (hw : r.work = some k)
    (ho : k.op = .inFlight) :
    r.cutOff = { r with state := .idle, work := some { k with op := .cutOff }, command := none } := by
  unfold Stapler.cutOff
  rw [hs, hw]
  exact if_pos ho

theorem Stapler.cutOff_of_not_stapling {r : Stapler} (h : r.state ≠ .stapling) : r.cutOff = r := by
  unfold Stapler.cutOff
  split
  next hs _ => exact absurd hs h
  · rfl

@[simp] theorem PocketRec.purge_admitted (x : PocketRec) (r : PackRec) : (x.admitted r).purge = x.purge := by
  unfold PocketRec.admitted
  dsimp only
  split
  · rfl
  · split <;> rfl

theorem PocketRec.running_of_purgeAsked {x : PocketRec} (h : x.purgeAsked.purge = .running) : x.purge = .running := by
  unfold PocketRec.purgeAsked at h
  split at h
  · cases h
  · cases h
  · cases h
  all_goals exact h

theorem PocketRec.running_of_serviceWritten {x : PocketRec} {b : Bool} (h : (x.serviceWritten b).purge = .running) :
    x.purge = .running := by
  unfold PocketRec.serviceWritten at h
  split at h
  · exact h
  · cases h
  · exact h

theorem PocketRec.not_running_purgeCutOff (x : PocketRec) : x.purgeCutOff.purge ≠ .running := by
  unfold PocketRec.purgeCutOff
  split
  · nofun
  · assumption

theorem PackRec.purged_state {r q : PackRec} (h : r.purged = some q) : r.state = .restarting ∨ r.state = .disposing := by
  unfold PackRec.purged at h
  split at h
  next hs => exact .inl hs
  next hs => exact .inr hs
  · cases h

namespace Plant

variable {P Q : Plant}

/-- An operation on a pack's own pocket is that of the work record in flight. -/
theorem StaplerSound.operates (h : P.StaplerSound) {k : WorkRec} (hk : P.stapler.work = some k) (ho : k.op = .inFlight)
    {p : PocketId} (hp : (P.pack k.handle).pocket = some p) : P.Operates p := by
  refine ⟨by rw [hk, Option.map_some, ho], ?_⟩
  rw [((h.work k hk).command (h.stapling.2 (by rw [hk, Option.map_some, ho]))).2, hp]

theorem Turn.staplerSound (h : P.Turn Q) (hq : P.StapleQueueSound) (hl : P.Linked Housed) (hr : P.ReturnAgrees)
    (hs : P.PacksSound) (ha : P.Apart) (hw : P.StaplerSound) : Q.StaplerSound := by
  have hvol {k : Handle} {p : PocketId} {x : PocketRec} (hx : (P.pocket p).pack = some k ∨ (P.pocket p).pack = none) (i : Handle)
      (q : PocketId) (hi : i ≠ k) (hiq : (P.pack i).pocket = some q) : ((P.setPocket p x).pocket q).volume = (P.pocket q).volume := by
    have hqp : q ≠ p := fun e => by
      have hn := (hl.names q i).2 hiq
      rw [e] at hn
      rcases hx with hx | hx <;> rw [hn] at hx
      · exact hi (Option.some.inj hx)
      · cases hx
    rw [setPocket_pocket_ne x hqp]
  have hnames {k : Handle} {p : PocketId} : (P.pack k).pocket = some p → (P.pocket p).pack = some k := (hl.names p k).2
  have hasked (k : Handle) (q : PocketId) :
      (fun o => ((P.onPocket o PocketRec.purgeAsked).pocket q).volume = (P.pocket q).volume) (P.pack k).pocket := by
    cases (P.pack k).pocket with
    | none => rfl
    | some p =>
      by_cases hqp : q = p
      · rw [hqp]
        exact (congrArg PocketRec.volume (setPocket_pocket_self _ _)).trans (PocketRec.volume_purgeAsked _)
      · exact congrArg PocketRec.volume (setPocket_pocket_ne _ hqp)
  have hnotQueued {k : Handle} (h1 : (P.pack k).state ≠ .complete) (h2 : (P.pack k).state ≠ .stapling) :
      P.stapler.without k = P.stapler := Stapler.without_of_not_mem fun hm => (hq.2 k hm).elim h1 h2
  have hends {d : DeliveryRec} (hd : P.delivery = some d) : (P.pack d.handle).state = .delivering := (hr.delivery d hd).1
  cases h with
  | announced k r hfree hx hp =>
    exact hw.elsewhere (j := k) rfl rfl rfl (fun i hi => setPack_pack_ne r hi) (by simp [hfree]) fun _ _ _ _ => rfl
  | flagged k f =>
    refine hw.same rfl rfl rfl (fun i => ?_) fun _ _ _ => rfl
    by_cases hi : i = k
    · rw [hi, setPack_pack_self]
      exact ⟨rfl, rfl, rfl, rfl⟩
    · rw [setPack_pack_ne _ hi]
      exact ⟨rfl, rfl, rfl, rfl⟩
  | released k ho hp =>
    exact hw.elsewhere (j := k) rfl rfl rfl (fun i hi => setPack_pack_ne _ hi) (by simp [ho]) fun _ _ _ _ => rfl
  | opened k p f ha' hp he =>
    exact hw.elsewhere (j := k) rfl rfl rfl (fun i hi => setPack_pack_ne _ hi) (by simp [ha'])
      (hvol (.inr (hl.pack_none (fun _ _ => id) fun st => by rw [he]; cases st <;> simp [PackState.housedBy])))
  | admitted k p st q ho hp hx hst hq' =>
    have hhead {i : Handle} (hi : P.stapler.queue.head? = some i) : q.head? = some i := by
      rw [hq']
      split
      · rw [List.head?_append, hi]
        rfl
      · exact hi
    refine ⟨hw.stapling, hw.command, fun e => ?_, fun j hj => ?_, hw.remaining⟩
    · obtain ⟨h1, h2⟩ := hw.waiting e
      obtain ⟨j, hj, -⟩ := Option.map_eq_some_iff.1 h1
      refine ⟨h1, ?_⟩
      have hj' : P.stapler.work.map WorkRec.handle = some j.handle := by rw [hj]; rfl
      exact hj'.trans (hhead (h2.symm.trans hj')).symm
    · have hfit := hw.work j hj
      have hne : j.handle ≠ k := fun e => by
        have := hfit.state_mem
        rw [e, ho] at this
        simp at this
      have he : (((P.setPocket p ((P.pocket p).admitted (P.pack k))).setPack k
          { P.pack k with received := (P.pack k).received + 1, state := st }).setStapler
          { P.stapler with queue := q }).pack j.handle = P.pack j.handle := setPack_pack_ne _ hne
      exact hfit.congr rfl rfl hhead rfl (by rw [he]) (by rw [he]) (by rw [he]) (by rw [he])
        fun q' hq' => hvol (.inl (hnames hp)) j.handle q' hne hq'
  | stapling k n c start allowance hk hn =>
    have hmem := hq.2 k.handle (List.mem_of_mem_head? hk.head)
    obtain ⟨hone, hvolumes, hfirst⟩ := hw.inHand hq hs hk
    obtain ⟨p, hp, hx⟩ : ∃ p, (P.pack k.handle).pocket = some p ∧ (P.pocket p).pack = some k.handle :=
      hl.pocket_some (by rcases hmem with h | h <;> (rw [h]; nofun))
    have hst : (if k.volume = 1 ∧ (P.pack k.handle).state = .complete then PackState.stapling
        else (P.pack k.handle).state) = .stapling := by
      rcases hmem with hm | hm
      · rw [if_pos ⟨hfirst hm, hm⟩]
      · rw [hm, ite_self]
    rw [hp, hst]
    refine ⟨iff_of_true rfl rfl, iff_of_true rfl nofun, nofun, fun j hj => ?_, Nat.le_trans hn hw.remaining⟩
    cases hj
    have hself : ((((P.setPack k.handle { P.pack k.handle with state := .stapling }).onPocket (some p) fun x =>
        x.presenting k.volume).setStapler
          { state := .stapling, queue := P.stapler.queue, remaining := n
            work := some { k with op := .inFlight, start := start, allowance := allowance }
            command := (some p).map fun p => (p, c) }).pack k.handle)
        = { P.pack k.handle with state := .stapling } := setPack_pack_self k.handle _
    refine ⟨hone, nofun, fun _ => ?_, fun _ _ q hq => ?_, .inl ⟨hk.head, ?_, ?_, .inl ?_⟩⟩
    · rw [hself]
      refine ⟨?_, hp.symm⟩
      dsimp only
      rw [hp]
      nofun
    · rw [hself] at hq
      rw [show q = p from Option.some.inj (hq.symm.trans hp)]
      exact congrArg PocketRec.volume (setPocket_pocket_self _ _)
    · rw [hself]
      exact hk.gen.symm
    · rw [hself]
      exact hvolumes
    · rw [hself]
  | waiting k hk =>
    have hmem := hq.2 k.handle (List.mem_of_mem_head? hk.head)
    obtain ⟨hone, hvolumes, hfirst⟩ := hw.inHand hq hs hk
    refine ⟨iff_of_false nofun nofun, iff_of_false nofun fun e => e rfl, fun _ => ⟨rfl, hk.head.symm⟩, fun j hj => ?_,
      hw.remaining⟩
    cases hj
    refine ⟨hone, nofun, nofun, fun e => absurd rfl e, .inl ⟨hk.head, hk.gen.symm, hvolumes, ?_⟩⟩
    exact hmem.elim (fun h => .inr ⟨h, rfl, hfirst h⟩) .inl
  | finished k f hf =>
    cases (P.pack k).pocket with
    | none => exact .atRest rfl rfl ⟨nofun, nofun⟩ hw.remaining
    | some p => exact .atRest rfl rfl ⟨nofun, nofun⟩ hw.remaining
  | nextVolume k hk hst hv =>
    have hfit := hw.work k hk.2.1
    obtain ⟨h1, h2, -, -⟩ := hfit.ownHead (.inr hst.1)
    exact .nextInHand rfl rfl rfl ⟨nofun, nofun⟩ hw.remaining (congrArg (· + 1) hfit.stapled) h1 h2 hv hst.1
  | dropped => exact .atRest rfl rfl ⟨nofun, nofun⟩ hw.remaining
  | timedOut k o hk ho =>
    rcases ho with rfl | ⟨hst, rfl⟩
    · exact .atRest rfl rfl ⟨nofun, nofun⟩ hw.remaining
    · have hfit := hw.work k hk.2.1
      obtain ⟨h1, h2, h3, -⟩ := hfit.ownHead (.inr hst.1)
      exact .nextInHand rfl rfl rfl ⟨nofun, nofun⟩ hw.remaining hfit.stapled h1 h2 h3 hst.1
  | unfaulted hf =>
    have hop : P.stapler.work.map WorkRec.op ≠ some .inFlight := fun e => by
      have := hw.stapling.2 e
      rw [hf] at this
      cases this
    refine ⟨iff_of_false nofun hop, iff_of_false nofun fun e => e rfl, nofun, fun k hk => ?_, hw.remaining⟩
    have hfit := hw.work k hk
    refine ⟨hfit.stapled, fun e => ?_, nofun, hfit.presents, hfit.names⟩
    have := (hfit.cutOff e).1
    rw [hf] at this
    cases this
  | refilled =>
    by_cases hst : P.stapler.state = .waitingCartridge
    · rw [if_pos hst]
      have hnone := (hw.waiting hst).1
      refine ⟨iff_of_false nofun (fun e => absurd (hnone.symm.trans e) nofun), iff_of_false nofun fun e => ?_, nofun, fun k hk => ?_,
        Nat.le_refl _⟩
      · have := hw.command.2 e
        rw [hst] at this
        cases this
      · have hfit := hw.work k hk
        refine ⟨hfit.stapled, fun e => ?_, nofun, hfit.presents, hfit.names⟩
        have := (hfit.cutOff e).1
        rw [hst] at this
        cases this
    · rw [if_neg hst]
      exact ⟨hw.stapling, hw.command, hw.waiting, fun k hk =>
        (hw.work k hk).congr rfl rfl id rfl rfl rfl rfl rfl fun _ _ => rfl, Nat.le_refl _⟩
  | delivering k p d hk hp hi hd =>
    exact hw.elsewhere (j := k) rfl rfl rfl (fun i hi => setPack_pack_ne _ hi) (by simp [hk]) (hvol (.inl (hnames hp)))
  | delivered d hd hst =>
    exact hw.elsewhere (j := d.handle) rfl rfl rfl (fun i hi => setPack_pack_ne _ hi) (by simp [hst])
      (hvol (.inl (hnames (hr.delivery d hd).2.2)))
  | undelivered d hd hst => exact absurd ⟨hends hd, (hr.delivery d hd).2.1⟩ hst
  | lostRestarted d hd hx =>
    rw [hnotQueued (by rw [hends hd]; nofun) (by rw [hends hd]; nofun)]
    exact hw.elsewhere (j := d.handle) rfl rfl rfl (fun i hi => setPack_pack_ne _ hi) (by simp [hends hd])
      (hvol (.inl (hnames (hr.delivery d hd).2.2)))
  | lostFreed d hd hx =>
    rw [hnotQueued (by rw [hends hd]; nofun) (by rw [hends hd]; nofun)]
    exact hw.elsewhere (j := d.handle) rfl rfl rfl (fun i hi => setPack_pack_ne _ hi) (by simp [hends hd])
      (hvol (.inl (hnames (hr.delivery d hd).2.2)))
  | lostIgnored d hd hx =>
    refine absurd ⟨?_, ?_, (hr.delivery d hd).2.1⟩ hx <;> (rw [hends hd]; nofun)
  | restarted k hx hd =>
    refine hw.without (k := k) (r := (P.pack k).restarted) (onPocket_pack _ _) (by simp [setStapler])
      (by cases (P.pack k).pocket <;> rfl) (by cases (P.pack k).pocket <;> rfl) (fun q => ?_) rfl
      (fun e => .inl (if_pos (Option.isSome_iff_ne_none.2 e))) (hl.homeless k)
    refine Eq.trans ?_ (hasked k q)
    cases (P.pack k).pocket <;> rfl
  | disposed k hx hp =>
    refine hw.without (k := k) (r := { P.pack k with state := .disposing }) (onPocket_pack _ _)
      (by cases (P.pack k).pocket <;> rfl)
      (by cases (P.pack k).pocket <;> rfl) (by cases (P.pack k).pocket <;> rfl) (fun q => ?_) rfl
      (fun e => .inr rfl) (hl.homeless k)
    refine Eq.trans ?_ (hasked k q)
    cases (P.pack k).pocket <;> rfl
  | freed k hx hp =>
    have hhome : (P.pack k).state.housedBy = [] := hp.elim (fun h => by rw [h]; rfl) (hl.homeless k)
    have hstate : (P.pack k).state ∉ [PackState.complete, .stapling, .restarting, .disposing] := fun hm => by
      simp only [List.mem_cons, List.not_mem_nil, or_false] at hm
      rcases hm with hm | hm | hm | hm <;> rw [hm] at hhome <;> cases hhome
    rw [hnotQueued (fun e => hstate (by simp [e])) fun e => hstate (by simp [e])]
    exact hw.elsewhere (j := k) rfl rfl rfl (fun i hi => setPack_pack_ne _ hi) hstate fun _ _ _ _ => rfl
  | purged p x hx hy hn =>
    refine hw.same rfl rfl rfl (fun _ => ⟨rfl, rfl, rfl, rfl⟩) fun i q hiq => ?_
    have hqp : q ≠ p := fun e => PackRec.purged_ne_none (hx.1 ▸ hl.holds i p (e ▸ hiq)) (hn i (hnames (e ▸ hiq)))
    rw [setPocket_pocket_ne x hqp]
  | purgedPack p x k r hx hy hk hn =>
    have hkp := (hl.names p k).1 hk
    refine hw.keep rfl rfl fun j hj hfit => ?_
    have hne : j.handle ≠ k := fun e => by
      obtain ⟨h1, h2⟩ := ha p hx.2
      have hop : j.op ≠ .none := by
        rcases hfit.names with hn' | hn'
        · rcases PackRec.purged_state hn with h | h <;>
            · have := hn'.2.2.2
              rw [e, h] at this
              simp at this
        · exact hn'.1
      cases ho : j.op with
      | none => exact hop ho
      | inFlight => exact h2 (hw.operates hj ho (e ▸ hkp))
      | cutOff => exact absurd (h1.symm.trans (hfit.cutOff ho).2) nofun
    have he : ((P.setPocket p x).setPack k r).pack j.handle = P.pack j.handle := setPack_pack_ne _ hne
    exact hfit.congr rfl rfl id rfl (by rw [he]) (by rw [he]) (by rw [he]) (by rw [he])
      fun q hq => hvol (.inl hk) j.handle q hne hq
  | purging p start allowance hst hh ho =>
    refine hw.same rfl rfl rfl (fun _ => ⟨rfl, rfl, rfl, rfl⟩) fun i q hiq => ?_
    by_cases hqp : q = p
    · rw [hqp, setPocket_pocket_self]
    · rw [setPocket_pocket_ne _ hqp]
  | halted o ho =>
    by_cases hst : P.stapler.state = .stapling
    · obtain ⟨k, hk, hop⟩ := Option.map_eq_some_iff.1 (hw.stapling.1 hst)
      rw [Stapler.cutOff_of_busy hst hk hop]
      refine ⟨iff_of_false nofun nofun, iff_of_false nofun fun e => e rfl, nofun, fun j hj => ?_, hw.remaining⟩
      cases hj
      have hfit := hw.work k hk
      refine ⟨hfit.stapled, fun _ => ⟨rfl, rfl⟩, nofun, fun _ hx p hp => ?_, ?_⟩
      · exact (PocketRec.volume_purgeCutOff _).trans (hfit.presents (by rw [hop]; nofun) hx p hp)
      · refine hfit.names.imp (fun ⟨h1, h2, h3, h4⟩ => ⟨h1, h2, h3, .inl ?_⟩) fun h => ⟨nofun, h.2⟩
        rcases h4 with h4 | h4
        · exact h4
        · exact absurd (hop.symm.trans h4.2.1) nofun
    · rw [Stapler.cutOff_of_not_stapling hst]
      refine ⟨hw.stapling, hw.command, hw.waiting, fun k hk => ?_, hw.remaining⟩
      have hfit := hw.work k hk
      exact ⟨hfit.stapled, fun e => ⟨(hfit.cutOff e).1, rfl⟩, fun e => absurd e hst,
        fun ho hx p hp => (PocketRec.volume_purgeCutOff _).trans (hfit.presents ho hx p hp), hfit.names⟩
  | unhalted hk =>
    refine hw.keep rfl rfl fun k hk' hfit =>
      ⟨hfit.stapled, fun e => absurd (hfit.cutOff e).1 (hk k hk' e), hfit.command, hfit.presents, hfit.names⟩
  | redelivered o ho => exact hw.same rfl rfl rfl (fun _ => ⟨rfl, rfl, rfl, rfl⟩) fun _ _ _ => rfl
  | undeliverable hd => exact hw.same rfl rfl rfl (fun _ => ⟨rfl, rfl, rfl, rfl⟩) fun _ _ _ => rfl
  | serviceWritten p b =>
    refine hw.same rfl rfl rfl (fun _ => ⟨rfl, rfl, rfl, rfl⟩) fun i q hiq => ?_
    by_cases hqp : q = p
    · rw [hqp] at hiq ⊢
      rw [setPocket_pocket_self, PocketRec.serviceWritten_of_housed (hl.holds i p hiq) b]
    · rw [setPocket_pocket_ne _ hqp]
  | cartridge n =>
    exact ⟨hw.stapling, hw.command, hw.waiting, fun k hk =>
      (hw.work k hk).congr rfl rfl id rfl rfl rfl rfl rfl fun _ _ => rfl, Nat.min_le_right _ _⟩
  | reset workOnly n m hn =>
    refine .atRest rfl rfl ⟨nofun, nofun⟩ ?_
    rcases hn with hn | ⟨rfl, rfl⟩
    · exact hn
    · exact hw.remaining

/-! ### Purges apart from operations and from HALT -/

/-- No purge begins to run and no operation begins. -/
theorem Apart.of (h : P.Apart) (hp : ∀ p, (Q.pocket p).purge = .running → (P.pocket p).purge = .running)
    (hh : Q.halted = P.halted) (ho : ∀ p, Q.Operates p → P.Operates p) : Q.Apart := fun p hr => by
  obtain ⟨h1, h2⟩ := h p (hp p hr)
  exact ⟨hh.trans h1, fun e => h2 (ho p e)⟩

/-- The pocket that changes does not begin a purge. -/
theorem Apart.onPocket (h : P.Apart) {p : PocketId} {x : PocketRec} (hpocket : Q.pocket = (P.setPocket p x).pocket)
    (hx : x.purge = .running → (P.pocket p).purge = .running) (hh : Q.halted = P.halted)
    (ho : ∀ p, Q.Operates p → P.Operates p) : Q.Apart := by
  refine h.of (fun q hq => ?_) hh ho
  rw [hpocket] at hq
  by_cases hqp : q = p
  · rw [hqp, setPocket_pocket_self] at hq
    rw [hqp]
    exact hx hq
  · rwa [setPocket_pocket_ne x hqp] at hq

/-- The Stapler that a pack leaves has no operation that it had not. -/
theorem Operates.of_without {k : Handle} (hs : Q.stapler = P.stapler.without k) {p : PocketId} (h : Q.Operates p) :
    P.Operates p := by
  obtain ⟨h1, h2⟩ := h
  rw [hs] at h1 h2
  refine ⟨?_, h2⟩
  simp only [Stapler.without] at h1
  split at h1
  · cases h1
  · exact h1

theorem Turn.apart (h : P.Turn Q) (hq : P.StapleQueueSound) (hl : P.Linked Housed) (hx : P.PocketsSound) (hf : P.Fits)
    (ha : P.Apart) : Q.Apart := by
  have hstaple {k : Handle} (h : (P.pack k).state = .complete ∨ (P.pack k).state = .stapling) :
      ∃ p, (P.pack k).pocket = some p ∧ (P.pocket p).pack = some k :=
    hl.pocket_some (by rcases h with h | h <;> (rw [h]; nofun))
  cases h with
  | announced k r hfree hx hp => exact ha.of (fun _ => id) rfl fun _ => id
  | flagged k f => exact ha.of (fun _ => id) rfl fun _ => id
  | released k ho hp => exact ha.of (fun _ => id) rfl fun _ => id
  | opened k p f ha' hp he => exact ha.onPocket (p := p) rfl id rfl fun _ => id
  | admitted k p st q ho hp hx hst hq =>
    exact ha.onPocket (p := p) rfl (fun e => (PocketRec.purge_admitted _ _) ▸ e) rfl fun _ => id
  | stapling k n c start allowance hk hn =>
    have hmem := hq.2 k.handle (List.mem_of_mem_head? hk.head)
    obtain ⟨p, hp, hpk⟩ := hstaple hmem
    have hnone := (hx p).purge_none (hf.heldOrStapling hp hmem)
    rw [hp]
    intro q hr
    by_cases hqp : q = p
    · rw [hqp] at hr
      have hrun : ((P.pocket p).presenting k.volume).purge = .running :=
        (congrArg PocketRec.purge (setPocket_pocket_self p _)).symm.trans hr
      exact absurd (hnone.symm.trans hrun) nofun
    · have hr' : (P.pocket q).purge = .running :=
        (congrArg PocketRec.purge (setPocket_pocket_ne _ hqp)).symm.trans hr
      exact ⟨(ha q hr').1, fun e => hqp (Option.some.inj e.2).symm⟩
  | waiting k hk => exact ha.of (fun _ => id) rfl fun p e => absurd e.1 nofun
  | finished k f hk =>
    cases hp : (P.pack k).pocket with
    | none => exact ha.of (fun _ => id) rfl fun p e => absurd e.1 nofun
    | some p => exact ha.onPocket (p := p) rfl id rfl fun p e => absurd e.1 nofun
  | nextVolume k hk hst hv => exact ha.of (fun _ => id) rfl fun p e => absurd e.1 nofun
  | dropped => exact ha.of (fun _ => id) rfl fun p e => absurd e.1 nofun
  | timedOut k o hk ho =>
    refine ha.of (fun _ => id) rfl fun p e => absurd e.1 ?_
    rcases ho with rfl | ⟨-, rfl⟩ <;> nofun
  | unfaulted hf' => exact ha.of (fun _ => id) rfl fun p e => absurd e.2 nofun
  | refilled => exact ha.of (fun _ => id) rfl fun _ => id
  | delivering k p d hk hp hi hd => exact ha.onPocket (p := p) rfl id rfl fun _ => id
  | delivered d hd hst => exact ha.onPocket (p := d.pocket) rfl nofun rfl fun _ => id
  | undelivered d hd hst => exact ha.onPocket (p := d.pocket) rfl nofun rfl fun _ => id
  | lostRestarted d hd hx => exact ha.onPocket (p := d.pocket) rfl nofun rfl fun _ => Operates.of_without rfl
  | lostFreed d hd hx => exact ha.onPocket (p := d.pocket) rfl nofun rfl fun _ => Operates.of_without rfl
  | lostIgnored d hd hx => exact ha.onPocket (p := d.pocket) rfl nofun rfl fun _ => id
  | restarted k hx hd =>
    cases hp : (P.pack k).pocket with
    | none => exact ha.of (fun _ => id) rfl fun _ => Operates.of_without rfl
    | some p => exact ha.onPocket (p := p) rfl PocketRec.running_of_purgeAsked rfl fun _ => Operates.of_without rfl
  | disposed k hx hp =>
    cases hp : (P.pack k).pocket with
    | none => exact ha.of (fun _ => id) rfl fun _ => Operates.of_without rfl
    | some p => exact ha.onPocket (p := p) rfl PocketRec.running_of_purgeAsked rfl fun _ => Operates.of_without rfl
  | freed k hx hp => exact ha.of (fun _ => id) rfl fun _ => Operates.of_without rfl
  | purged p x hx hy hn => exact ha.onPocket (p := p) rfl (by rcases hy with rfl | rfl <;> nofun) rfl fun _ => id
  | purgedPack p x k r hx hy hk hn =>
    exact ha.onPocket (p := p) (x := x) rfl (by rcases hy with rfl | rfl <;> nofun) rfl fun _ => id
  | purging p start allowance hst hh ho =>
    intro q hr
    by_cases hqp : q = p
    · rw [hqp]
      exact ⟨hh, ho⟩
    · exact ha q ((congrArg PocketRec.purge (setPocket_pocket_ne _ hqp)).symm.trans hr)
  | halted o ho =>
    intro p hr
    exact absurd hr (PocketRec.not_running_purgeCutOff _)
  | unhalted hk => exact fun p hr => ⟨rfl, (ha p hr).2⟩
  | redelivered o ho => exact ha.of (fun _ => id) rfl fun _ => id
  | undeliverable hd => exact ha.of (fun _ => id) rfl fun _ => id
  | serviceWritten p b => exact ha.onPocket (p := p) rfl PocketRec.running_of_serviceWritten rfl fun _ => id
  | cartridge n => exact ha.of (fun _ => id) rfl fun _ => id
  | reset workOnly n m hn => exact fun p _ => ⟨rfl, fun e => absurd e.1 nofun⟩

/-! ### All of it -/

/-- What ties packs, pockets, the Stapler and the Return Unit to one another. -/
structure Sound (P : Plant) : Prop where
  packs : P.PacksSound
  queue : P.StapleQueueSound
  linked : P.Linked Housed
  returns : P.ReturnAgrees
  stapler : P.StaplerSound
  pockets : P.PocketsSound
  fits : P.Fits
  apart : P.Apart

theorem Turn.sound (h : P.Turn Q) (hs : P.Sound) : Q.Sound := by
  obtain ⟨hp, hq, hl, hr, hw, hx, hf, ha⟩ := hs
  have hin {k : WorkRec} (hk : P.InHand k) := hw.inHand hq hp hk
  exact ⟨h.packsSound hq hp, h.stapleQueueSound hq, h.linked hq hl hr, h.returnAgrees hq hl hr,
    h.staplerSound hq hl hr hp ha hw, h.pocketsSound hq hl hf (fun k hk => (hin hk).1 ▸ Nat.succ_pos _) hx,
    h.fits hq hl hr hp (fun k hk => (hin hk).2) hf, h.apart hq hl hx hf ha⟩

end Plant

end Sys2Proof.Machine
end

section
/-! SUPPORT. The release phase of the settling: what the decisions, the waits and the block timer change (`Work.Released`),
and what they leave to be read by the Return Unit. -/

namespace Sys2Proof.Machine

/-! ### What the Return Unit reads -/

/-- `s` and `t` hold the same READY packs, class queues, classes and bins, but for the flashes and what the lamps show. -/
structure State.SameReady (s t : State) : Prop where
  queues : ∀ c, t.classQueue c = s.classQueue c
  classes : t.tables.classes = s.tables.classes
  bins : ∀ b : BinId, t.ret.bins[b].read = s.ret.bins[b].read
  state : ∀ k, (t.pack k).state = .ready ↔ (s.pack k).state = .ready
  pack : ∀ k, (t.pack k).state = .ready → t.pack k = s.pack k

theorem State.Reads.sameReady {s t : State} (h : s.Reads t) : s.SameReady t :=
  ⟨h.classQueue, h.classes, h.bins, fun k => by rw [h.pack], fun k _ => h.pack k⟩

namespace State.SameReady

variable {s t u : State}

theorem trans (h : s.SameReady t) (k : t.SameReady u) : s.SameReady u :=
  ⟨fun c => (k.queues c).trans (h.queues c), k.classes.trans h.classes, fun b => (k.bins b).trans (h.bins b),
    fun x => (k.state x).trans (h.state x), fun x hx => (k.pack x hx).trans (h.pack x ((k.state x).1 hx))⟩

section
variable (h : s.SameReady t)
include h

/-- A pack is in turn, eligible or waits for room where it was before (R23, R114). -/
theorem inTurn (k : Handle) : t.inTurn k = s.inTurn k := by
  by_cases hk : (t.pack k).state = .ready
  · have hpolicy : t.policyOf k = s.policyOf k := by simp only [State.policyOf, h.pack k hk, h.classes]
    rw [State.inTurn, State.inTurn, State.isClassHead, State.isClassHead, hpolicy, h.pack k hk, h.queues]
  · have hk' := hk
    rw [h.state k] at hk'
    rw [State.inTurn, State.inTurn, decide_eq_false hk, decide_eq_false hk', Bool.false_and, Bool.false_and]

theorem bin (b : BinId) : t.ret.bins[b].capacity = s.ret.bins[b].capacity
    ∧ t.ret.bins[b].fill = s.ret.bins[b].fill ∧ t.ret.bins[b].inService = s.ret.bins[b].inService := by
  have hb := h.bins b
  simp only [BinRec.read, BinRec.mk.injEq] at hb
  obtain ⟨h1, h2, h3, h4, -⟩ := hb
  exact ⟨by assumption, by assumption, by assumption⟩

theorem servingBin (k : Handle) (hk : (t.pack k).state = .ready) : t.servingBin k = s.servingBin k := by
  simp only [State.servingBin, State.binOf, h.pack k hk, h.classes, (h.bin _).2.2]

theorem hasRoom (k : Handle) (hk : (t.pack k).state = .ready) (b : BinId) : t.hasRoom k b = s.hasRoom k b := by
  simp only [State.hasRoom, h.pack k hk, (h.bin b).1, (h.bin b).2.1]

theorem eligible (k : Handle) : t.eligible k = s.eligible k := by
  by_cases hk : (t.pack k).state = .ready
  · simp only [State.eligible, h.inTurn, h.servingBin k hk, h.hasRoom k hk]
  · have hk' := hk
    rw [h.state k] at hk'
    simp only [State.eligible, State.inTurn, hk, hk', decide_false, Bool.false_and]

theorem waitingForRoom (k : Handle) : t.waitingForRoom k = s.waitingForRoom k := by
  by_cases hk : (t.pack k).state = .ready
  · simp only [State.waitingForRoom, State.waitingIn, h.inTurn, h.servingBin k hk, h.hasRoom k hk]
  · have hk' := hk
    rw [h.state k] at hk'
    simp only [State.waitingForRoom, State.waitingIn, State.inTurn, hk, hk', decide_false, Bool.false_and]
    cases t.servingBin k <;> cases s.servingBin k <;> rfl

end

end State.SameReady

/-! ### Release decisions -/

/-- `v` follows from `w` by release decisions: packs go OPEN or are OPEN with a page more released, EMPTY pockets are
taken, entries join the in-flight list; the Stapler, the Return Unit, the tables and the run state stand. -/
structure Work.Released (w v : Work) : Prop where
  queues : v.reg.queues = w.reg.queues
  banks : v.tables.banks = w.tables.banks
  stapler : v.stapler = w.stapler
  ret : v.ret = w.ret
  run : v.run = w.run
  now : v.now = w.now
  binFull : v.latched .binFull = w.latched .binFull
  packs : ∀ k, v.pack k = w.pack k
    ∨ ((w.pack k).state = .announced ∨ (w.pack k).state = .opened) ∧ (v.pack k).state = .opened
  pockets : ∀ p : PocketId, v.pockets[p] = w.pockets[p] ∨ w.pockets[p].state = .empty ∧ v.pockets[p].state = .collating
  inFlight : w.arb.inFlight <+: v.arb.inFlight

namespace Work.Released

variable {a w v : Work}

theorem refl (w : Work) : w.Released w :=
  ⟨rfl, rfl, rfl, rfl, rfl, rfl, rfl, fun _ => .inl rfl, fun _ => .inl rfl, List.prefix_refl _⟩

theorem trans (h : a.Released w) (k : w.Released v) : a.Released v := by
  refine ⟨k.queues.trans h.queues, k.banks.trans h.banks, k.stapler.trans h.stapler, k.ret.trans h.ret,
    k.run.trans h.run, k.now.trans h.now, k.binFull.trans h.binFull, fun x => ?_, fun p => ?_, h.inFlight.trans k.inFlight⟩
  · rcases h.packs x with h1 | ⟨h1, h2⟩ <;> rcases k.packs x with k1 | ⟨k1, k2⟩
    · exact .inl (k1.trans h1)
    · exact .inr ⟨h1 ▸ k1, k2⟩
    · exact .inr ⟨h1, by rw [k1]; exact h2⟩
    · exact .inr ⟨h1, k2⟩
  · rcases h.pockets p with h1 | ⟨h1, h2⟩ <;> rcases k.pockets p with k1 | ⟨k1, k2⟩
    · exact .inl (k1.trans h1)
    · exact .inr ⟨h1 ▸ k1, k2⟩
    · exact .inr ⟨h1, by rw [k1]; exact h2⟩
    · exact .inr ⟨h1, k2⟩

/-- A change that leaves all this alone. -/
theorem same (h : a.Released w) (hreg : v.reg = w.reg) (hbanks : v.tables.banks = w.tables.banks)
    (hstapler : v.stapler = w.stapler) (hret : v.ret = w.ret) (hrun : v.run = w.run) (hnow : v.now = w.now)
    (hfull : v.latched .binFull = w.latched .binFull) (hpockets : v.pockets = w.pockets)
    (hin : w.arb.inFlight <+: v.arb.inFlight) : a.Released v :=
  h.trans ⟨by rw [hreg], hbanks, hstapler, hret, hrun, hnow, hfull, fun k => .inl (by rw [State.pack, State.pack, hreg]),
    fun p => .inl (by rw [hpockets]), hin⟩

theorem latch (h : a.Released w) {c : Cause} (hc : c ≠ .binFull) : a.Released (w.latch c) :=
  h.same rfl rfl rfl rfl rfl rfl (by
    rw [Work.latched_latch, decide_eq_false fun e => hc (causeIndex_injective e), Bool.false_or]) rfl (List.prefix_refl _)

theorem notify (h : a.Released w) (r : OutRecord) : a.Released (w.notify r) :=
  h.same rfl rfl rfl rfl rfl rfl rfl rfl (List.prefix_refl _)

theorem pulse (h : a.Released w) (f : FeedId) : a.Released (w.pulse f) :=
  h.same rfl rfl rfl rfl rfl rfl rfl rfl (List.prefix_refl _)

theorem restartTimer (h : a.Released w) : a.Released w.restartTimer :=
  h.same rfl rfl rfl rfl rfl rfl rfl rfl (List.prefix_refl _)

theorem setArb (h : a.Released w) (r : MergeArbiter) (hr : w.arb.inFlight <+: r.inFlight) : a.Released (w.setArb r) :=
  h.same rfl rfl rfl rfl rfl rfl rfl rfl hr

theorem setFeed (h : a.Released w) (f : FeedId) (r : FeedRec) : a.Released (w.setFeed f r) :=
  h.same (by simp) (TableStore.banks_of_unmarked (by simp)) (by simp) (by simp) (by simp) (by simp)
    (by simp [State.latched]) (by simp) (by simp)

theorem setPack (h : a.Released w) (k : Handle) (r : PackRec)
    (hr : ((w.pack k).state = .announced ∨ (w.pack k).state = .opened) ∧ r.state = .opened) : a.Released (w.setPack k r) := by
  refine h.trans ⟨by simp, TableStore.banks_of_unmarked (by simp), by simp, by simp, by simp, by simp,
    by simp [State.latched], fun j => ?_, fun p => .inl (by simp), by simp⟩
  rw [Work.pack_setPack]
  split
  next e => rw [e]; exact .inr hr
  · exact .inl rfl

theorem setPocket (h : a.Released w) (p : PocketId) (r : PocketRec) (hr : w.pockets[p].state = .empty ∧ r.state = .collating) :
    a.Released (w.setPocket p r) := by
  refine h.trans ⟨by simp, TableStore.banks_of_unmarked (by simp), by simp, by simp, by simp, by simp,
    by simp [State.latched], fun j => .inl (Work.pack_setPocket ..), fun q => ?_, by simp⟩
  by_cases hq : q = p
  · subst hq
    refine .inr ⟨hr.1, ?_⟩
    simpa using hr.2
  · refine .inl ?_
    rw [Work.setPocket_pockets]
    exact Vector.getElem_set_ne _ _ fun e => hq (Fin.ext e.symm)

theorem releaseBare (h : a.Released w) (f : FeedId) (t : EntryTag) (d : Disposition) : a.Released (w.releaseBare f t d) :=
  (h.setFeed f _).setArb _ (List.prefix_append ..)

theorem releaseHead (h : a.Released w) (f : FeedId) (e : StagingEntry) (d : Disposition) : a.Released (w.releaseHead f e d) :=
  (h.setFeed f _).setArb _ (List.prefix_append ..)

theorem openPack (h : a.Released w) (k : Handle) (p : PocketId) (hk : (w.pack k).state = .announced)
    (hp : w.pockets[p].state = .empty) : a.Released (w.openPack k p) := by
  unfold Work.openPack
  dsimp only
  have h1 := (h.setPocket p { w.pockets[p] with
      state := .collating, pack := some k, sheets := 0, thickness := 0, volume := 1, offset := false } ⟨hp, rfl⟩).setPack k
    { w.pack k with
      state := .opened, pocket := some p, released := 1,
      flags := { (w.pack k).flags with
        outOfTurn := (w.pack k).flags.outOfTurn || decide (w.arb.pick.map Prod.snd = some k) } }
    ⟨.inl (by rw [Work.pack_setPocket]; exact hk), rfl⟩
  split
  · refine ((h1.setArb _ ?_).notify _).latch ?_
    · exact List.prefix_refl _
    · nofun
  · exact h1

theorem pageReleased (h : a.Released w) (k : Handle) (hk : (w.pack k).state = .opened) : a.Released (w.pageReleased k) :=
  h.setPack k _ ⟨.inr hk, hk⟩

theorem release (h : a.Released w) (f : FeedId) : a.Released (w.release f) := by
  have h1 := (h.pulse f).restartTimer
  unfold Work.release
  dsimp only
  split
  · exact h
  · exact h1.releaseBare _ _ _
  · refine (h1.releaseBare _ _ _).latch ?_
    nofun
  · exact h
  · exact h1.releaseHead _ _ _
  next hv hd hq =>
    refine (h1.releaseHead _ _ _).openPack _ _ ?_ ?_
    · simpa using (State.judgeEntry_open (State.verdict_collate hv hq)).1
    · rw [Work.pockets_releaseHead]
      exact State.offer_empty (State.judgeEntry_offer (State.verdict_collate hv hq))
  next hv hd hq =>
    exact (h1.releaseHead _ _ _).pageReleased _ (by simpa using (State.judgeEntry_next (State.verdict_collate hv hq)).1)

theorem boundALast (h : a.Released w) : a.Released w.boundALast := h.setArb _ (List.prefix_refl _)

theorem dropPick (h : a.Released w) : a.Released w.dropPick := by
  unfold Work.dropPick
  split
  · exact h
  · split
    · exact h
    · exact h.setArb _ (List.prefix_refl _)

theorem decideUpTo (h : a.Released w) (n : Nat) : a.Released (Work.decideUpTo n w) := by
  induction n generalizing w with
  | zero => exact h
  | succ n ih =>
    unfold Work.decideUpTo
    dsimp only
    split
    · exact h.boundALast.dropPick
    · exact ih (h.boundALast.dropPick.release _)

theorem decideReleases (h : a.Released w) : a.Released w.decideReleases := by
  unfold Work.decideReleases
  split
  · exact h.decideUpTo 5
  · exact h

theorem timeWaits (h : a.Released w) : a.Released w.timeWaits := by
  unfold Work.timeWaits
  generalize allFeeds = l
  induction l generalizing w with
  | nil => exact h
  | cons f l ih =>
    refine ih ?_
    unfold Work.timeWait
    dsimp only
    split <;> split
    · exact h
    · exact h.setFeed _ _
    · exact h
    · exact h.setFeed _ _

theorem timeBlock (h : a.Released w) : a.Released w.timeBlock := h.setArb _ (List.prefix_refl _)

theorem ready (h : w.Released v) : w.toState.SameReady v.toState where
  queues c := by rw [State.classQueue, State.classQueue, h.queues]
  classes := (TableStore.settings_of_banks h.banks).2.2.2.2
  bins b := by rw [h.ret]
  state k := by
    rcases h.packs k with e | ⟨e1 | e1, e2⟩
    · rw [e]
    · rw [e1, e2]
      exact iff_of_false nofun nofun
    · rw [e1, e2]
  pack k hk := by
    rcases h.packs k with e | ⟨-, e⟩
    · exact e
    · rw [e] at hk
      cases hk

end Work.Released

end Sys2Proof.Machine
end

section
/-! SUPPORT. What stands still after a settling: pending purges, the Stapler, the Return Unit, STOPPING and STARTING. -/

namespace Sys2Proof.Machine

/-! ### Purges -/

namespace Plant

/-- A pending purge of the pocket waits only for the end of HALT or of an operation on it (R87). -/
def PromptAt (P : Plant) (p : PocketId) : Prop :=
  (P.pocket p).state = .purging → (P.pocket p).purge = .pending → P.halted = true ∨ P.Operates p

/-- No pending purge waits. -/
def NonePending (P : Plant) : Prop := ∀ p, (P.pocket p).state = .purging → (P.pocket p).purge ≠ .pending

variable {P Q : Plant}

/-- A pocket that leaves PURGING or stands, with the run state and the Stapler as they are. -/
theorem PromptAt.of {p : PocketId} (h : P.PromptAt p)
    (hp : (Q.pocket p).state = .purging → Q.pocket p = P.pocket p) (hh : Q.halted = P.halted)
    (hs : Q.stapler = P.stapler) : Q.PromptAt p := fun h1 h2 => by
  have he := hp h1
  rw [he] at h1 h2
  rw [hh, Operates, hs]
  exact h h1 h2

theorem NonePending.of (h : P.NonePending) (hp : ∀ p, (Q.pocket p).state = .purging → Q.pocket p = P.pocket p) :
    Q.NonePending := fun p h1 => by
  have he := hp p h1
  rw [he] at h1 ⊢
  exact h p h1

/-- One pocket goes to a state other than PURGING. -/
theorem setPocket_of_purging {p q : PocketId} {x : PocketRec} (hx : x.state ≠ .purging)
    (hq : ((P.setPocket p x).pocket q).state = .purging) : (P.setPocket p x).pocket q = P.pocket q := by
  by_cases hqp : q = p
  · rw [hqp, setPocket_pocket_self] at hq
    exact absurd hq hx
  · exact setPocket_pocket_ne x hqp

end Plant

theorem State.operationOn_iff {s : State} {p : PocketId} : s.operationOn p = true ↔ s.plant.Operates p := by
  simp [State.operationOn, Plant.Operates]

theorem State.purgesPrompt_iff (s : State) : s.purgesPrompt ↔ ∀ p, s.plant.PromptAt p :=
  forall_congr' fun _ => imp_congr_right fun _ => imp_congr_right fun _ => or_congr_right State.operationOn_iff

section
variable {w : Work}

/-- A start of purges at one pocket leaves none pending there that might start, nor at any other. -/
theorem Work.startPurge_prompt (w : Work) (p : PocketId) : (w.startPurge p).plant.PromptAt p
    ∧ ∀ q, w.plant.PromptAt q → (w.startPurge p).plant.PromptAt q := by
  unfold Work.startPurge
  dsimp only
  split
  · rw [Work.setPocket_plant]
    refine ⟨fun _ h => ?_, fun q hq => ?_⟩
    · rw [Plant.setPocket_pocket_self] at h
      cases h
    · by_cases hqp : q = p
      · rw [hqp]
        intro _ h
        rw [Plant.setPocket_pocket_self] at h
        cases h
      · exact hq.of (fun _ => Plant.setPocket_pocket_ne _ hqp) rfl rfl
  next hc =>
    refine ⟨fun h1 h2 => ?_, fun q => id⟩
    by_contra hn
    rw [not_or, Bool.not_eq_true, ← State.operationOn_iff, Bool.not_eq_true] at hn
    refine hc ?_
    rw [Bool.and_eq_true, Bool.and_eq_true, Bool.and_eq_true]
    exact ⟨⟨⟨decide_eq_true h1, decide_eq_true h2⟩, by rw [show w.halted = false from hn.1]; rfl⟩, by rw [hn.2]; rfl⟩

theorem Work.startPurges_prompt (w : Work) : ∀ p, w.startPurges.plant.PromptAt p := by
  have heach (l : List PocketId) (x : Work) : (∀ p ∈ l, (x.each Work.startPurge l).plant.PromptAt p)
      ∧ ∀ q, x.plant.PromptAt q → (x.each Work.startPurge l).plant.PromptAt q := by
    induction l generalizing x with
    | nil => exact ⟨nofun, fun _ => id⟩
    | cons p l ih =>
      obtain ⟨h1, h2⟩ := x.startPurge_prompt p
      obtain ⟨i1, i2⟩ := ih (x.startPurge p)
      refine ⟨fun q hq => ?_, fun q hq => i2 q (h2 q hq)⟩
      rcases List.mem_cons.1 hq with rfl | hq
      · exact i2 q h1
      · exact i1 q hq
  exact fun p => (heach allPockets w).1 p (mem_allPockets p)

/-! ### The end of start-up -/

theorem Work.run_each {α : Type} (w : Work) (f : Work → α → Work) (l : List α) (h : ∀ x a, (f x a).run = x.run) :
    (w.each f l).run = w.run := by
  induction l generalizing w with
  | nil => rfl
  | cons a l ih => exact (ih (f w a)).trans (h w a)

theorem Work.run_cutOffVolume (w : Work) : w.cutOffVolume.run = w.run := by
  unfold Work.cutOffVolume
  split <;> rfl

theorem Work.run_cutOffDelivery (w : Work) : w.cutOffDelivery.run = w.run := by
  unfold Work.cutOffDelivery
  split <;> rfl

theorem Work.run_cutOffPurge (w : Work) (p : PocketId) : (w.cutOffPurge p).run = w.run := by
  unfold Work.cutOffPurge
  dsimp only
  split
  · exact w.setPocket_run _ _
  · rfl

theorem Work.runState_halt (w : Work) (c : HaltCause) (t : ResumeTarget) : (w.halt c t).run.state = .halt c t := by
  unfold Work.halt
  rw [Work.run_each _ _ _ Work.run_cutOffPurge, Work.run_cutOffDelivery, Work.run_cutOffVolume, Work.setRunState_run]

theorem Work.halt_halted (w : Work) (c : HaltCause) (t : ResumeTarget) : (w.halt c t).halted = true := by
  rw [State.halted_eq, Work.runState_halt]
  rfl

theorem Work.runState_enterTarget (w : Work) (t : ResumeTarget) : (w.enterTarget t).run.state = t.state := by
  unfold Work.enterTarget
  split
  · unfold Work.enterBypass
    rw [Work.run_each _ Work.flushFeed _ fun x f => x.setFeed_run f _, Work.setRunState_run]
    rfl
  · rw [Work.setRunState_run]

/-- A start-up that ends is followed by HALT or the target state, neither of them STARTING (R190). -/
theorem Work.runState_leaveStarting (w : Work) (kind : ResetKind) (b : Bool) : (w.leaveStarting kind b).run.state
    = if b || !w.pins.stopHigh then .halt .stop (startTarget kind w.run.straps.start)
      else (startTarget kind w.run.straps.start).state := by
  unfold Work.leaveStarting
  dsimp only
  have hreport (x : Work) (r : Report) : (x.setReport r).run = x.run := rfl
  rw [hreport]
  split
  · exact w.runState_halt _ _
  · exact w.runState_enterTarget _

theorem startTarget_state (kind : ResetKind) (start : StartState) :
    (startTarget kind start).state.halts = false ∧ (startTarget kind start).state.starts = false := by
  cases kind <;> cases start <;> exact ⟨rfl, rfl⟩

theorem Work.endStartUp_prompt (h : ∀ p, w.plant.PromptAt p) (p : PocketId) : w.endStartUp.plant.PromptAt p := by
  unfold Work.endStartUp
  split
  next hr =>
    split
    · exact h p
    · unfold Work.leaveStarting
      dsimp only
      rw [Work.setReport_plant]
      split
      · intro _ _
        left
        rw [State.plant_halted, Work.halt_halted]
      · rw [Work.enterTarget_plant]
        refine (h p).of (fun _ => rfl) ?_ rfl
        rw [State.plant_halted, State.halted_eq, hr]
        rfl
  · exact h p

theorem Work.endStartUp_starting (h : w.endStartUp.starting = true) : w.endStartUp.anyPurging = true := by
  rw [State.starting_eq] at h
  unfold Work.endStartUp at h ⊢
  split at h
  next hr =>
    split at h
    next ha => rwa [if_pos ha]
    · rw [Work.runState_leaveStarting] at h
      split at h
      · cases h
      · rw [(startTarget_state _ _).2] at h
        cases h
  next hr =>
    exfalso
    cases hs : w.run.state with
    | starting kind b => exact hr kind b hs
    | _ =>
      rw [hs] at h
      cases h

end

end Sys2Proof.Machine
end

section
/-! SUPPORT. After the Stapler has taken up work and the Return Unit has started a delivery, as the settling has them do,
neither stands idle with work to begin. -/

namespace Sys2Proof.Machine

section
variable {w : Work}

/-! ### The Stapler -/

theorem Plant.NonePending.onPocket {P Q : Plant} (h : P.NonePending) (o : Option PocketId) {f : PocketRec → PocketRec}
    (hQ : Q.pocket = (P.onPocket o f).pocket) (hf : ∀ x, (f x).state ≠ .purging) : Q.NonePending := by
  cases o with
  | none => exact h.of fun p _ => by rw [hQ]; rfl
  | some p =>
    refine h.of fun q => ?_
    rw [hQ]
    exact Plant.setPocket_of_purging (hf _)

theorem Work.startVolume_nonePending (k : WorkRec) (h : w.plant.NonePending) : (w.startVolume k).plant.NonePending := by
  have hfinish (x : Work) (f : PackFlags) (hx : x.plant.NonePending) : (x.finishPack k.handle f).plant.NonePending := by
    rw [Work.finishPack_plant]
    refine hx.onPocket (x.pack k.handle).pocket (f := fun y => y.finished (x.pack k.handle).volumes) ?_ fun y => nofun
    rw [Plant.onPocket_setStapler]
    rfl
  by_cases hn : w.stapler.remaining < patternCount (w.pack k.handle).snap.pattern
  · rw [show w.startVolume k = w.shortVolume k from if_pos hn]
    unfold Work.shortVolume
    dsimp only
    split
    · exact h
    · exact hfinish _ _ h
  · rw [w.startVolume_plant k (Nat.not_lt.1 hn)]
    refine h.onPocket (w.pack k.handle).pocket (f := fun y => y.presenting k.volume) ?_ fun y => nofun
    cases (w.pack k.handle).pocket <;> rfl

theorem Work.takeUp_nonePending (n : Nat) (h : w.plant.NonePending) : (Work.takeUp n w).plant.NonePending := by
  induction n generalizing w with
  | zero => exact h
  | succ n ih =>
    unfold Work.takeUp
    split
    · exact h
    · split
      · exact ih (w.startVolume_nonePending _ h)
      · exact h

theorem Work.takeUp_of_not_idle (n : Nat) (h : w.stapler.state ≠ .idle ∨ w.mayStart = false) : Work.takeUp n w = w := by
  cases n with
  | zero => rfl
  | succ n =>
    unfold Work.takeUp
    split
    · rfl
    · rw [if_neg]
      rw [Bool.and_eq_true, decide_eq_true_eq]
      rintro ⟨h1, h2⟩
      rcases h with h | h
      · exact h h1
      · rw [h] at h2
        cases h2

/-- Where the Stapler may take up work, no volume operation is in flight and it is not HALT: then no purge is pending. -/
theorem Work.staple_prompt (hs : w.plant.StaplerSound) (h : ∀ p, w.plant.PromptAt p) (p : PocketId) :
    w.staple.plant.PromptAt p := by
  unfold Work.staple
  by_cases hi : w.stapler.state = .idle ∧ w.mayStart = true
  · have hnone : w.plant.NonePending := fun q h1 h2 => by
      rcases h q h1 h2 with hh | hh
      · have := hi.2
        rw [State.mayStart, show w.halted = true from hh] at this
        cases this
      · have := hs.stapling.2 hh.1
        rw [State.plant_stapler, hi.1] at this
        cases this
    exact fun h1 h2 => absurd h2 (w.takeUp_nonePending _ hnone p h1)
  · rw [Work.takeUp_of_not_idle]
    · exact h p
    · rw [← Bool.not_eq_true, ← not_and_or]
      exact hi

/-- A volume started leaves the Stapler busy or waiting, or finishes the pack at the head of the queue. -/
theorem Work.startVolume_goesOn (k : WorkRec) (hk : k.handle ∈ w.stapler.queue) : (w.startVolume k).stapler.state ≠ .idle
    ∨ (w.startVolume k).stapler.queue.length < w.stapler.queue.length := by
  by_cases hn : w.stapler.remaining < patternCount (w.pack k.handle).snap.pattern
  · rw [show w.startVolume k = w.shortVolume k from if_pos hn]
    unfold Work.shortVolume
    dsimp only
    split
    · exact .inl nofun
    · right
      have hq (x : Work) (f : PackFlags) : (x.finishPack k.handle f).stapler.queue
          = x.stapler.queue.filter fun j => decide (j ≠ k.handle) := by
        refine (congrArg (fun P : Plant => P.stapler.queue) (x.finishPack_plant k.handle f)).trans ?_
        rw [Plant.onPocket_setStapler]
        rfl
      rw [hq]
      refine Nat.lt_of_le_of_ne (List.length_filter_le _ _) fun he => ?_
      have := List.length_filter_eq_length_iff.1 he k.handle hk
      rw [decide_eq_true_eq] at this
      exact this rfl
  · left
    have := congrArg (fun P : Plant => P.stapler.state) (w.startVolume_plant k (Nat.not_lt.1 hn))
    rw [show (w.startVolume k).stapler.state = .stapling from this]
    nofun

theorem Work.takeUp_idle (n : Nat) (hn : w.stapler.queue.length < n) (hm : (Work.takeUp n w).mayStart = true)
    (hi : (Work.takeUp n w).stapler.state = .idle) : (Work.takeUp n w).stapler.queue = [] := by
  induction n generalizing w with
  | zero => cases hn
  | succ n ih =>
    unfold Work.takeUp at hm hi ⊢
    split at hm
    next hq => rw [hq]
    next k rest hq =>
      rw [hq] at hi
      dsimp only at hi
      split at hm
      next hc =>
        rw [if_pos hc] at hi ⊢
        rcases w.startVolume_goesOn (w.workFor k) (by rw [State.workFor_handle, hq]; exact List.mem_cons_self ..) with h | h
        · rw [Work.takeUp_of_not_idle _ (.inl h)] at hi
          exact absurd hi h
        · exact ih (by omega) hm hi
      next hc =>
        rw [if_neg hc] at hi
        exact absurd (Bool.and_eq_true_iff.2 ⟨decide_eq_true hi, hm⟩) hc

end

end Sys2Proof.Machine
end

section
/-! SUPPORT. The delivery queue as the settling leaves it: every eligible pack is in it, and an IDLE Return Unit starts the
delivery of one. -/

namespace Sys2Proof.Machine

theorem mem_insertByAge {older : Handle → Handle → Bool} {h k : Handle} {l : List Handle} :
    k ∈ insertByAge older h l ↔ k = h ∨ k ∈ l := by
  induction l with
  | nil => simp [insertByAge]
  | cons j l ih =>
    unfold insertByAge
    split
    · exact List.mem_cons
    · rw [List.mem_cons, ih, List.mem_cons]
      exact or_left_comm

theorem mem_sortByAge {older : Handle → Handle → Bool} {k : Handle} {l : List Handle} :
    k ∈ sortByAge older l ↔ k ∈ l := by
  induction l with
  | nil => rfl
  | cons j l ih => rw [sortByAge, mem_insertByAge, ih, List.mem_cons]

/-- Every eligible pack is in the delivery queue (R115). -/
def State.Joined (s : State) : Prop := ∀ k, s.eligible k = true → k ∈ s.ret.queue

section
variable {w v : Work}

theorem State.Joined.of {s t : State} (h : s.Joined) (hr : s.SameReady t) (hq : t.ret.queue = s.ret.queue) : t.Joined :=
  fun k hk => by
    rw [hq]
    exact h k (by rwa [← hr.eligible])

theorem Work.judge_joined (w : Work) : w.judge.Joined := fun k hk => by
  have hk : w.eligible k = true := hk
  change k ∈ w.ret.queue ++ sortByAge w.older (w.live.filter fun h => w.eligible h && !w.ret.queue.contains h)
  rw [List.mem_append, mem_sortByAge, List.mem_filter, State.mem_live, State.eligible_ready hk, hk]
  by_cases hq : k ∈ w.ret.queue
  · exact .inl hq
  · exact .inr ⟨nofun, by simpa using hq⟩

/-! ### The Stapler takes up work -/

theorem Work.presentVolume_same (w : Work) (p : PocketId) (v : Nat) : (w.presentVolume p v).tables.classes = w.tables.classes
    ∧ (w.presentVolume p v).ret = w.ret := by
  unfold Work.presentVolume
  simp

/-- The bins, the classes and the delivery queue stand as a volume is started. -/
theorem Work.startVolume_ret (w : Work) (k : WorkRec) (hn : patternCount (w.pack k.handle).snap.pattern ≤ w.stapler.remaining) :
    (w.startVolume k).tables.classes = w.tables.classes ∧ (w.startVolume k).ret = w.ret := by
  have hcount (n : Nat) : (w.setRemaining n).tables.classes = w.tables.classes ∧ (w.setRemaining n).ret = w.ret := by
    unfold Work.setRemaining Work.judgeStaples
    obtain ⟨m, h⟩ := (w.setStaplerRec { w.stapler with remaining := n }).touchIf_shape (decide (n ≠ w.stapler.remaining)) .settings
    dsimp only
    rw [h]
    split <;> exact ⟨rfl, rfl⟩
  have hstate (x : Work) (b : Prop) [Decidable b] (r : PackRec) : (if b then x.setPack k.handle r else x).tables.classes
      = x.tables.classes ∧ (if b then x.setPack k.handle r else x).ret = x.ret := by
    split
    · exact ⟨by simp, by simp⟩
    · exact ⟨rfl, rfl⟩
  unfold Work.startVolume
  dsimp only
  rw [if_neg (Nat.not_lt.2 hn)]
  cases (w.pack k.handle).pocket with
  | none => exact ⟨(hstate _ _ _).1.trans (hcount _).1, (hstate _ _ _).2.trans (hcount _).2⟩
  | some p =>
    exact ⟨(Work.presentVolume_same _ p _).1.trans ((hstate _ _ _).1.trans (hcount _).1),
      (Work.presentVolume_same _ p _).2.trans ((hstate _ _ _).2.trans (hcount _).2)⟩

theorem Work.startVolume_joined (k : WorkRec) (h : w.Joined) : (w.startVolume k).Joined := by
  by_cases hn : w.stapler.remaining < patternCount (w.pack k.handle).snap.pattern
  · rw [show w.startVolume k = w.shortVolume k from if_pos hn]
    unfold Work.shortVolume
    dsimp only
    split
    · exact h
    · exact Work.judge_joined _
  · have hn := Nat.not_lt.1 hn
    obtain ⟨hclasses, hret⟩ := w.startVolume_ret k hn
    have hplant := w.startVolume_plant k hn
    have hpack (j : Handle) : (w.startVolume k).pack j = if j = k.handle then { w.pack k.handle with
        state := if k.volume = 1 ∧ (w.pack k.handle).state = .complete then .stapling
          else (w.pack k.handle).state } else w.pack j := by
      refine (congrArg (fun P : Plant => P.pack j) hplant).trans ?_
      change ((w.plant.setPack k.handle _).onPocket _ _).pack j = _
      rw [Plant.onPocket_pack]
      exact Function.update_apply ..
    refine h.of ⟨fun c => ?_, hclasses, fun b => by rw [hret], fun j => ?_, fun j => ?_⟩ (by rw [hret])
    · refine (congrArg (fun P : Plant => P.queue c) hplant).trans ?_
      change ((w.plant.setPack k.handle _).onPocket _ _).queue c = _
      rw [Plant.onPocket_queue]
      rfl
    · rw [hpack]
      split
      next e =>
        rw [e]
        dsimp only
        split
        next hc => simp [hc.2]
        · rfl
      · rfl
    · rw [hpack]
      split
      next e =>
        rw [e]
        dsimp only
        split
        · nofun
        · exact fun _ => rfl
      · exact fun _ => rfl

theorem Work.takeUp_joined (n : Nat) (h : w.Joined) : (Work.takeUp n w).Joined := by
  induction n generalizing w with
  | zero => exact h
  | succ n ih =>
    unfold Work.takeUp
    split
    · exact h
    · split
      · exact ih (w.startVolume_joined _ h)
      · exact h

/-! ### The start of a delivery -/

theorem Work.beginDelivery_ret (w : Work) (k : Handle) (p : PocketId) (b : BinId) :
    (w.beginDelivery k p b).ret.bins = w.ret.bins ∧ (w.beginDelivery k p b).ret.state = .ejecting
      ∧ (w.beginDelivery k p b).ret.queue = w.ret.queue.filter fun j => decide (j ≠ k) := by
  unfold Work.beginDelivery Work.leaveDeliveryQueue
  simp

theorem Work.beginDelivery_pack (w : Work) (k : Handle) (p : PocketId) (b : BinId) (j : Handle) :
    (w.beginDelivery k p b).pack j = if j = k then { w.pack k with state := .delivering } else w.pack j := by
  unfold Work.beginDelivery
  dsimp only
  rw [Work.pack_setRet, Work.pack_setPocket, Work.pack_setPack, Work.pack_leaveDeliveryQueue]

/-- A pack other than the one whose delivery starts is eligible where it was before. -/
theorem Work.beginDelivery_eligible (w : Work) (k : Handle) (p : PocketId) (b : BinId) (j : Handle)
    (h : (w.beginDelivery k p b).eligible j = true) : j ≠ k ∧ w.eligible j = true := by
  have hready := State.eligible_ready h
  rw [w.beginDelivery_pack] at hready
  have hne : j ≠ k := fun e => by
    rw [if_pos e] at hready
    cases hready
  have hpack : (w.beginDelivery k p b).pack j = w.pack j := by rw [w.beginDelivery_pack, if_neg hne]
  have hqueue (c : ClassId) : (w.beginDelivery k p b).classQueue c = w.classQueue c := by
    unfold Work.beginDelivery Work.leaveDeliveryQueue
    simp [State.classQueue]
  have hclasses : (w.beginDelivery k p b).tables.classes = w.tables.classes := by
    unfold Work.beginDelivery Work.leaveDeliveryQueue
    simp
  have hpolicy : (w.beginDelivery k p b).policyOf j = w.policyOf j := by simp only [State.policyOf, hpack, hclasses]
  refine ⟨hne, ?_⟩
  simpa only [State.eligible, State.inTurn, State.isClassHead, State.servingBin, State.binOf, State.hasRoom, hpack, hqueue,
    hpolicy, hclasses, (w.beginDelivery_ret k p b).1] using h

theorem Work.startDelivery_joined (h : w.Joined) : w.startDelivery.Joined := by
  unfold Work.startDelivery
  split
  · split
    · exact h
    · split
      next p b _ _ =>
        intro j hj
        obtain ⟨hne, he⟩ := w.beginDelivery_eligible _ p b j hj
        rw [(w.beginDelivery_ret _ p b).2.2, List.mem_filter]
        exact ⟨h j he, decide_eq_true hne⟩
      · exact h
  · exact h

/-- An eligible pack holds a pocket and its class has a bin. -/
theorem State.eligible_housed {s : State} (hl : s.plant.Linked Housed) {k : Handle} (h : s.eligible k = true) :
    (∃ p, (s.pack k).pocket = some p) ∧ ∃ b, s.binOf k = some b := by
  have hready := State.eligible_ready h
  obtain ⟨p, hp, -⟩ := hl.pocket_some (k := k) (by rw [State.plant_pack, hready]; nofun)
  refine ⟨⟨p, hp⟩, ?_⟩
  cases hb : s.binOf k with
  | some b => exact ⟨b, rfl⟩
  | none =>
    rw [State.eligible, State.servingBin, hb, Bool.and_false] at h
    cases h

/-- Where the Return Unit is still IDLE after it might start a delivery, no pack in its queue is eligible. -/
theorem Work.startDelivery_idle (hl : w.plant.Linked Housed) (hm : w.mayStart = true) (hi : w.startDelivery.ret.state = .idle) :
    w.startDelivery = w ∧ ∀ k ∈ w.ret.queue, w.eligible k = false := by
  unfold Work.startDelivery at hi ⊢
  by_cases hs : w.ret.state = .idle
  · have hc : (decide (w.ret.state = .idle) && w.mayStart) = true := by rw [hm, decide_eq_true hs]; rfl
    rw [if_pos hc] at hi ⊢
    split at hi
    next hnone =>
      exact ⟨rfl, fun k hk => by simpa using List.find?_eq_none.1 hnone k hk⟩
    next k hk =>
      exfalso
      obtain ⟨⟨p, hp⟩, b, hb⟩ := State.eligible_housed hl (List.find?_some hk)
      rw [hp, hb] at hi
      dsimp only at hi
      rw [(w.beginDelivery_ret k p b).2.1] at hi
      cases hi
  · rw [if_neg] at hi
    · exact absurd hi hs
    · rw [Bool.and_eq_true, decide_eq_true_eq]
      exact fun h => hs h.1

theorem Work.startDelivery_stapler (w : Work) : w.startDelivery.stapler = w.stapler := by
  unfold Work.startDelivery
  split
  · split
    · rfl
    · split
      · unfold Work.beginDelivery Work.leaveDeliveryQueue
        simp
      · rfl
  · rfl

theorem Work.startDelivery_run (w : Work) : w.startDelivery.run = w.run := by
  unfold Work.startDelivery
  split
  · split
    · rfl
    · split
      · unfold Work.beginDelivery Work.leaveDeliveryQueue
        simp
      · rfl
  · rfl

theorem Work.beginDelivery_pocket (w : Work) (k : Handle) (p : PocketId) (b : BinId) :
    (w.beginDelivery k p b).plant.pocket = (w.plant.setPocket p { w.pockets[p] with state := .ejecting }).pocket := by
  simp only [Work.beginDelivery, Work.leaveDeliveryQueue, Work.setRet_plant, Work.setPocket_plant, Work.setPack_plant,
    Work.setPack_pockets, Work.setRet_pockets]
  rfl

theorem Work.startDelivery_prompt {p : PocketId} (h : w.plant.PromptAt p) : w.startDelivery.plant.PromptAt p := by
  have hhalt : w.startDelivery.halted = w.halted := by rw [State.halted, State.halted, w.startDelivery_run]
  refine h.of ?_ hhalt w.startDelivery_stapler
  unfold Work.startDelivery
  split
  · split
    · exact fun _ => rfl
    next k _ =>
      split
      next q b _ _ =>
        rw [Work.beginDelivery_pocket]
        exact Plant.setPocket_of_purging nofun
      · exact fun _ => rfl
  · exact fun _ => rfl

end

end Sys2Proof.Machine
end

section
/-! SUPPORT. Nothing that may go on is left standing by a step: the settling of `Obligations.PurgesStartAtOnce`. -/

namespace Sys2Proof.Machine

/-! ### States that stand alike -/

/-- The packs that are READY, the run state, the Stapler, the Return Unit's state and queue and the PURGING pockets stand,
and no sheet has left the in-flight list. -/
structure State.StandsAlike (s t : State) : Prop where
  ready : s.SameReady t
  run : t.run.state = s.run.state
  stapler : t.stapler = s.stapler
  returns : t.ret.state = s.ret.state
  queue : t.ret.queue = s.ret.queue
  pockets : ∀ p : PocketId, t.pockets[p] = s.pockets[p] ∨ s.pockets[p].state ≠ .purging ∧ t.pockets[p].state ≠ .purging
  inFlight : s.arb.inFlight ≠ [] → t.arb.inFlight ≠ []

section
variable {s t : State} (h : s.StandsAlike t)
include h

theorem State.StandsAlike.purging (p : PocketId) : t.pockets[p].state = .purging ↔ s.pockets[p].state = .purging := by
  rcases h.pockets p with e | ⟨e1, e2⟩
  · rw [e]
  · exact iff_of_false e2 e1

theorem State.StandsAlike.anyPurging : t.anyPurging = s.anyPurging := by
  rw [Bool.eq_iff_iff, State.anyPurging_iff, State.anyPurging_iff]
  exact exists_congr h.purging

theorem State.StandsAlike.mayStart : t.mayStart = s.mayStart := by
  rw [State.mayStart, State.mayStart, State.halted_eq, State.halted_eq, State.starting_eq, State.starting_eq, h.run]

theorem State.StandsAlike.purgesPrompt (hs : s.purgesPrompt) : t.purgesPrompt := by
  rw [State.purgesPrompt_iff] at hs ⊢
  intro p
  refine (hs p).of (fun hp => ?_) ?_ h.stapler
  · rcases h.pockets p with e | e
    · exact e
    · exact absurd hp e.2
  · rw [State.plant_halted, State.plant_halted, State.halted_eq, State.halted_eq, h.run]

theorem State.StandsAlike.atRest (ha : t.atRest = true) : s.atRest = true := by
  simp only [State.atRest, Bool.and_eq_true, Bool.not_eq_true'] at ha ⊢
  obtain ⟨⟨⟨h1, h2⟩, h3⟩, h4⟩ := ha
  refine ⟨⟨⟨?_, ?_⟩, ?_⟩, ?_⟩
  · rw [List.isEmpty_iff] at h1 ⊢
    by_contra hne
    exact h.inFlight hne h1
  · simpa only [State.staplerAtRest, State.volumeInFlight, h.stapler] using h2
  · simpa only [State.returnAtRest, h.returns, h.queue, funext h.ready.eligible] using h3
  · rw [← h.anyPurging]
    exact h4

theorem State.StandsAlike.workPrompt (hs : s.workPrompt) : t.workPrompt := by
  obtain ⟨h1, h2, h3, h4, h5⟩ := hs
  refine ⟨?_, ?_, ?_, ?_, ?_⟩
  · rw [h.mayStart, h.stapler]
    exact h1
  · rw [h.mayStart, h.returns, h.queue]
    exact fun hm hi k hk => (h.ready.eligible k).trans (h2 hm hi k hk)
  · rw [h.queue]
    exact fun k hk => h3 k ((h.ready.eligible k).symm.trans hk)
  · rw [State.starting_eq, h.run, ← State.starting_eq]
    exact fun hst => (h4 hst).imp fun p => (h.purging p).2
  · rw [h.run]
    intro o ho
    rw [← Bool.not_eq_true]
    intro ha
    exact absurd (h.atRest ha) (by rw [h5 o ho]; nofun)

end

theorem Work.Released.standsAlike {w v : Work} (h : w.Released v) : w.toState.StandsAlike v.toState where
  ready := h.ready
  run := by rw [h.run]
  stapler := h.stapler
  returns := by rw [h.ret]
  queue := by rw [h.ret]
  pockets p := (h.pockets p).imp_right fun ⟨e1, e2⟩ => ⟨by rw [e1]; nofun, by rw [e2]; nofun⟩
  inFlight hne he := hne (List.prefix_nil.1 (he ▸ h.inFlight))

theorem Work.Still.standsAlike {w v : Work} (h : w.Still v) : w.toState.StandsAlike v.toState where
  ready := h.reads.sameReady
  run := h.run
  stapler := h.stapler
  returns := by
    obtain ⟨bs, hr, -⟩ := h.ret
    rw [hr]
  queue := by
    obtain ⟨bs, hr, -⟩ := h.ret
    rw [hr]
  pockets p := .inl (by rw [h.pockets])
  inFlight := by rw [h.inFlight]; exact id

theorem Work.driveLamps_standAlike (w : Work) : w.toState.StandsAlike w.driveLamps.toState := by
  obtain ⟨bs, h⟩ := w.driveLamps_shape
  have hreads : w.toState.Reads w.driveLamps.toState := (Work.foldLamps_follow allBins w).1
  exact ⟨hreads.sameReady, by rw [h], by rw [h], by rw [h], by rw [h], fun p => .inl (by rw [h]), by rw [h]; exact id⟩

theorem Work.judgeBinFull_standsAlike (w : Work) (b : State) : w.toState.StandsAlike (w.judgeBinFull b).toState := by
  have hlatch (o : Bool) : w.toState.StandsAlike (if o then w.latch .binFull else w).toState := by
    cases o <;> exact ⟨⟨fun _ => rfl, rfl, fun _ => rfl, fun _ => Iff.rfl, fun _ _ => rfl⟩, rfl, rfl, rfl, rfl, fun _ => .inl rfl, id⟩
  exact hlatch _

/-! ### The settling -/

section
variable {w : Work}

/-- The work of the settling before the release decisions. -/
def Work.goOn (w : Work) : Work := w.startPurges.endStartUp.judge.staple.startDelivery.endStopping

theorem Work.settle_eq (w : Work) (b : State) :
    w.settle b = (w.goOn.decideReleases.timeWaits.timeBlock.judgeBinFull b).driveLamps := rfl

theorem Work.endStopping_shape (w : Work) : (w.endStopping = w ∧ ∀ o, w.run.state = .stopping o → w.atRest = false)
    ∨ (∃ o, w.run.state = .stopping o) ∧ w.endStopping = w.setRunState .standby := by
  unfold Work.endStopping
  split
  next o ho =>
    split
    · exact .inr ⟨⟨o, ho⟩, rfl⟩
    next ha => exact .inl ⟨rfl, fun _ _ => by simpa using ha⟩
  next hn => exact .inl ⟨rfl, fun o ho => absurd ho (hn o)⟩

theorem Work.endStopping_plant (w : Work) : w.endStopping.plant = w.plant := by
  rcases w.endStopping_shape with ⟨h, -⟩ | ⟨⟨o, ho⟩, h⟩
  · rw [h]
  · have hh : w.plant.halted = RunState.standby.halts := by
      rw [State.plant_halted, State.halted_eq, ho]
      rfl
    rw [h, Work.setRunState_plant, ← hh]
    rfl

/-- The end of STOPPING changes the run state alone, to one in which what might start before may start. -/
theorem Work.endStopping_same (w : Work) : w.endStopping.mayStart = w.mayStart ∧ w.endStopping.starting = w.starting
    ∧ w.endStopping.ret = w.ret ∧ w.endStopping.pockets = w.pockets ∧ w.toState.SameReady w.endStopping.toState := by
  rcases w.endStopping_shape with ⟨h, -⟩ | ⟨⟨o, ho⟩, h⟩
  · rw [h]
    exact ⟨rfl, rfl, rfl, rfl, fun _ => rfl, rfl, fun _ => rfl, fun _ => Iff.rfl, fun _ _ => rfl⟩
  · rw [h, State.mayStart, State.mayStart]
    simp only [State.halted_eq, State.starting_eq, ho]
    refine ⟨by simp [RunState.halts, RunState.starts], by simp [RunState.starts], by simp, by simp, ?_⟩
    refine ⟨fun c => ?_, by simp, fun b => by simp, fun k => ?_, fun k _ => ?_⟩ <;> simp [State.classQueue, State.pack]

theorem Work.startDelivery_of_mayNot (h : w.mayStart = false) : w.startDelivery = w := by
  unfold Work.startDelivery
  rw [h, Bool.and_false]
  rfl

theorem Plant.Turns.sound {P Q : Plant} (h : P.Turns Q) (hs : P.Sound) : Q.Sound := by
  induction h with
  | refl => exact hs
  | tail _ hq ih => exact hq.sound ih

theorem Work.goOn_purgesPrompt (hs : w.plant.Sound) : w.goOn.purgesPrompt := by
  have hsound := (Plant.Turns.startPurges (w := w) .refl).endStartUp.of_plant (Work.judge_plant _)
  rw [State.purgesPrompt_iff]
  intro p
  unfold Work.goOn
  rw [Work.endStopping_plant]
  refine Work.startDelivery_prompt (Work.staple_prompt (hsound.sound hs).stapler (fun q => ?_) p)
  rw [Work.judge_plant]
  exact Work.endStartUp_prompt w.startPurges_prompt q

/-- What goes on once the pending purges have started and a start-up that may end has ended. -/
theorem Work.rest_workPrompt {x : Work} (hjoined : x.Joined) (hlinked : x.staple.plant.Linked Housed)
    (hstart : x.starting = true → x.anyPurging = true) : x.staple.startDelivery.endStopping.workPrompt := by
  have hrun : x.staple.starting = true → x.starting = true := by
    rw [State.starting_eq, State.starting_eq]
    rcases (Settles.refl x).staple.run with h | ⟨-, h⟩ <;> rw [h]
    · exact id
    · nofun
  have hsame : x.staple.startDelivery.mayStart = x.staple.mayStart
      ∧ x.staple.startDelivery.starting = x.staple.starting := by
    rw [State.mayStart, State.mayStart, State.halted, State.halted, State.starting, State.starting,
      Work.startDelivery_run]
    exact ⟨rfl, rfl⟩
  obtain ⟨hmay, hstarting, hret, hpockets, hready⟩ := x.staple.startDelivery.endStopping_same
  have hstapler : x.staple.startDelivery.endStopping.stapler = x.staple.stapler :=
    (congrArg Plant.stapler (Work.endStopping_plant _)).trans (Work.startDelivery_stapler _)
  refine ⟨?_, ?_, ?_, ?_, ?_⟩
  · rw [hmay, hsame.1, hstapler]
    exact Work.takeUp_idle _ (Nat.lt_succ_self _)
  · rw [hmay, hsame.1, hret]
    intro hm hi k hk
    obtain ⟨he, hn⟩ := Work.startDelivery_idle hlinked hm hi
    rw [he] at hk
    rw [hready.eligible, he]
    exact hn k hk
  · have hstapled : x.staple.Joined := Work.takeUp_joined _ hjoined
    exact (Work.startDelivery_joined hstapled).of hready (by rw [hret])
  · rw [hstarting, hsame.2]
    intro hst
    have hxs := hrun hst
    have hmayNot : x.mayStart = false := by rw [State.mayStart, hxs, Bool.not_true, Bool.and_false]
    have hstaple : x.staple = x := Work.takeUp_of_not_idle _ (.inr hmayNot)
    rw [hpockets, hstaple, Work.startDelivery_of_mayNot hmayNot]
    exact State.anyPurging_iff.1 (hstart hxs)
  · rcases x.staple.startDelivery.endStopping_shape with ⟨h, ha⟩ | ⟨-, h⟩
    · rw [h]
      exact ha
    · rw [h, Work.setRunState_run]
      nofun

theorem Work.goOn_workPrompt (hs : w.plant.Sound) : w.goOn.workPrompt := by
  have hturns := ((Plant.Turns.startPurges (w := w) .refl).endStartUp.of_plant (Work.judge_plant _)).staple
  have hjudged (y : Work) : y.judge.starting = y.starting ∧ y.judge.anyPurging = y.anyPurging := ⟨rfl, rfl⟩
  unfold Work.goOn
  refine Work.rest_workPrompt (Work.judge_joined _) (hturns.sound hs).linked ?_
  rw [(hjudged _).1, (hjudged _).2]
  exact Work.endStartUp_starting

theorem Work.settle_prompt (hs : w.plant.Sound) (b : State) :
    (w.settle b).purgesPrompt ∧ (w.settle b).workPrompt := by
  have hp := w.goOn_purgesPrompt hs
  have hw := w.goOn_workPrompt hs
  have h1 := ((Work.Released.refl w.goOn).decideReleases.timeWaits.timeBlock).standsAlike
  have h2 := Work.judgeBinFull_standsAlike w.goOn.decideReleases.timeWaits.timeBlock b
  have h3 := Work.driveLamps_standAlike (w.goOn.decideReleases.timeWaits.timeBlock.judgeBinFull b)
  rw [Work.settle_eq]
  exact ⟨h3.purgesPrompt (h2.purgesPrompt (h1.purgesPrompt hp)), h3.workPrompt (h2.workPrompt (h1.workPrompt hw))⟩

end

/-- What a command comes to leaves nothing standing that stood not before. -/
theorem Work.Does.prompt {w v : Work} (h : w.Does v) (hs : w.plant.Sound) :
    (w.purgesPrompt → v.purgesPrompt) ∧ (w.workPrompt → v.workPrompt) := by
  cases h with
  | still h => exact ⟨h.standsAlike.purgesPrompt, h.standsAlike.workPrompt⟩
  | settled x u b hx hu hb hv =>
    have hturns : w.plant.Turns u.plant := (Plant.Turns.of_plant .refl hx.plant).op hu
    obtain ⟨h1, h2⟩ := u.settle_prompt (hturns.sound hs) b.toState
    exact ⟨fun _ => hv.standsAlike.purgesPrompt h1, fun _ => hv.standsAlike.workPrompt h2⟩

/-! ### The states -/

theorem State.workSound_iff (s : State) : s.workSound ↔ s.plant.Sound := by
  constructor
  · rintro ⟨hc, hq, hl, hr, ⟨w1, w2, w3, w4, w5⟩, ⟨x1, x2⟩, ⟨v1, v2⟩, ha⟩
    refine ⟨fun k => ⟨hc k, v1 k⟩, hq, s.pocketsAgree_iff.1 hl, s.returnAgrees_iff.1 hr, ⟨w1, w2, w3, fun k hk => ?_, w5⟩,
      fun p => ?_, fun k p hp => ?_, fun p hp => ?_⟩
    · obtain ⟨h1, h2, h3, h4, h5⟩ := w4 k hk
      exact ⟨h1, h2, h3, fun ho hst => h4 ho (State.stillStapling_iff.2 hst), h5⟩
    · obtain ⟨h1, h2, h3, h4, h5, h6⟩ := x1 p
      exact ⟨h1, h2, h3, h4, h5, h6⟩
    · obtain ⟨h1, h2, h3, h4⟩ := x2 k p hp
      obtain ⟨h5, h6, h7⟩ := v2 k p hp
      exact ⟨h1, h2, h3, h4, h5, h6, h7⟩
    · obtain ⟨h1, h2⟩ := ha p hp
      exact ⟨h1, fun h => by rw [State.operationOn_iff.2 h] at h2; cases h2⟩
  · rintro ⟨hp, hq, hl, hr, ⟨w1, w2, w3, w4, w5⟩, hx, hf, ha⟩
    refine ⟨fun k => (hp k).counted, hq, s.pocketsAgree_iff.2 hl, s.returnAgrees_iff.2 hr, ⟨w1, w2, w3, fun k hk => ?_, w5⟩,
      ⟨fun p => ?_, fun k p hp => ?_⟩, ⟨fun k => (hp k).planned, fun k p hp => ?_⟩, fun p hp => ?_⟩
    · obtain ⟨h1, h2, h3, h4, h5⟩ := w4 k hk
      exact ⟨h1, h2, h3, fun ho hst => h4 ho (State.stillStapling_iff.1 hst), h5⟩
    · obtain ⟨h1, h2, h3, h4, h5, h6⟩ := hx p
      exact ⟨h1, h2, h3, h4, h5, h6⟩
    · obtain ⟨h1, h2, h3, h4, -, -, -⟩ := hf k p hp
      exact ⟨h1, h2, h3, h4⟩
    · obtain ⟨-, -, -, -, h5, h6, h7⟩ := hf k p hp
      exact ⟨h5, h6, h7⟩
    · obtain ⟨h1, h2⟩ := ha p hp
      exact ⟨h1, by rw [← Bool.not_eq_true, State.operationOn_iff]; exact h2⟩

end Sys2Proof.Machine

namespace Sys2Proof.Proofs

open Sys2Proof.Machine

/-- Settles O18: the agreement of the blocks' fields is kept turn by turn (`Plant.Turn.sound`); what may go on is begun by
the settling that follows a command's effect (`Work.settle_prompt`), and a command without one changes nothing that a
block waits for. -/
theorem purgesStartAtOnce : Obligations.PurgesStartAtOnce := by
  unfold Obligations.PurgesStartAtOnce
  intro s t hs h
  rw [State.workSound_iff] at hs ⊢
  have hsound := step_turns (P := Plant.Sound) (fun p q hpq => hpq.sound) h hs
  refine ⟨hsound, fun hp => ?_, fun hw => ?_⟩
  · exact (step_keeps (P := fun s => s.plant.Sound ∧ s.purgesPrompt) (fun _ _ h => h) (fun _ h => h) (fun _ h => h)
      (fun c s t h hs => ⟨(exec_turns h).sound hs.1, ((exec_does h).prompt hs.1).1 hs.2⟩) h ⟨hs, hp⟩).2
  · exact (step_keeps (P := fun s => s.plant.Sound ∧ s.workPrompt) (fun _ _ h => h) (fun _ h => h) (fun _ h => h)
      (fun c s t h hs => ⟨(exec_turns h).sound hs.1, ((exec_does h).prompt hs.1).2 hs.2⟩) h ⟨hs, hw⟩).2

end Sys2Proof.Proofs
end

section
/-! SUPPORT. What a step's end leaves of its work, and what lies around the work (`Work.From`): the settling of
`Obligations.BinsAreClearedAndFlashesEnd`. -/

namespace Sys2Proof.Machine

/-! ### What the end of a step leaves (R172) -/

section
variable (w : Work)

@[simp] theorem Work.finish_reg : w.finish.reg = w.reg := (congrArg State.reg w.finish_sameWork).trans rfl
@[simp] theorem Work.finish_feeds : w.finish.feeds = w.feeds := (congrArg State.feeds w.finish_sameWork).trans rfl
@[simp] theorem Work.finish_arb : w.finish.arb = w.arb := (congrArg State.arb w.finish_sameWork).trans rfl
@[simp] theorem Work.finish_pockets : w.finish.pockets = w.pockets :=
  (congrArg State.pockets w.finish_sameWork).trans rfl
@[simp] theorem Work.finish_stapler : w.finish.stapler = w.stapler :=
  (congrArg State.stapler w.finish_sameWork).trans rfl
@[simp] theorem Work.finish_ret : w.finish.ret = w.ret := (congrArg State.ret w.finish_sameWork).trans rfl
@[simp] theorem Work.finish_run : w.finish.run = w.run := (congrArg State.run w.finish_sameWork).trans rfl
@[simp] theorem Work.finish_tables : w.finish.tables = w.tables := (congrArg State.tables w.finish_sameWork).trans rfl
@[simp] theorem Work.finish_now : w.finish.now = w.now := (congrArg State.now w.finish_sameWork).trans rfl
@[simp] theorem Work.finish_pins : w.finish.pins = w.pins := (congrArg State.pins w.finish_sameWork).trans rfl
@[simp] theorem Work.finish_choices : w.finish.choices = w.choices :=
  (congrArg State.choices w.finish_sameWork).trans rfl
@[simp] theorem Work.finish_pending : w.finish.pending = w.pending :=
  (congrArg State.pending w.finish_sameWork).trans rfl

@[simp] theorem Work.finish_pack (h : Handle) : w.finish.pack h = w.pack h := by
  rw [State.pack, Work.finish_reg]
  rfl

@[simp] theorem Work.finish_classQueue (c : ClassId) : w.finish.classQueue c = w.classQueue c := by
  rw [State.classQueue, Work.finish_reg]
  rfl

end

/-- A step that formed nothing to queue and leaves ATTENTION following the latches brings the reply line on alone. -/
theorem Work.finish_silent {w : Work} (hn : w.notices = []) (hr : w.reply = none) (hd : w.drains = [])
    (hp : w.report = none) (hf : w.attentionFollows) :
    w.finish = { w.toState with link := w.link.boundary } := by
  have hsend : w.sendNotices.judgeAttention = w := by
    rw [show w.sendNotices = w by rw [Work.sendNotices, hn]; rfl, Work.judgeAttention_of_follows hf]
  have hq : w.queued = w := by
    rw [Work.queued, hsend, hr, hp]
    show w.keepDrains = w
    rw [Work.keepDrains, hd]
    rfl
  rw [Work.finish, hq]

/-! ### What a step leaves of the packs and the bins -/

theorem State.keepsPacks.refl (s : State) : s.keepsPacks s := ⟨rfl, rfl, rfl, fun _ => ⟨rfl, rfl, rfl⟩⟩

theorem State.keepsPacks.trans {s t u : State} (h : s.keepsPacks t) (k : t.keepsPacks u) : s.keepsPacks u := by
  obtain ⟨hq, hm, hs, hp⟩ := h
  obtain ⟨kq, km, ks, kp⟩ := k
  refine ⟨kq.trans hq, km.trans hm, ks.trans hs, fun x => ?_⟩
  obtain ⟨h1, h2, h3⟩ := hp x
  obtain ⟨k1, k2, k3⟩ := kp x
  exact ⟨k1.trans h1, k2.trans h2, k3.trans h3⟩

theorem State.keepsPacks_of_reg {s t : State} (h : t.reg = s.reg) : s.keepsPacks t :=
  ⟨by rw [h], by rw [h], by rw [h], fun x => by rw [State.pack, h]; exact ⟨rfl, rfl, rfl⟩⟩

theorem State.keepsBins.trans {s t u : State} {l m : List BinId} (h : s.keepsBins t l) (k : t.keepsBins u m)
    (hm : ∀ b ∈ m, b ∈ l) : s.keepsBins u l :=
  fun b hb => (k b (mt (hm b) hb)).trans (h b hb)

theorem State.keepsBins_of_bins {s t : State} (h : t.ret.bins = s.ret.bins) (l : List BinId) : s.keepsBins t l :=
  fun b _ => by rw [h]

section
variable {s : State} {w : Work}

theorem State.keepsPacks.settle (h : s.keepsPacks w.toState) (b : State) : s.keepsPacks (w.settle b).toState :=
  h.trans (Work.settle_keepsPacks b w)

theorem State.keepsPacks.finish (h : s.keepsPacks w.toState) : s.keepsPacks w.finish :=
  h.trans (State.keepsPacks_of_reg w.finish_reg)

theorem State.keepsBins.settle {l : List BinId} (h : s.keepsBins w.toState l) (b : State) :
    s.keepsBins (w.settle b).toState l :=
  h.trans (Work.settle_keepsBins b w) fun _ hx => absurd hx (List.not_mem_nil)

theorem State.keepsBins.finish {l : List BinId} (h : s.keepsBins w.toState l) : s.keepsBins w.finish l :=
  h.trans (State.keepsBins_of_bins (by rw [Work.finish_ret]) []) fun _ hx => absurd hx (List.not_mem_nil)

end

/-! ### What lies around the work -/

/-- The work in hand began in state `s` and has changed nothing around the work: the time, the levels, the straps, the
banks but for the mark, the queues of commands and the Link Port stand, and no latch is cleared. -/
structure Work.From (s : State) (w : Work) : Prop where
  frame : { w.frame with reply := none } = (Work.of s).frame
  latched : ∀ c, s.latched c = true → w.latched c = true

section
variable {s : State} {w v : Work}

theorem Work.From.of (s : State) : Work.From s (Work.of s) := ⟨rfl, fun _ => id⟩

theorem Work.From.evolves (h : Work.From s w) (he : Evolves w v) (hf : v.frame = w.frame) : Work.From s v :=
  ⟨by rw [hf]; exact h.frame, fun c hc => he.latched c (h.latched c hc)⟩

theorem Work.From.settle (h : Work.From s w) (b : State) : Work.From s (w.settle b) :=
  h.evolves ((Evolves.refl w).settle b) (w.frame_settle b)

theorem Work.From.answer (h : Work.From s w) (k : Byte) (st : Status) (d : List Byte) (n : Notes) :
    Work.From s (w.answer k st d n) := ⟨h.frame, h.latched⟩

theorem Work.From.link_eq (h : Work.From s w) : w.link = s.link := congrArg Frame.link h.frame
theorem Work.From.told_eq (h : Work.From s w) : w.told = s.told := by rw [State.told, h.link_eq]; rfl
theorem Work.From.now_eq (h : Work.From s w) : w.now = s.now := congrArg Frame.now h.frame
theorem Work.From.pins_eq (h : Work.From s w) : w.pins = s.pins := congrArg Frame.pins h.frame
theorem Work.From.straps_eq (h : Work.From s w) : w.run.straps = s.run.straps := congrArg Frame.straps h.frame
theorem Work.From.tables_eq (h : Work.From s w) : { w.tables with mark := none } = { s.tables with mark := none } :=
  congrArg Frame.tables h.frame
theorem Work.From.settings_eq (h : Work.From s w) : w.tables.settings = s.tables.settings :=
  congrArg (fun f : Frame => f.tables.settings) h.frame

theorem Work.From.surrounds (h : Work.From s w) : s.surrounds w.finish := by
  have hq := w.finish_queues
  refine ⟨w.finish_now.trans h.now_eq, w.finish_pins.trans h.pins_eq,
    (congrArg RunControl.straps w.finish_run).trans h.straps_eq, ?_, ?_, ?_, ?_, ?_, ?_⟩
  · rw [w.finish_tables]
    exact h.tables_eq
  · exact w.finish_choices.trans (congrArg Frame.choices h.frame)
  · exact w.finish_pending.trans (congrArg Frame.pending h.frame)
  · rw [hq.eq_with, h.link_eq]
  · obtain ⟨new, hnew⟩ := hq.order
    refine ⟨new, ?_⟩
    rw [h.link_eq] at hnew
    exact hnew
  · exact fun c hc => w.finish_latched c (h.latched c hc)

/-- The Result formed is queued behind all that was queued. -/
theorem Work.From.tells {k : Byte} {st : Status} {d : List Byte} {n : Notes} (h : Work.From s w) :
    s.tells (w.answer k st d n).finish (.result k st n d) :=
  Work.finish_tells (r := ⟨k, st, n, d⟩) h.told_eq rfl

end

/-! ### Events -/

theorem exec_comes {c : Instr} {s : State} (hr : recordOf c = none) (hc : c.comes s = true) :
    exec c s = .next (c.effect (Work.of s)).finish := by
  rw [exec_event hr, if_pos hc]

theorem exec_stays {c : Instr} {s : State} (hr : recordOf c = none) (hc : c.comes s = false) : exec c s = .next s := by
  rw [exec_event hr, if_neg (by rw [hc]; exact Bool.false_ne_true)]

/-! ### The bins -/

theorem State.flashOver_of_none {s : State} {b : BinId} (h : s.ret.bins[b].flash = none) : s.flashOver b = false := by
  rw [State.flashOver, h]

theorem State.flashOver_of_some {s : State} {b : BinId} {start : Time} (h : s.ret.bins[b].flash = some start) :
    s.flashOver b = decide (Config.flashTime ≤ elapsed s.now start) := by
  rw [State.flashOver, h]

/-- A bin record given to a bin that changes neither its fill touches no mark. -/
theorem Work.setBin_of_fill {w : Work} {b : BinId} {r : BinRec} (h : r.fill = w.ret.bins[b].fill) :
    w.setBin b r = { w with ret := { w.ret with bins := w.ret.bins.set b r } } := by
  unfold Work.setBin
  simp only [h, ne_eq, not_true_eq_false, decide_false]
  rfl

theorem Work.setBin_keepsBins (w : Work) (b : BinId) (r : BinRec) :
    w.toState.keepsBins (w.setBin b r).toState [b] := by
  intro x hx
  have hne : b ≠ x := fun h => hx (by rw [h]; exact List.mem_singleton_self x)
  rw [Work.setBin_ret]
  exact congrArg BinRec.unlit (Vector.getElem_set_ne b.isLt x.isLt (Fin.val_ne_of_ne hne))

end Sys2Proof.Machine

namespace Sys2Proof.Proofs

open Sys2Proof.Machine

/-- Settles O53: a cleared bin's fill is set and the blocks settle; a flash that ends changes its bin's record alone. -/
theorem binsAreClearedAndFlashesEnd : Obligations.BinsAreClearedAndFlashesEnd := by
  unfold Obligations.BinsAreClearedAndFlashesEnd
  intro b s
  refine ⟨?_, fun hf => ?_, fun start hstart => ⟨fun hlt => ?_, fun hle ha => ?_⟩⟩
  · obtain ⟨u, hu⟩ : ∃ u, u = (Work.of s).setBin b { s.ret.bins[b] with fill := 0 } := ⟨_, rfl⟩
    have heff : (Instr.binCleared b).effect (Work.of s) = u.settle s := by rw [hu, Instr.effect]; rfl
    have hfrom : Work.From s u :=
      hu ▸ (Work.From.of s).evolves ((Evolves.refl _).setBin b _) (Work.frame_setBin _ _ _)
    have hbins : s.keepsBins u.toState [b] := hu ▸ Work.setBin_keepsBins (Work.of s) b _
    refine ⟨_, exec_comes (c := .binCleared b) rfl rfl, ?_⟩
    rw [heff]
    refine ⟨(hfrom.settle s).surrounds, ((State.keepsPacks_of_reg (by rw [hu, Work.setBin_reg]; rfl)).settle s).finish,
      (hbins.settle s).finish, ?_⟩
    rw [Work.finish_ret, Work.settle_keepsBins s u b List.not_mem_nil, hu, Work.setBin_ret]
    exact congrArg BinRec.unlit (Vector.getElem_set_self b.isLt)
  · exact exec_stays (c := .flashEnd b) rfl (State.flashOver_of_none hf)
  · exact exec_stays (c := .flashEnd b) rfl ((State.flashOver_of_some hstart).trans (decide_eq_false (Int.not_le.2 hlt)))
  · have heff : (Instr.flashEnd b).effect (Work.of s)
        = (Work.of s).setBin b { s.ret.bins[b] with flash := none } := rfl
    rw [exec_comes (c := .flashEnd b) rfl ((State.flashOver_of_some hstart).trans (decide_eq_true hle)), heff,
      Work.setBin_of_fill (r := { s.ret.bins[b] with flash := none }) rfl, Work.finish_silent rfl rfl rfl rfl ha]
    rfl

end Sys2Proof.Proofs
end

section
/-! SUPPORT. An announcement accepted: the settling of `Obligations.AnnounceIsAccepted`. -/

namespace Sys2Proof.Machine

/-! ### A command taken -/

section
variable {s : State} {c : Instr}

theorem State.starting_of_takesCommand (h : s.takesCommand c) : s.starting = false := by
  cases hr : recordOf c with
  | none => rw [State.takesCommand, hr] at h; exact h.elim
  | some r =>
    rw [State.takesCommand, hr] at h
    have hready := h.1.1
    rw [State.handlerReady, Bool.and_eq_true, Bool.and_eq_true] at hready
    simpa using hready.1.1

@[simp] theorem State.takenFor_told (s : State) (c : Instr) : (s.takenFor c).told = s.told := by
  obtain ⟨k, hk, htold, -⟩ := s.takenFor_link c
  rw [hk]
  exact htold

/-- The Result formed by a command taken is queued behind all that was queued before it. -/
theorem Work.From.tells_taken {T : State} {w : Work} (h : Work.From T w) (hT : T = s.takenFor c) {k : Byte}
    {st : Status} {d : List Byte} {n : Notes} : s.tells (w.answer k st d n).finish (.result k st n d) :=
  Work.finish_tells (r := ⟨k, st, n, d⟩) (h.told_eq.trans (by rw [hT]; exact s.takenFor_told c)) rfl

end

theorem Work.From.of_attn {s : State} {w v : Work} (h : Work.From s w) (hf : v.frame = w.frame) (ha : v.attn = w.attn) :
    Work.From s v :=
  ⟨by rw [hf]; exact h.frame, fun c hc => by rw [State.latched, ha]; exact h.latched c hc⟩

/-! ### An announcement -/

section
variable (w : Work) (k : Handle) (r : PackRec)

theorem Work.acceptPack_pack_self : (w.acceptPack k r).pack k = r := by
  obtain ⟨m, o, h⟩ := w.acceptPack_fields k r
  rw [h]
  exact Sparse.get_put_self _ _ _ _

theorem Work.acceptPack_pack_ne {j : Handle} (hj : j ≠ k) : (w.acceptPack k r).pack j = w.pack j := by
  obtain ⟨m, o, h⟩ := w.acceptPack_fields k r
  rw [h]
  exact Sparse.get_put_ne _ _ _ hj

theorem Work.acceptPack_classQueue (d : ClassId) : (w.acceptPack k r).classQueue d
    = if d = r.cls then w.classQueue r.cls ++ [k] else w.classQueue d := by
  obtain ⟨m, o, h⟩ := w.acceptPack_fields k r
  rw [h]
  split
  · rename_i hd
    rw [hd]
    exact Sparse.get_put_self _ _ _ _
  · rename_i hd
    exact Sparse.get_put_ne _ _ _ hd

theorem Work.acceptPack_serial : (w.acceptPack k r).reg.serial = w.reg.serial + 1 := by
  obtain ⟨m, o, h⟩ := w.acceptPack_fields k r
  rw [h]

theorem Work.acceptPack_markers : (w.acceptPack k r).reg.markers = w.reg.markers := by
  obtain ⟨m, o, h⟩ := w.acceptPack_fields k r
  rw [h]

theorem Work.acceptPack_stapler : (w.acceptPack k r).stapler = w.stapler := by
  obtain ⟨m, o, h⟩ := w.acceptPack_fields k r
  rw [h]

theorem Work.acceptPack_attn : (w.acceptPack k r).attn = w.attn := by
  obtain ⟨m, o, h⟩ := w.acceptPack_fields k r
  rw [h]

end

theorem exec_packAnnounce_accepts {s : State} {handle job : Byte} {student : Half} {pages : Byte}
    (ht : s.takesCommand (.packAnnounce false handle job student pages)) {h : Handle} {r : PackRec} {split : Bool}
    (hj : s.judgeAnnounce handle job student pages = .accepted h r split) {T : State}
    (hT : T = s.takenFor (.packAnnounce false handle job student pages)) :
    exec (.packAnnounce false handle job student pages) s
      = .next ((((Work.of T).acceptPack h r).settle T).answer kindPackAnnounce .accepted
          (bytesOf r.total ++ [byteOf r.snap.plan.ends.length]) { splitLimit := split }).finish := by
  rw [exec_packAnnounce_taken ht]
  simp only [hT, Work.packAnnounce, Work.of_toState, State.takenFor, recordOf, State.judgeAnnounce_taken, hj]

/-- No pack that is not COMPLETE or STAPLING is in the staple queue (R96). -/
theorem State.stapleQueueSound.not_mem {s : State} (h : s.stapleQueueSound) {k : Handle}
    (h1 : (s.pack k).state ≠ .complete) (h2 : (s.pack k).state ≠ .stapling) : k ∉ s.stapler.queue :=
  fun hk => (h.2 k hk).elim h1 h2

end Sys2Proof.Machine

namespace Sys2Proof.Proofs

open Sys2Proof.Machine

/-- Settles O33: the record and the class queue stand as the announcement leaves them, but that the settling may open the
pack. -/
theorem announceIsAccepted : Obligations.AnnounceIsAccepted := by
  unfold Obligations.AnnounceIsAccepted
  intro handle job student pages s h j st c b ht hq hb hh hj hst hfree hopen hclass hbin h1 h60 hbudget
  have judged : s.judgeAnnounce handle job student pages
      = .accepted h (s.announcedRecord j st c pages.toNat b) b.splitLimit :=
    (State.judgeAnnounce_named hb hh hj hst).trans
      (State.checkAnnounce_accepted hfree hopen hclass hbin (Nat.one_le_iff_ne_zero.1 h1) (Nat.not_lt.2 h60) hbudget)
  obtain ⟨l, hl, -⟩ := s.takenFor_link (.packAnnounce false handle job student pages)
  obtain ⟨T, hT⟩ : ∃ T, T = s.takenFor (.packAnnounce false handle job student pages) := ⟨_, rfl⟩
  have hrun : T.run = s.run := by rw [hT, hl]
  have hreg : T.reg = s.reg := by rw [hT, hl]
  have hpack : ∀ x, T.pack x = s.pack x := fun x => by rw [State.pack, hreg]; rfl
  obtain ⟨r, hr⟩ : ∃ r, r = s.announcedRecord j st c pages.toNat b := ⟨_, rfl⟩
  rw [← hr] at judged
  obtain ⟨u, hu⟩ : ∃ u, u = (Work.of T).acceptPack h r := ⟨_, rfl⟩
  have hself : u.pack h = r := hu ▸ Work.acceptPack_pack_self _ _ _
  have hfrom : Work.From T u :=
    (Work.From.of T).of_attn (hu ▸ Work.frame_acceptPack _ _ _) (hu ▸ Work.acceptPack_attn _ _ _)
  have hstarting : u.starting = false := by
    rw [State.starting, hu, Work.acceptPack_run, Work.of_toState, hrun]
    exact State.starting_of_takesCommand ht
  obtain ⟨v, hv⟩ : ∃ v, v = u.settle T := ⟨_, rfl⟩
  have hfromV : Work.From T v := hv ▸ hfrom.settle T
  have hsettles : Settles u v := hv ▸ Settles.settle T u hstarting
  have hout : h ∉ u.stapler.queue := by
    rw [hu, Work.acceptPack_stapler, Work.of_toState, show T.stapler = s.stapler by rw [hT, hl]]
    exact hq.not_mem (by rw [hfree]; decide) (by rw [hfree]; decide)
  intro e r'
  obtain rfl : r = r' := hr
  refine ⟨_, exec_packAnnounce_accepts ht judged hT, ?_⟩
  rw [← hT, ← hu, ← hv]
  refine ⟨(hfromV.answer _ _ _ _).surrounds, hfromV.tells_taken hT, ?_, fun k hk => ?_, fun d => ?_, ?_, ?_⟩
  · rw [Work.finish_pack]
    have hfixed := hsettles.fixed h
    rcases hsettles.waits h hout (by rw [hself]) with hsame | ⟨hopened, hrunning⟩
    · exact .inl (hsame.trans hself)
    · rw [hself] at hfixed
      rw [hu, Work.acceptPack_run, Work.of_toState, hrun] at hrunning
      exact .inr ⟨hrunning, hopened, hfixed⟩
  · have hfixed := hsettles.fixed k
    rw [hu, Work.acceptPack_pack_ne _ _ _ hk, Work.of_toState, hpack] at hfixed
    rw [Work.finish_pack]
    exact hfixed
  · rw [Work.finish_classQueue]
    have hqueues : v.classQueue d = u.classQueue d := by rw [State.classQueue, hsettles.queues]; rfl
    refine hqueues.trans ?_
    rw [hu, Work.acceptPack_classQueue, Work.of_toState, show T.classQueue = s.classQueue by rw [hT, hl]; rfl]
  · rw [Work.finish_reg]
    exact hsettles.serial.trans (by rw [hu, Work.acceptPack_serial, Work.of_toState, hreg])
  · rw [Work.finish_reg]
    exact hsettles.markers.trans (by rw [hu, Work.acceptPack_markers, Work.of_toState, hreg])

end Sys2Proof.Proofs
end

section
/-! SUPPORT. A pack that leaves the block's work (`State.Gone`), and the markers that its freeing finishes: the settling of
`Obligations.WithdrawIsDecidedByTheState`. -/

namespace Sys2Proof.Machine

/-! ### The drain markers (R25) -/

/-- The markers that the freeing of pack `k` finishes. -/
def finishedBy (k : Handle) (ms : List Marker) : List Marker :=
  ms.filter fun m => (m.watch.filter fun j => decide (j ≠ k)).isEmpty

theorem map_finishedBy {α : Type} (f : Byte → α) (k : Handle) (ms : List Marker) :
    ((unwatch k ms).filter fun m => m.watch.isEmpty).map (fun m => f m.id) = (finishedBy k ms).map fun m => f m.id := by
  rw [unwatch, List.filter_map, List.map_map]
  rfl

section
variable (w : Work) (k : Handle)

theorem Work.freePack_markers : (w.freePack k).reg.markers = (unwatch k w.reg.markers).filter fun m => !m.watch.isEmpty := by
  unfold Work.freePack
  simp

theorem Work.freePack_drains :
    (w.freePack k).drains = w.drains ++ (finishedBy k w.reg.markers).map fun m => m.id := by
  rw [← map_finishedBy (fun x => x)]
  unfold Work.freePack
  simp

theorem Work.freePack_pack_self : (w.freePack k).pack k = PackRec.cleared :=
  (congrArg (fun P : Plant => P.pack k) (w.freePack_plant k)).trans (Function.update_self ..)

theorem Work.freePack_classQueue (c : ClassId) : (w.freePack k).classQueue c = w.classQueue c :=
  congrArg (fun P : Plant => P.queue c) (w.freePack_plant k)

theorem Work.freePack_keeps : (w.freePack k).stapler = w.stapler ∧ (w.freePack k).ret = w.ret
    ∧ (w.freePack k).notices = w.notices ∧ (w.freePack k).report = w.report ∧ (w.freePack k).run = w.run := by
  unfold Work.freePack
  simp

theorem Work.freePack_serial : (w.freePack k).reg.serial = w.reg.serial := by
  unfold Work.freePack
  simp

end

/-! ### A pack that is gone -/

/-- Pack `k` is FREE or DISPOSING, and in neither the staple queue nor the delivery queue. -/
structure State.Gone (s : State) (k : Handle) : Prop where
  state : (s.pack k).state = .free ∨ (s.pack k).state = .disposing
  staple : k ∉ s.stapler.queue
  delivery : k ∉ s.ret.queue

section
variable {w v : Work} {k : Handle}

theorem State.Gone.fixed {s : State} (h : s.Gone k) : (s.pack k).state.fixedInSettling = true := by
  rcases h.state with e | e <;> rw [e] <;> rfl

/-- The settling leaves a pack that is gone as it is, so it stays gone while it joins no delivery queue. -/
theorem State.Gone.of_settles (h : w.Gone k) (hs : Settles w v) (hd : k ∉ v.ret.queue) : v.Gone k :=
  ⟨by rw [hs.stands k h.staple h.fixed]; exact h.state, fun hv => h.staple (hs.stapleQueue k hv), hd⟩

theorem Work.mem_judge_queue (h : k ∈ w.judge.ret.queue) : k ∈ w.ret.queue ∨ (w.pack k).state = .ready := by
  change k ∈ w.ret.queue ++ sortByAge w.older (w.live.filter fun h => w.eligible h && !w.ret.queue.contains h) at h
  rw [List.mem_append, mem_sortByAge, List.mem_filter, Bool.and_eq_true] at h
  exact h.imp_right fun hj => State.eligible_ready hj.2.1

theorem State.Gone.judge (h : w.Gone k) : w.judge.Gone k :=
  h.of_settles (Settles.refl w).judge fun hk => by
    rcases Work.mem_judge_queue hk with hq | hr
    · exact h.delivery hq
    · rcases h.state with e | e <;> rw [e] at hr <;> cases hr

theorem Work.finishPack_ret (w : Work) (j : Handle) (f : PackFlags) :
    ∃ x : Work, (w.finishPack j f).ret = x.judge.ret ∧ x.ret = w.ret ∧ ∀ i, i ≠ j → x.pack i = w.pack i := by
  unfold Work.finishPack Work.goReady
  dsimp only
  refine ⟨_, rfl, ?_, fun i hi => ?_⟩
  · split <;> simp [Work.holdPocket]
  · rw [Work.pack_setPack_ne _ _ hi]
    split <;> simp

theorem State.Gone.startVolume (h : w.Gone k) (j : WorkRec) (hi : w.stapler.state = .idle)
    (hj : j.handle ∈ w.stapler.queue) : (w.startVolume j).Gone k := by
  have hne : k ≠ j.handle := fun e => h.staple (e ▸ hj)
  refine h.of_settles ((Settles.refl w).startVolume j hi hj) fun hk => ?_
  by_cases hn : w.stapler.remaining < patternCount (w.pack j.handle).snap.pattern
  · rw [show w.startVolume j = w.shortVolume j from if_pos hn] at hk
    unfold Work.shortVolume at hk
    dsimp only at hk
    split at hk
    · exact h.delivery hk
    · obtain ⟨x, hx, hret, hpack⟩ := Work.finishPack_ret (w.latch .staplesOut) j.handle
        (if j.stapled = 0 then { (w.pack j.handle).flags with unstapled := true }
          else { (w.pack j.handle).flags with partlyStapled := true })
      rw [hx] at hk
      rcases Work.mem_judge_queue hk with hq | hr
      · rw [hret] at hq
        exact h.delivery hq
      · rw [hpack k hne, Work.pack_latch] at hr
        rcases h.state with e | e <;> rw [e] at hr <;> cases hr
  · rw [(w.startVolume_ret j (Nat.not_lt.1 hn)).2] at hk
    exact h.delivery hk

theorem State.Gone.takeUp (n : Nat) (h : w.Gone k) : (Work.takeUp n w).Gone k := by
  induction n generalizing w with
  | zero => exact h
  | succ n ih =>
    unfold Work.takeUp
    split
    · exact h
    next j _ hq =>
      split
      next hi =>
        rw [Bool.and_eq_true, decide_eq_true_eq] at hi
        refine ih (h.startVolume _ hi.1 ?_)
        rw [State.workFor_handle, hq]
        exact List.mem_cons_self
      · exact h

theorem State.Gone.startDelivery (h : w.Gone k) : w.startDelivery.Gone k := by
  refine h.of_settles (Settles.refl w).startDelivery fun hk => ?_
  unfold Work.startDelivery at hk
  split at hk
  · split at hk
    · exact h.delivery hk
    · split at hk
      · rw [(w.beginDelivery_ret _ _ _).2.2] at hk
        exact h.delivery (List.mem_filter.1 hk).1
      · exact h.delivery hk
  · exact h.delivery hk

/-- What no step of a walk along a list changes stands at its end. -/
theorem Work.each_same {α β : Type} (g : Work → β) (f : Work → α → Work) (h : ∀ x a, g (f x a) = g x) (l : List α)
    (w : Work) : g (w.each f l) = g w := by
  induction l generalizing w with
  | nil => rfl
  | cons a l ih => exact (ih (f w a)).trans (h w a)

theorem Work.startPurge_ret (w : Work) (p : PocketId) : (w.startPurge p).ret = w.ret := by
  unfold Work.startPurge
  dsimp only
  split
  · rw [Work.setPocket_ret]
  · rfl

theorem Work.startPurges_ret (w : Work) : w.startPurges.ret = w.ret := by
  unfold Work.startPurges
  exact Work.each_same (fun x => x.ret) _ Work.startPurge_ret _ w

theorem Work.startPurge_run (w : Work) (p : PocketId) : (w.startPurge p).run = w.run := by
  unfold Work.startPurge
  dsimp only
  split
  · rw [Work.setPocket_run]
  · rfl

theorem Work.startPurges_run (w : Work) : w.startPurges.run = w.run := by
  unfold Work.startPurges
  exact w.run_each _ _ Work.startPurge_run

/-- Outside STARTING no start-up ends. -/
theorem Work.endStartUp_of_running (h : w.starting = false) : w.endStartUp = w := by
  unfold Work.endStartUp
  split
  next hk => rw [State.starting, hk] at h; cases h
  · rfl

/-- A pack that is gone stays so as the step settles (R25). -/
theorem State.Gone.settle (h : w.Gone k) (hs : w.starting = false) (b : State) : (w.settle b).Gone k := by
  have h1 : w.startPurges.endStartUp.Gone k := by
    rw [Work.endStartUp_of_running (by rw [State.starting, w.startPurges_run]; exact hs)]
    exact h.of_settles (Settles.refl w).startPurges (by rw [w.startPurges_ret]; exact h.delivery)
  have h2 : w.goOn.Gone k := by
    have h3 : w.startPurges.endStartUp.judge.staple.startDelivery.Gone k := (h1.judge.takeUp _).startDelivery
    refine h3.of_settles (Settles.refl _).endStopping ?_
    rw [Work.goOn, (Work.endStopping_same _).2.2.1]
    exact h3.delivery
  rw [Work.settle_eq]
  refine h2.of_settles (((((Settles.refl w.goOn).decideReleases.timeWaits.timeBlock).judgeBinFull b)).driveLamps) ?_
  have hret := ((Work.Released.refl w.goOn).decideReleases.timeWaits.timeBlock).standsAlike.queue
  rw [(Work.driveLamps_standAlike _).queue, (Work.judgeBinFull_standsAlike _ b).queue, hret]
  exact h2.delivery

end

/-! ### A withdraw (R19) -/

theorem Work.requestPurge_shape (w : Work) (p : PocketId) : ∃ ps m o, w.requestPurge p =
    { w with pockets := ps, tables := { w.tables with mark := m }, occasion := o } := by
  have hset (r : PocketRec) : ∃ ps m o, w.setPocket p r =
      { w with pockets := ps, tables := { w.tables with mark := m }, occasion := o } := by
    obtain ⟨m, o, h⟩ := w.setPocket_shape p r
    exact ⟨_, m, o, h⟩
  unfold Work.requestPurge
  dsimp only
  split
  · exact hset _
  · exact hset _
  · exact hset _
  all_goals exact ⟨_, _, _, rfl⟩

theorem Work.purgeHeld_shape (w : Work) (p : Option PocketId) : ∃ ps m o, w.purgeHeld p =
    { w with pockets := ps, tables := { w.tables with mark := m }, occasion := o } := by
  cases p with
  | none => exact ⟨_, _, _, rfl⟩
  | some p => exact w.requestPurge_shape p

/-- The pack out of its class queue, the staple queue and the delivery queue. -/
def Work.leaveQueues (w : Work) (h : Handle) : Work := ((w.leaveClassQueue h).leaveStapleQueue h).leaveDeliveryQueue h

section
variable (w : Work) (h : Handle)

theorem Work.leaveQueues_keeps : (w.leaveQueues h).reg.markers = w.reg.markers ∧ (w.leaveQueues h).reg.serial = w.reg.serial
    ∧ (w.leaveQueues h).drains = w.drains ∧ (w.leaveQueues h).notices = w.notices
    ∧ (w.leaveQueues h).report = w.report ∧ (w.leaveQueues h).run = w.run := by
  simp [Work.leaveQueues, Work.leaveDeliveryQueue, Work.leaveStapleQueue, Work.leaveClassQueue]

theorem Work.withdrawPack_announced (ha : (w.pack h).state = .announced) :
    w.withdrawPack h = (w.leaveQueues h).freePack h := if_pos ha

theorem Work.withdrawPack_other (ha : (w.pack h).state ≠ .announced) : w.withdrawPack h
    = ((w.leaveQueues h).setPack h { w.pack h with state := .disposing }).purgeHeld (w.pack h).pocket := if_neg ha

/-- What a withdraw leaves alone, and what it takes the pack out of. -/
structure Work.Withdrawn (v : Work) : Prop where
  pack : v.pack h = if (w.pack h).state = .announced then PackRec.cleared else { w.pack h with state := .disposing }
  classQueue : ∀ c, v.classQueue c = if c = (w.pack h).cls then (w.classQueue c).filter fun k => decide (k ≠ h)
    else w.classQueue c
  staple : v.stapler.queue = w.stapler.queue.filter fun k => decide (k ≠ h)
  delivery : v.ret.queue = w.ret.queue.filter fun k => decide (k ≠ h)
  markers : v.reg.markers = if (w.pack h).state = .announced then (unwatch h w.reg.markers).filter fun m => !m.watch.isEmpty
    else w.reg.markers
  drains : v.drains = w.drains
    ++ if (w.pack h).state = .announced then (finishedBy h w.reg.markers).map fun m => m.id else []
  serial : v.reg.serial = w.reg.serial
  notices : v.notices = w.notices
  report : v.report = w.report
  run : v.run = w.run

theorem Work.withdrawPack_withdrawn : w.Withdrawn h (w.withdrawPack h) := by
  obtain ⟨hm, hs, hd, hn, hp, hr⟩ := w.leaveQueues_keeps h
  have hclass (c : ClassId) : (w.leaveQueues h).classQueue c
      = if c = (w.pack h).cls then (w.classQueue c).filter fun k => decide (k ≠ h) else w.classQueue c := by
    refine (congrArg (fun P : Plant => P.queue c) (w.leaveClassQueue_plant h)).trans ((Function.update_apply w.classQueue
      (w.pack h).cls ((w.classQueue (w.pack h).cls).filter fun k => decide (k ≠ h)) c).trans ?_)
    split
    next e => rw [e]
    · rfl
  have hstaple : (w.leaveQueues h).stapler.queue = w.stapler.queue.filter fun k => decide (k ≠ h) := by
    simp [Work.leaveQueues, Work.leaveDeliveryQueue, Work.leaveStapleQueue, Work.leaveClassQueue]
  have hdelivery : (w.leaveQueues h).ret.queue = w.ret.queue.filter fun k => decide (k ≠ h) := by
    simp [Work.leaveQueues, Work.leaveDeliveryQueue, Work.leaveStapleQueue, Work.leaveClassQueue]
  by_cases ha : (w.pack h).state = .announced
  · rw [w.withdrawPack_announced h ha]
    have hkeep := (w.leaveQueues h).freePack_keeps h
    refine ⟨?_, fun c => ?_, ?_, ?_, ?_, ?_, ?_, ?_, ?_, ?_⟩
    · rw [if_pos ha, Work.freePack_pack_self]
    · rw [Work.freePack_classQueue, hclass]
    · rw [hkeep.1, hstaple]
    · rw [hkeep.2.1, hdelivery]
    · rw [if_pos ha, Work.freePack_markers, hm]
    · rw [if_pos ha, Work.freePack_drains, hm, hd]
    · rw [Work.freePack_serial, hs]
    · rw [hkeep.2.2.1, hn]
    · rw [hkeep.2.2.2.1, hp]
    · rw [hkeep.2.2.2.2, hr]
  · rw [w.withdrawPack_other h ha]
    obtain ⟨ps, m, o, e⟩ := ((w.leaveQueues h).setPack h { w.pack h with state := .disposing }).purgeHeld_shape (w.pack h).pocket
    rw [e]
    refine ⟨?_, fun c => ?_, ?_, ?_, ?_, ?_, ?_, ?_, ?_, ?_⟩
    · rw [if_neg ha]
      exact Work.pack_setPack_self _ _ _
    · rw [← hclass]
      exact congrArg (fun P : Plant => P.queue c) ((w.leaveQueues h).setPack_plant h { w.pack h with state := .disposing })
    all_goals simp only [Work.setPack_stapler, Work.setPack_ret, Work.setPack_reg, Work.setPack_drains, Work.setPack_notices,
      Work.setPack_report, Work.setPack_run, if_neg ha, List.append_nil]
    all_goals assumption

end

section
variable {w : Work} {handle : Byte} {h : Handle}

theorem Work.packWithdraw_unnamed (h0 : handle = 0) : w.packWithdraw handle = w.answer kindPackWithdraw .badValue := by
  unfold Work.packWithdraw
  rw [named_eq_none (.inl (by rw [h0]; rfl))]

theorem Work.packWithdraw_refused (hh : handle.toNat = h.val + 1) {status : Status}
    (hr : withdrawRefusal (w.pack h).state = some status) : w.packWithdraw handle = w.answer kindPackWithdraw status := by
  unfold Work.packWithdraw
  rw [named_of_eq_succ hh]
  dsimp only
  rw [hr]

theorem Work.packWithdraw_accepted (hh : handle.toNat = h.val + 1) (hr : withdrawRefusal (w.pack h).state = none) :
    w.packWithdraw handle = ((w.withdrawPack h).settle w.toState).answer kindPackWithdraw .accepted
      [packStateCode (w.pack h).state] := by
  unfold Work.packWithdraw
  rw [named_of_eq_succ hh]
  dsimp only
  rw [hr]

end

theorem withdrawRefusal_of {st : PackState} (h1 : st ≠ .free) (h2 : st ≠ .disposing) (h3 : st ≠ .delivering) :
    withdrawRefusal st = none := by
  cases st <;> first | rfl | contradiction

end Sys2Proof.Machine

namespace Sys2Proof.Proofs

open Sys2Proof.Machine


/-- Settles O36: each refusal is the Pack Register's, and what is withdrawn is gone as the step settles. -/
theorem withdrawIsDecidedByTheState : Obligations.WithdrawIsDecidedByTheState := by
  unfold Obligations.WithdrawIsDecidedByTheState
  intro handle s ht
  obtain ⟨l, hl, -⟩ := s.takenFor_link (.packWithdraw false handle)
  obtain ⟨T, hT⟩ : ∃ T, T = s.takenFor (.packWithdraw false handle) := ⟨_, rfl⟩
  have hpack : ∀ x, T.pack x = s.pack x := fun x => by rw [hT, hl]; rfl
  have refuse {h : Handle} {status : Status} (hh : handle.toNat = h.val + 1)
      (hr : withdrawRefusal (s.pack h).state = some status) (hf : s.attentionFollows) :=
    exec_answers ht hf (Work.packWithdraw_refused (w := Work.of (s.takenFor (.packWithdraw false handle))) hh
      (by rw [← hT]; exact (hpack h).symm ▸ hr))
  refine ⟨fun h0 hf => exec_answers ht hf (Work.packWithdraw_unnamed h0), fun h hh => ⟨fun hs hf => ?_, fun hs hf => ?_,
    fun h1 h2 h3 => ?_⟩⟩
  · exact refuse hh (by rcases hs with e | e <;> rw [e] <;> rfl) hf
  · exact refuse hh (by rw [hs]; rfl) hf
  · obtain ⟨u, hu⟩ : ∃ u, u = (Work.of T).withdrawPack h := ⟨_, rfl⟩
    obtain ⟨v, hv⟩ : ∃ v, v = u.settle T := ⟨_, rfl⟩
    have hpackW : (Work.of T).pack h = s.pack h := hpack h
    have hexec : exec (.packWithdraw false handle) s = .next
        (v.answer kindPackWithdraw .accepted [packStateCode (s.pack h).state]).finish := by
      rw [exec_taken ht, ← hT, hv, hu, ← hpack h]
      exact congrArg (fun x : Work => Host.Outcome.next x.finish)
        (Work.packWithdraw_accepted (w := Work.of T) hh (withdrawRefusal_of (by rwa [hpackW]) (by rwa [hpackW])
          (by rwa [hpackW])))
    have hw : (Work.of T).Withdrawn h u := hu ▸ Work.withdrawPack_withdrawn _ h
    have hlive : ((Work.of T).pack h).state ≠ .free := by rwa [hpackW]
    have hfrom : Work.From T u := hu ▸ (Work.From.of T).evolves ((Evolves.refl _).withdrawPack h hlive) (Work.frame_withdrawPack _ h)
    have hstarting : u.starting = false := by
      rw [State.starting, hw.run, Work.of_toState, show T.run = s.run by rw [hT, hl]]
      exact State.starting_of_takesCommand ht
    have hs : Settles u v := hv ▸ Settles.settle T u hstarting
    have hgone : u.Gone h := by
      refine ⟨?_, by rw [hw.staple]; simp, by rw [hw.delivery]; simp⟩
      rw [hw.pack]
      split
      · exact .inl rfl
      · exact .inr rfl
    have hgoneV : v.Gone h := hv ▸ hgone.settle hstarting T
    have hfromV : Work.From T v := hv ▸ hfrom.settle T
    refine ⟨_, hexec, by rw [← hT]; exact (hfromV.answer _ _ _ _).surrounds, ?_, ?_, fun c => ?_, ?_, ?_, ?_, ?_⟩
    · obtain ⟨x, hx, htold⟩ := Work.finish_order
        (w := v.answer kindPackWithdraw .accepted [packStateCode (s.pack h).state]) (by
          change v.nonNotices = []
          rw [hv, Work.nonNotices_settle, Work.nonNotices, hw.notices]
          rfl)
      refine ⟨x, hx, htold.trans ?_⟩
      change v.told ++ x ++ [_] ++ v.drains.map _ ++ (v.report.map _).toList = _
      rw [hfromV.told_eq, hs.drains, hs.report, hw.drains, hw.report, show T.told = s.told by rw [hT, s.takenFor_told],
        Work.of_toState, hpack, show T.reg = s.reg by rw [hT, hl]]
      by_cases ha : (s.pack h).state = .announced
      · simp [ha, Work.of, Reply.record, finishedBy, Function.comp_def]
      · simp [ha, Work.of, Reply.record]
    · rw [Work.finish_pack]
      refine (hs.stands h hgone.staple hgone.fixed).trans (hw.pack.trans ?_)
      rw [Work.of_toState, hpack]
      simp
    · rw [Work.finish_classQueue]
      have hq : v.classQueue c = u.classQueue c := by rw [State.classQueue, hs.queues]; rfl
      refine hq.trans ((hw.classQueue c).trans ?_)
      rw [Work.of_toState, hpack, show T.classQueue = s.classQueue by rw [hT, hl]; rfl]
    · rw [Work.finish_stapler]
      exact hgoneV.staple
    · rw [Work.finish_ret]
      exact hgoneV.delivery
    · rw [Work.finish_reg]
      refine hs.markers.trans (hw.markers.trans ?_)
      rw [Work.of_toState, hpack, show T.reg = s.reg by rw [hT, hl]]
      simp
    · rw [Work.finish_reg]
      exact hs.serial.trans (hw.serial.trans (by rw [Work.of_toState, hT, hl]))

end Sys2Proof.Proofs
end

section
/-! SUPPORT. What a release does (`Work.Release`) and what release decisions do, one after another, until none is due
(`Work.Decides`). -/

namespace Sys2Proof.Machine

section
variable {w v : Work} {f : FeedId}

/-! ### One release (R52, R69) -/

theorem State.choose_verdict {s : State} (h : s.choose = some f) :
    (s.verdict f).isPlain = true ∨ (s.verdict f).isCollate = true := by
  have test {t : Verdict → Bool} (hd : s.dueWith f t = true) : t (s.verdict f) = true := by
    simp only [State.dueWith, Bool.and_eq_true] at hd
    exact hd.1.2
  unfold State.choose at h
  split at h
  · split at h
    next hd => cases h; exact .inr (test hd)
    · cases h
  · split at h
    next hf => cases h; exact .inl (test (t := Verdict.isPlain) (by simpa using List.find?_some hf))
    · exact .inr (test (t := Verdict.isCollate) (by simpa using (List.mem_filter.1 (firstBy_mem h)).2))

/-- The work as its pulse is given and the block timer starts again (R52, R63). -/
def Work.pulsed (w : Work) (f : FeedId) : Work := (w.pulse f).restartTimer

/-- What the release of feed `f` is, by the disposition of its sheet. -/
inductive Work.Release (w : Work) (f : FeedId) : Work → Prop
  | pass (hb : w.run.state = .bypass) : Release w f ((w.pulsed f).releaseBare f .untagged .pass)
  | unannounced (hb : w.run.state ≠ .bypass) (hd : w.feeds[f].discard = true) :
    Release w f (((w.pulsed f).releaseBare f .any .discard).latch .unannounced)
  | unwanted (e : StagingEntry) (q : List StagingEntry) (hb : w.run.state ≠ .bypass) (hd : w.feeds[f].discard = false)
    (hq : w.feeds[f].queue = e :: q) (hj : w.judgeEntry e = .discard) :
    Release w f ((w.pulsed f).releaseHead f e .discard)
  | opens (e : StagingEntry) (q : List StagingEntry) (p : PocketId) (hb : w.run.state ≠ .bypass)
    (hd : w.feeds[f].discard = false) (hq : w.feeds[f].queue = e :: q) (hj : w.judgeEntry e = .collate (some p)) :
    Release w f (((w.pulsed f).releaseHead f e .collate).openPack e.handle p)
  | nextPage (e : StagingEntry) (q : List StagingEntry) (hb : w.run.state ≠ .bypass) (hd : w.feeds[f].discard = false)
    (hq : w.feeds[f].queue = e :: q) (hj : w.judgeEntry e = .collate none) :
    Release w f (((w.pulsed f).releaseHead f e .collate).pageReleased e.handle)

theorem State.verdict_of_bypass {s : State} (h : s.run.state = .bypass) : s.verdict f = .pass := if_pos h

theorem State.verdict_empty {s : State} (hb : s.run.state ≠ .bypass) (hd : s.feeds[f].discard = false)
    (hq : s.feeds[f].queue = []) : s.verdict f = .waiting true := by
  rw [State.verdict, if_neg hb, if_neg (by rw [hd]; exact Bool.false_ne_true), hq]

theorem Work.release_is (hc : w.choose = some f) : w.Release f (w.release f) := by
  have hv := State.choose_verdict hc
  unfold Work.release
  dsimp only
  by_cases hb : w.run.state = .bypass
  · rw [State.verdict_of_bypass hb]
    exact .pass hb
  by_cases hd : w.feeds[f].discard = true
  · rw [State.verdict_of_discard hb hd, hd]
    exact .unannounced hb hd
  have hd : w.feeds[f].discard = false := by simpa using hd
  cases hq : w.feeds[f].queue with
  | nil => rw [State.verdict_empty hb hd hq] at hv; rcases hv with h | h <;> cases h
  | cons e q =>
    have he := State.verdict_of_head hb hd (List.head?_eq_some_iff.2 ⟨q, hq⟩)
    rw [he] at hv ⊢
    rw [hd]
    cases hj : w.judgeEntry e with
    | pass => exact absurd hj State.judgeEntry_ne_pass
    | waiting o => rw [hj] at hv; rcases hv with h | h <;> cases h
    | discard => exact .unwanted e q hb hd hq hj
    | collate p =>
      cases p with
      | none => exact .nextPage e q hb hd hq hj
      | some p => exact .opens e q p hb hd hq hj

/-- Feed `f`'s record once its sheet is released (R38, R40, R52, R69). -/
def State.releasedFeed (s : State) (f : FeedId) : FeedRec :=
  { s.feeds[f] with
    shelf := .clearing, discard := false
    queue := if s.run.state = .bypass ∨ s.feeds[f].discard = true then s.feeds[f].queue else s.feeds[f].queue.tail }

theorem Work.releaseBare_feeds (w : Work) (f : FeedId) (t : EntryTag) (d : Disposition) : (w.releaseBare f t d).feeds
    = w.feeds.set f { w.feeds[f] with shelf := .clearing, discard := false } := by
  unfold Work.releaseBare Work.appendInFlight
  simp

theorem Work.releaseHead_feeds (w : Work) (f : FeedId) (e : StagingEntry) (d : Disposition) : (w.releaseHead f e d).feeds
    = w.feeds.set f { w.feeds[f] with shelf := .clearing, queue := w.feeds[f].queue.tail } := by
  unfold Work.releaseHead Work.appendInFlight
  simp

theorem Work.openPack_feeds (w : Work) (k : Handle) (p : PocketId) : (w.openPack k p).feeds = w.feeds := by
  unfold Work.openPack Work.openPocket
  dsimp only
  split <;> simp

theorem Work.pageReleased_feeds (w : Work) (k : Handle) : (w.pageReleased k).feeds = w.feeds := by
  unfold Work.pageReleased
  simp

theorem Work.Release.feeds (h : w.Release f v) : v.feeds = w.feeds.set f (w.releasedFeed f) := by
  have head (hb : w.run.state ≠ .bypass) (hd : w.feeds[f].discard = false) :
      ({ w.feeds[f] with shelf := .clearing, queue := w.feeds[f].queue.tail } : FeedRec) = w.releasedFeed f := by
    rw [State.releasedFeed, if_neg (by rw [hd]; simp [hb]), ← hd]
  have bare (hb : w.run.state = .bypass ∨ w.feeds[f].discard = true) :
      ({ w.feeds[f] with shelf := .clearing, discard := false } : FeedRec) = w.releasedFeed f := by
    rw [State.releasedFeed, if_pos hb]
  have bareSet (t : EntryTag) (d : Disposition) (hb : w.run.state = .bypass ∨ w.feeds[f].discard = true) :
      ((w.pulsed f).releaseBare f t d).feeds = w.feeds.set f (w.releasedFeed f) := by
    rw [Work.releaseBare_feeds, ← bare hb]
    rfl
  have headSet (e : StagingEntry) (d : Disposition) (hb : w.run.state ≠ .bypass) (hd : w.feeds[f].discard = false) :
      ((w.pulsed f).releaseHead f e d).feeds = w.feeds.set f (w.releasedFeed f) := by
    rw [Work.releaseHead_feeds, ← head hb hd]
    rfl
  cases h with
  | pass hb => exact bareSet _ _ (.inl hb)
  | unannounced hb hd => exact bareSet .any .discard (.inr hd)
  | unwanted e q hb hd hq hj => exact headSet _ _ hb hd
  | opens e q p hb hd hq hj => exact (Work.openPack_feeds ..).trans (headSet _ _ hb hd)
  | nextPage e q hb hd hq hj => exact (Work.pageReleased_feeds ..).trans (headSet _ _ hb hd)

/-! ### Decisions until none is due (R47) -/

/-- The work as a release decision is to be made: the age of A_last bounded, a break pick dropped that may no longer be
released (R54, R65). -/
def Work.poised (w : Work) : Work := w.boundALast.dropPick

/-- `v` follows from `w` by release decisions, the last of which releases nothing. -/
inductive Work.Decides : Work → Work → Prop
  | done {w : Work} (hc : w.poised.choose = none) : Decides w w.poised
  | next {w v : Work} {f : FeedId} (hc : w.poised.choose = some f) (hd : Decides (w.poised.release f) v) : Decides w v

theorem Work.poised_shape (w : Work) : ∃ p, (p = w.arb.pick ∨ p = none)
    ∧ w.poised = { w with arb := { w.arb with aLast := boundedALast w.now w.arb.aLast, pick := p } } := by
  unfold Work.poised Work.dropPick
  split
  · exact ⟨_, .inl rfl, rfl⟩
  · split
    · exact ⟨_, .inl rfl, rfl⟩
    · exact ⟨none, .inr rfl, rfl⟩

/-- The feeds with a sheet PRESENT. -/
def State.presentFeeds (s : State) : Nat := (allFeeds.filter fun f => decide (s.feeds[f].shelf = .present)).length

theorem State.presentFeeds_le (s : State) : s.presentFeeds ≤ 4 := List.length_filter_le _ _

theorem Work.Release.presentFeeds (h : w.Release f v) (hp : w.feeds[f].shelf = .present) : v.presentFeeds < w.presentFeeds := by
  have hshelf (g : FeedId) : v.feeds[g].shelf = if g = f then .clearing else w.feeds[g].shelf := by
    rw [h.feeds]
    split
    next e => subst e; exact congrArg FeedRec.shelf (Vector.getElem_set_self g.isLt)
    next e => exact congrArg FeedRec.shelf (Vector.getElem_set_ne f.isLt g.isLt (Fin.val_ne_of_ne (Ne.symm e)))
  unfold State.presentFeeds
  have hfilter : (allFeeds.filter fun g => decide (v.feeds[g].shelf = .present))
      = (allFeeds.filter fun g => decide (w.feeds[g].shelf = .present)).filter fun g => decide (g ≠ f) := by
    rw [List.filter_filter]
    refine List.filter_congr fun g _ => ?_
    rw [hshelf]
    by_cases e : g = f
    · simp [e]
    · simp [e]
  rw [hfilter]
  exact List.length_filter_lt_length_iff_exists.2 ⟨f, List.mem_filter.2 ⟨mem_allFeeds f, decide_eq_true hp⟩, by simp⟩

theorem Work.decideUpTo_decides (n : Nat) (hn : w.presentFeeds < n) : w.Decides (Work.decideUpTo n w) := by
  induction n generalizing w with
  | zero => cases hn
  | succ n ih =>
    unfold Work.decideUpTo
    dsimp only
    split
    next hc => exact .done hc
    next f hc =>
      refine .next hc (ih ?_)
      have hsame : w.poised.presentFeeds = w.presentFeeds := by
        obtain ⟨p, -, e⟩ := w.poised_shape
        rw [e]
        rfl
      have := (Work.release_is hc).presentFeeds (State.candidate_present (State.choose_candidate hc)).1
      change _ < w.poised.presentFeeds at this
      change (w.poised.release f).presentFeeds < w.poised.presentFeeds at this
      change (w.poised.release f).presentFeeds < n
      omega

/-- Where an occasion has come, decisions go on until none is due; where none has, none is made. -/
theorem Work.decideReleases_is (w : Work) :
    (w.occasion = true ∧ w.Decides w.decideReleases) ∨ (w.occasion = false ∧ w.decideReleases = w) := by
  unfold Work.decideReleases
  cases h : w.occasion with
  | true => exact .inl ⟨rfl, w.decideUpTo_decides 5 (Nat.lt_succ_of_le w.presentFeeds_le)⟩
  | false => exact .inr ⟨rfl, rfl⟩

theorem Work.Decides.choose (h : w.Decides v) : v.choose = none := by
  induction h with
  | done hc => exact hc
  | next _ _ ih => exact ih

end

end Sys2Proof.Machine
end

section
/-! SUPPORT. What the settling does to the feeds and the arbiter: `Work.goOn` leaves them alone but for a start-up that
ends in BYPASS, the release decisions take each feed once at most, and the waits follow (`Work.settle_feed`). -/

namespace Sys2Proof.Machine

/-! ### The feeds and the arbiter as the work goes on -/

/-- The feeds, the arbiter and the release outputs, with the notices formed. -/
structure Merge where
  feeds : Vector FeedRec 4
  arb : MergeArbiter
  pulses : Vector Nat 4
  notices : List OutRecord

/-- The feeds, the arbiter and the release outputs of the work in hand, with the notices it formed. -/
def Work.merge (w : Work) : Merge := ⟨w.feeds, w.arb, w.releasePulses, w.notices⟩

section
variable (w : Work)

theorem Work.merge_setPack (k : Handle) (r : PackRec) : (w.setPack k r).merge = w.merge := by
  simp only [Work.merge, Work.setPack_feeds, Work.setPack_arb, Work.setPack_releasePulses, Work.setPack_notices]

theorem Work.merge_setPocket (p : PocketId) (r : PocketRec) : (w.setPocket p r).merge = w.merge := by
  obtain ⟨m, o, h⟩ := w.setPocket_shape p r
  rw [h]
  rfl

theorem Work.merge_startPurges : w.startPurges.merge = w.merge := by
  unfold Work.startPurges
  refine Work.each_same (fun x => x.merge) _ (fun x p => ?_) _ w
  unfold Work.startPurge
  dsimp only
  split
  · exact x.merge_setPocket p _
  · rfl

theorem Work.merge_setRemaining (n : Nat) : (w.setRemaining n).merge = w.merge := by
  unfold Work.setRemaining Work.judgeStaples
  obtain ⟨m, h⟩ := (w.setStaplerRec { w.stapler with remaining := n }).touchIf_shape
    (decide (n ≠ w.stapler.remaining)) .settings
  dsimp only
  rw [h]
  split <;> rfl

theorem Work.merge_finishPack (k : Handle) (f : PackFlags) : (w.finishPack k f).merge = w.merge := by
  unfold Work.finishPack Work.goReady
  dsimp only
  refine (Work.merge_setPack _ k _).trans ?_
  split
  · rfl
  · exact Work.merge_setPocket _ _ _

theorem Work.merge_startVolume (k : WorkRec) : (w.startVolume k).merge = w.merge := by
  unfold Work.startVolume Work.shortVolume
  dsimp only
  split
  · split
    · rfl
    · exact (Work.merge_finishPack _ _ _).trans rfl
  · have hpack (x : Work) (b : Prop) [Decidable b] (r : PackRec) :
        (if b then x.setPack k.handle r else x).merge = x.merge := by
      split
      · exact x.merge_setPack _ _
      · rfl
    split
    · exact (hpack _ _ _).trans (w.merge_setRemaining _)
    · exact (Work.merge_setPocket _ _ _).trans ((hpack _ _ _).trans (w.merge_setRemaining _))

theorem Work.merge_takeUp (n : Nat) : (Work.takeUp n w).merge = w.merge := by
  induction n generalizing w with
  | zero => rfl
  | succ n ih =>
    unfold Work.takeUp
    split
    · rfl
    · split
      · exact (ih _).trans (w.merge_startVolume _)
      · rfl

theorem Work.merge_setRet (r : ReturnUnit) : (w.setRet r).merge = w.merge := rfl

theorem Work.merge_beginDelivery (k : Handle) (p : PocketId) (b : BinId) : (w.beginDelivery k p b).merge = w.merge := by
  unfold Work.beginDelivery
  dsimp only
  rw [Work.merge_setRet, Work.merge_setPocket, Work.merge_setPack, Work.leaveDeliveryQueue, Work.merge_setRet]

theorem Work.merge_startDelivery : w.startDelivery.merge = w.merge := by
  unfold Work.startDelivery
  split
  · split
    · rfl
    · split
      · exact w.merge_beginDelivery _ _ _
      · rfl
  · rfl

theorem Work.merge_endStopping : w.endStopping.merge = w.merge := by
  rcases w.endStopping_shape with ⟨h, -⟩ | ⟨-, h⟩ <;> rw [h]
  rfl

theorem Work.merge_cutOffs : (w.cutOffVolume.cutOffDelivery.each Work.cutOffPurge allPockets).merge = w.merge := by
  refine (Work.each_same (fun x => x.merge) _ (fun x p => ?_) _ _).trans ?_
  · unfold Work.cutOffPurge
    dsimp only
    split
    · exact x.merge_setPocket p _
    · rfl
  · unfold Work.cutOffDelivery
    split <;> · unfold Work.cutOffVolume; split <;> rfl

theorem Work.merge_halt (c : HaltCause) (t : ResumeTarget) : (w.halt c t).merge = w.merge :=
  (Work.merge_cutOffs _).trans rfl

/-- What a halt, a start of a purge and a wait leave of a feed's record in an empty queue (R36, R41). -/
def FeedRec.flushed (r : FeedRec) : FeedRec := { r with queue := [], discard := false, wait := none }

theorem Work.flushFeed_feed (f g : FeedId) : (w.flushFeed f).feeds[g] = if g = f then w.feeds[f].flushed else w.feeds[g] := by
  unfold Work.flushFeed
  rw [Work.setFeed_feeds]
  split
  next e => subst e; exact Vector.getElem_set_self g.isLt
  next e => exact Vector.getElem_set_ne f.isLt g.isLt (Fin.val_ne_of_ne (Ne.symm e))

theorem Work.flushFeeds_feed (l : List FeedId) (g : FeedId) :
    (w.each Work.flushFeed l).feeds[g] = if g ∈ l then w.feeds[g].flushed else w.feeds[g] := by
  induction l generalizing w with
  | nil => rfl
  | cons f l ih =>
    refine (ih (w.flushFeed f)).trans ?_
    rw [Work.flushFeed_feed]
    by_cases e : g = f
    · subst e
      simp only [if_true, List.mem_cons_self]
      split <;> rfl
    · simp only [List.mem_cons, e, false_or, if_false]

theorem Work.flushFeeds_arb (l : List FeedId) : (w.each Work.flushFeed l).arb = w.arb
    ∧ (w.each Work.flushFeed l).releasePulses = w.releasePulses := by
  constructor
  · exact Work.each_same (fun x => x.arb) _ (fun x f => x.setFeed_arb f _) l w
  · exact Work.each_same (fun x => x.releasePulses) _ (fun x f => x.setFeed_releasePulses f _) l w

theorem Work.enterBypass_merge : (∀ g : FeedId, w.enterBypass.feeds[g] = w.feeds[g].flushed) ∧ w.enterBypass.arb = w.arb
    ∧ w.enterBypass.releasePulses = w.releasePulses := by
  unfold Work.enterBypass
  have h := (w.setRunState .bypass).flushFeeds_arb allFeeds
  refine ⟨fun g => ?_, h.1, h.2⟩
  rw [Work.flushFeeds_feed, if_pos (mem_allFeeds g), Work.setRunState_feeds]

theorem Work.merge_setReport (r : Report) : (w.setReport r).merge = w.merge := rfl

theorem Work.enterTarget_bypass : w.enterTarget .bypass = w.enterBypass := by
  unfold Work.enterTarget
  rfl

theorem Work.enterTarget_of_ne {t : ResumeTarget} (h : t ≠ .bypass) : w.enterTarget t = w.setRunState t.state := by
  unfold Work.enterTarget
  split
  · exact absurd rfl h
  · rfl

/-- `v` has its feeds emptied, in BYPASS, and the arbiter as in `w`. -/
def Work.Bypassed (v : Work) : Prop := w.starting = true ∧ v.run.state = .bypass
  ∧ (∀ g : FeedId, v.feeds[g] = w.feeds[g].flushed) ∧ v.arb = w.arb ∧ v.releasePulses = w.releasePulses

variable {w} in
theorem Work.Bypassed.of {x v u : Work} (h : x.Bypassed v) (hx : x.merge = w.merge) (hs : x.starting = w.starting)
    (hm : u.merge = v.merge) (hr : u.run.state = .bypass) : w.Bypassed u := by
  obtain ⟨hst, -, hf, ha, hp⟩ := h
  refine ⟨hs ▸ hst, hr, fun g => ?_, ?_, ?_⟩
  · rw [show u.feeds = v.feeds from congrArg Merge.feeds hm, hf, show x.feeds = w.feeds from congrArg Merge.feeds hx]
  · exact (congrArg Merge.arb hm).trans (ha.trans (congrArg Merge.arb hx))
  · exact (congrArg Merge.pulses hm).trans (hp.trans (congrArg Merge.pulses hx))

theorem Work.enterTarget_merge (t : ResumeTarget) (hs : w.starting = true) :
    (w.enterTarget t).merge = w.merge ∨ w.Bypassed (w.enterTarget t) := by
  by_cases ht : t = .bypass
  · have hrun := w.runState_enterTarget .bypass
    rw [ht]
    rw [w.enterTarget_bypass] at hrun ⊢
    exact .inr ⟨hs, hrun, w.enterBypass_merge⟩
  · rw [w.enterTarget_of_ne ht]
    exact .inl rfl

/-- A start-up that ends leaves the feeds and the arbiter as they were, but for feeds emptied in BYPASS. -/
theorem Work.endStartUp_merge : w.endStartUp.merge = w.merge ∨ w.Bypassed w.endStartUp := by
  unfold Work.endStartUp
  split
  next kind b hs =>
    split
    · exact .inl rfl
    · unfold Work.leaveStarting
      dsimp only
      split
      · exact .inl ((Work.merge_setReport _ _).trans (w.merge_halt _ _))
      · rcases w.enterTarget_merge (startTarget kind w.run.straps.start) (by rw [State.starting, hs]) with h | h
        · exact .inl ((Work.merge_setReport _ _).trans h)
        · exact .inr (h.of rfl rfl (Work.merge_setReport _ _) h.2.1)
  · exact .inl rfl

theorem Settles.goOn : Settles w.startPurges.endStartUp w.goOn := by
  unfold Work.goOn
  exact (Settles.refl _).judge.staple.startDelivery.endStopping

theorem Work.merge_judge : w.judge.merge = w.merge := rfl

theorem Work.startPurges_starting : w.startPurges.starting = w.starting := by
  rw [State.starting_eq, State.starting_eq, w.startPurges_run]

theorem Work.goOn_merge : w.goOn.merge = w.merge ∨ w.Bypassed w.goOn := by
  have hrest : w.goOn.merge = w.startPurges.endStartUp.merge := by
    unfold Work.goOn Work.staple
    rw [Work.merge_endStopping, Work.merge_startDelivery, Work.merge_takeUp, Work.merge_judge]
  rcases w.startPurges.endStartUp_merge with h | h
  · exact .inl (hrest.trans (h.trans w.merge_startPurges))
  · refine .inr (h.of w.merge_startPurges w.startPurges_starting hrest ?_)
    rcases (Settles.goOn w).run with hsame | ⟨⟨o, ho⟩, -⟩
    · exact hsame.trans h.2.1
    · rw [h.2.1] at ho; cases ho

end

/-! ### The feeds in release decisions -/

/-- Feed `f` has something to release: in BYPASS any sheet, else one that is to be discarded or has an entry. -/
def State.feedOffers (s : State) (f : FeedId) : Prop :=
  s.run.state = .bypass ∨ s.feeds[f].discard = true ∨ s.feeds[f].queue ≠ []

/-- Feed `f` in decisions that lead from `s` to `t`: left alone, or released once, a sheet not announced being latched. -/
def State.FeedDecided (s t : State) (f : FeedId) : Prop :=
  (t.feeds[f] = s.feeds[f] ∧ t.releasePulses[f] = s.releasePulses[f])
    ∨ s.feeds[f].shelf = .present ∧ s.releasing = true ∧ s.feedOffers f ∧ t.feeds[f] = s.releasedFeed f
      ∧ t.releasePulses[f] = s.releasePulses[f] + 1
      ∧ (s.run.state ≠ .bypass → s.feeds[f].discard = true → t.latched .unannounced = true)

section
variable {w v : Work} {f : FeedId}

theorem Work.releaseBare_pulses (w : Work) (f : FeedId) (t : EntryTag) (d : Disposition) :
    (w.releaseBare f t d).releasePulses = w.releasePulses := by
  unfold Work.releaseBare Work.appendInFlight
  exact w.setFeed_releasePulses _ _

theorem Work.releaseHead_pulses (w : Work) (f : FeedId) (e : StagingEntry) (d : Disposition) :
    (w.releaseHead f e d).releasePulses = w.releasePulses := by
  unfold Work.releaseHead Work.appendInFlight
  exact w.setFeed_releasePulses _ _

theorem Work.openPack_pulses (w : Work) (k : Handle) (p : PocketId) : (w.openPack k p).releasePulses = w.releasePulses := by
  unfold Work.openPack Work.openPocket
  dsimp only
  split <;> simp

theorem Work.pageReleased_pulses (w : Work) (k : Handle) : (w.pageReleased k).releasePulses = w.releasePulses := by
  unfold Work.pageReleased
  simp

theorem Work.Release.pulses (h : w.Release f v) : v.releasePulses = w.releasePulses.set f (w.releasePulses[f] + 1) := by
  cases h with
  | pass => exact Work.releaseBare_pulses ..
  | unannounced => exact Work.releaseBare_pulses (w.pulsed f) f .any .discard
  | unwanted => exact Work.releaseHead_pulses ..
  | opens => exact (Work.openPack_pulses ..).trans (Work.releaseHead_pulses ..)
  | nextPage => exact (Work.pageReleased_pulses ..).trans (Work.releaseHead_pulses ..)

theorem Work.Release.unannounced_latched (h : w.Release f v) (hb : w.run.state ≠ .bypass) (hd : w.feeds[f].discard = true) :
    v.latched .unannounced = true := by
  cases h with
  | pass h => exact absurd h hb
  | unannounced => rw [Work.latched_latch]; simp
  | unwanted e q _ h => rw [hd] at h; cases h
  | opens e q p _ h => rw [hd] at h; cases h
  | nextPage e q _ h => rw [hd] at h; cases h

theorem Work.Release.offers (h : w.Release f v) : w.feedOffers f := by
  have head {e : StagingEntry} {q : List StagingEntry} (hq : w.feeds[f].queue = e :: q) : w.feedOffers f :=
    .inr (.inr (by rw [hq]; exact List.cons_ne_nil _ _))
  cases h with
  | pass hb => exact .inl hb
  | unannounced hb hd => exact .inr (.inl hd)
  | unwanted e q hb hd hq hj => exact head hq
  | opens e q p hb hd hq hj => exact head hq
  | nextPage e q hb hd hq hj => exact head hq

/-- A release takes the feed it is made for, and no other. -/
theorem Work.Release.decided (h : w.Release f v) (hc : w.candidate f = true) (g : FeedId) :
    w.toState.FeedDecided v.toState g := by
  by_cases e : g = f
  · subst e
    obtain ⟨hp, hr⟩ := State.candidate_present hc
    refine .inr ⟨hp, hr, h.offers, ?_, ?_, h.unannounced_latched⟩
    · rw [h.feeds]; exact Vector.getElem_set_self g.isLt
    · rw [h.pulses]; exact Vector.getElem_set_self g.isLt
  · refine .inl ⟨?_, ?_⟩
    · rw [h.feeds]; exact Vector.getElem_set_ne f.isLt g.isLt (Fin.val_ne_of_ne (Ne.symm e))
    · rw [h.pulses]; exact Vector.getElem_set_ne f.isLt g.isLt (Fin.val_ne_of_ne (Ne.symm e))

/-- A feed released once is not released again in the step: it is CLEARING. -/
theorem State.FeedDecided.trans {s t u : State} (h : s.FeedDecided t f) (k : t.FeedDecided u f)
    (hr : t.run.state = s.run.state) (hl : ∀ c, t.latched c = true → u.latched c = true) : s.FeedDecided u f := by
  rcases h with ⟨h1, h2⟩ | ⟨h1, h2, ho, h3, h4, h5⟩ <;> rcases k with ⟨k1, k2⟩ | ⟨k1, k2, ko, k3, k4, k5⟩
  · exact .inl ⟨k1.trans h1, k2.trans h2⟩
  · refine .inr ⟨h1 ▸ k1, ?_, by rwa [State.feedOffers, h1, hr] at ko, ?_, by rw [k4, h2], fun hb hd => k5 (by rwa [hr]) (by rwa [h1])⟩
    · rw [State.releasing, ← hr]; exact k2
    · rw [k3, State.releasedFeed, State.releasedFeed, h1, hr]
  · exact .inr ⟨h1, h2, ho, k1.trans h3, k2.trans h4, fun hb hd => hl _ (h5 hb hd)⟩
  · rw [h3] at k1; cases k1

theorem Work.poised_feedDecided (w : Work) (f : FeedId) : w.toState.FeedDecided w.poised.toState f := by
  obtain ⟨p, -, e⟩ := w.poised_shape
  rw [e]
  exact .inl ⟨rfl, rfl⟩

theorem Work.poised_same (w : Work) : w.poised.run = w.run ∧ w.poised.feeds = w.feeds ∧ w.poised.attn = w.attn
    ∧ w.poised.reg = w.reg ∧ w.poised.pockets = w.pockets ∧ w.poised.tables = w.tables ∧ w.poised.now = w.now := by
  obtain ⟨p, -, e⟩ := w.poised_shape
  rw [e]
  exact ⟨rfl, rfl, rfl, rfl, rfl, rfl, rfl⟩

/-- Decisions only set latches. -/
theorem Work.Decides.evolves (h : w.Decides v) : Evolves w v := by
  induction h with
  | @done w _ => exact (Evolves.refl w).boundALast.dropPick
  | @next w _ f _ _ ih => exact ((Evolves.refl w).boundALast.dropPick.release f).trans ih

theorem Work.Decides.released (h : w.Decides v) : w.Released v := by
  induction h with
  | @done w _ => exact (Work.Released.refl w).boundALast.dropPick
  | @next w _ f _ _ ih => exact ((Work.Released.refl w).boundALast.dropPick.release f).trans ih

/-- Decisions take each feed once at most. -/
theorem Work.Decides.feed (h : w.Decides v) (g : FeedId) : w.toState.FeedDecided v.toState g := by
  induction h with
  | @done w _ => exact w.poised_feedDecided g
  | @next w v f hc hd ih =>
    have hstep := (Work.release_is hc).decided (State.choose_candidate hc) g
    have hrun : (w.poised.release f).run = w.poised.run := ((Work.Released.refl w.poised).release f).run
    refine (w.poised_feedDecided g).trans (hstep.trans ih (by rw [hrun]) hd.evolves.latched) (by rw [w.poised_same.1]) ?_
    exact (((Evolves.refl w.poised).release f).trans hd.evolves).latched

theorem Work.decideReleases_feed (w : Work) (g : FeedId) : w.toState.FeedDecided w.decideReleases.toState g := by
  rcases w.decideReleases_is with ⟨-, h⟩ | ⟨-, h⟩
  · exact h.feed g
  · rw [h]; exact .inl ⟨rfl, rfl⟩

end

end Sys2Proof.Machine
end

section
/-! SUPPORT. The waits and the block timer as the step settles, and what the choice among the sheets due reads
(`State.SameChoice`). -/

namespace Sys2Proof.Machine

/-! ### What the choice reads (R48 to R53, R63) -/

/-- A pack's state as release decisions tell it: those of a pack with all its pages in are one. -/
def PackState.merged : PackState → PackState
  | .complete => .complete
  | .stapling => .complete
  | .ready => .complete
  | .delivering => .complete
  | .free => .free
  | .announced => .announced
  | .opened => .opened
  | .restarting => .restarting
  | .disposing => .disposing

/-- What release decisions read of a pack. -/
def PackRec.merged (r : PackRec) : PackState × ClassId × Half × Nat × Nat × Nat :=
  (r.state.merged, r.cls, r.serial, r.gen, r.released, r.pages)

/-- Release decisions read the same in both states. -/
structure State.SameChoice (s t : State) : Prop where
  feeds : ∀ f : FeedId, { t.feeds[f] with wait := none } = { s.feeds[f] with wait := none }
  run : t.run.state = s.run.state
  inFlight : t.arb.inFlight = s.arb.inFlight
  aLast : t.arb.aLast = s.arb.aLast
  pick : t.arb.pick = s.arb.pick
  now : t.now = s.now
  tables : { t.tables with mark := none } = { s.tables with mark := none }
  queues : ∀ c, t.classQueue c = s.classQueue c
  packs : ∀ k, (t.pack k).merged = (s.pack k).merged
  pockets : ∀ p : PocketId, (t.pockets[p].state = .empty ↔ s.pockets[p].state = .empty)
    ∧ (t.pockets[p].state = .outOfService ↔ s.pockets[p].state = .outOfService)

namespace State.SameChoice

variable {s t u : State}

theorem refl (s : State) : s.SameChoice s :=
  ⟨fun _ => rfl, rfl, rfl, rfl, rfl, rfl, rfl, fun _ => rfl, fun _ => rfl, fun _ => ⟨Iff.rfl, Iff.rfl⟩⟩

theorem trans (h : s.SameChoice t) (k : t.SameChoice u) : s.SameChoice u :=
  ⟨fun f => (k.feeds f).trans (h.feeds f), k.run.trans h.run, k.inFlight.trans h.inFlight, k.aLast.trans h.aLast,
    k.pick.trans h.pick, k.now.trans h.now, k.tables.trans h.tables, fun c => (k.queues c).trans (h.queues c),
    fun x => (k.packs x).trans (h.packs x),
    fun p => ⟨(k.pockets p).1.trans (h.pockets p).1, (k.pockets p).2.trans (h.pockets p).2⟩⟩

variable (h : s.SameChoice t)
include h

theorem feed (f : FeedId) : t.feeds[f].state = s.feeds[f].state ∧ t.feeds[f].queue = s.feeds[f].queue
    ∧ t.feeds[f].shelf = s.feeds[f].shelf ∧ t.feeds[f].discard = s.feeds[f].discard := by
  have hf := h.feeds f
  simp only [FeedRec.mk.injEq] at hf
  exact ⟨hf.1, hf.2.1, hf.2.2.1, hf.2.2.2.2⟩

theorem pack (k : Handle) : (t.pack k).state.merged = (s.pack k).state.merged ∧ (t.pack k).cls = (s.pack k).cls
    ∧ (t.pack k).serial = (s.pack k).serial ∧ (t.pack k).gen = (s.pack k).gen
    ∧ (t.pack k).released = (s.pack k).released ∧ (t.pack k).pages = (s.pack k).pages := by
  have hk := h.packs k
  simp only [PackRec.merged, Prod.mk.injEq] at hk
  exact hk

/-- A state that is one to release decisions is the same in both. -/
theorem packState (k : Handle) {st : PackState} (hst : ∀ x : PackState, x.merged = st ↔ x = st) :
    (t.pack k).state = st ↔ (s.pack k).state = st := by
  rw [← hst (t.pack k).state, ← hst (s.pack k).state, (h.pack k).1]

theorem settings : t.tables.settings = s.tables.settings ∧ t.tables.travel = s.tables.travel
    ∧ t.tables.classes = s.tables.classes := by
  have ht := h.tables
  simp only [TableStore.mk.injEq] at ht
  exact ⟨ht.2.2.2.2.2.1, ht.2.2.2.2.1, ht.2.1⟩

theorem candidate (f : FeedId) : t.candidate f = s.candidate f := by
  obtain ⟨h1, h2, h3, h4⟩ := h.feed f
  simp only [State.candidate, State.releasing, h.run, h.inFlight, h1, h2, h3, h4]

theorem due (f : FeedId) : t.due f = s.due f := by
  obtain ⟨h1, h2, -⟩ := h.settings
  simp only [State.due, State.earliest, h.now, h.aLast, h1, h2]

theorem emptyPockets : t.emptyPockets = s.emptyPockets := by
  have hp (p : PocketId) : decide (t.pockets[p].state ≠ .outOfService) = decide (s.pockets[p].state ≠ .outOfService)
      ∧ decide (t.pockets[p].state = .empty) = decide (s.pockets[p].state = .empty) :=
    ⟨by rw [decide_eq_decide, ne_eq, ne_eq, (h.pockets p).2], by rw [decide_eq_decide, (h.pockets p).1]⟩
  unfold State.emptyPockets State.available
  exact List.filter_congr fun p _ => by rw [h.settings.1, (hp p).1, (hp p).2]

theorem offer (k : Handle) : t.offer k = s.offer k := by
  have hhead : t.isClassHead k = s.isClassHead k := by
    simp only [State.isClassHead, (h.pack k).2.1, h.queues]
  have hpolicy : t.policyOf k = s.policyOf k := by simp only [State.policyOf, (h.pack k).2.1, h.settings.2.2]
  unfold State.offer
  rw [h.emptyPockets, hhead, hpolicy, h.pick]

theorem judgeEntry (e : StagingEntry) : t.judgeEntry e = s.judgeEntry e := by
  obtain ⟨-, -, -, h4, h5, h6⟩ := h.pack e.handle
  have hst {st : PackState} (hm : ∀ x : PackState, x.merged = st ↔ x = st) :
      ((t.pack e.handle).state = st) = ((s.pack e.handle).state = st) := propext (h.packState e.handle hm)
  have hfree := hst (st := .free) (by intro x; cases x <;> decide)
  have hdisposing := hst (st := .disposing) (by intro x; cases x <;> decide)
  have hrestarting := hst (st := .restarting) (by intro x; cases x <;> decide)
  have hopened := hst (st := .opened) (by intro x; cases x <;> decide)
  have hannounced := hst (st := .announced) (by intro x; cases x <;> decide)
  simp only [State.judgeEntry, h4, h5, h6, h.offer, hfree, hdisposing, hrestarting, hopened, hannounced]

theorem verdict (f : FeedId) : t.verdict f = s.verdict f := by
  obtain ⟨-, h2, -, h4⟩ := h.feed f
  simp only [State.verdict, h.run, h4, h2]
  cases s.feeds[f].queue with
  | nil => rfl
  | cons e q => simp only [h.judgeEntry]

theorem dueWith (f : FeedId) (test : Verdict → Bool) : t.dueWith f test = s.dueWith f test := by
  simp only [State.dueWith, h.candidate, h.verdict, h.due]

theorem olderHead (g f : FeedId) : t.olderHead g f = s.olderHead g f := by
  simp only [State.olderHead, State.headHandle, (h.feed g).2.1, (h.feed f).2.1, State.older, (h.pack _).2.2.1]

theorem choose : t.choose = s.choose := by
  have holder : t.olderHead = s.olderHead := funext fun g => funext fun f => h.olderHead g f
  unfold State.choose
  simp only [h.pick, h.dueWith, holder]

theorem mergeWaits : t.mergeWaits = s.mergeWaits := by
  simp only [State.mergeWaits, h.candidate, h.verdict]

theorem waitHolds (f : FeedId) : t.waitHolds f = s.waitHolds f := by
  obtain ⟨h1, h2, h3, h4⟩ := h.feed f
  simp only [State.waitHolds, h.run, h1, h2, h3]

theorem pickStands (f : FeedId) (k : Handle) : t.pickStands f k = s.pickStands f k := by
  have hannounced : ((t.pack k).state = .announced) = ((s.pack k).state = .announced) :=
    propext (h.packState k (by intro x; cases x <;> decide))
  simp only [State.pickStands, h.candidate, hannounced, h.emptyPockets, (h.feed f).2.1, (h.pack k).2.2.2.1]

end State.SameChoice

/-! ### The waits (R39) -/

/-- Feed `f`'s record with its wait as its conditions have it. -/
def State.timedFeed (s : State) (f : FeedId) : FeedRec :=
  { s.feeds[f] with
    wait := if s.waitHolds f && !s.feeds[f].discard then some (s.feeds[f].wait.getD s.now) else none }

section
variable (w : Work) (f g : FeedId)

theorem Work.timeWait_eq :
    w.timeWait f = if (w.timedFeed f).wait = w.feeds[f].wait then w else w.setFeed f (w.timedFeed f) := rfl

theorem Work.timeWait_shape : ∃ m o, w.timeWait f = { w with
    feeds := w.feeds.set f (w.timedFeed f), tables := { w.tables with mark := m }, occasion := o } := by
  rw [Work.timeWait_eq]
  by_cases h : (w.timedFeed f).wait = w.feeds[f].wait
  · have hsame : w.timedFeed f = w.feeds[f] := congrArg (fun x => { w.feeds[f] with wait := x }) h
    rw [if_pos h, hsame, show w.feeds.set f w.feeds[f] = w.feeds from Vector.set_getElem_self f.isLt]
    exact ⟨_, _, rfl⟩
  · rw [if_neg h]
    exact w.setFeed_shape f _

theorem State.waitHolds_of {s t : State} (hf : t.feeds[g] = s.feeds[g] ∨ t.feeds[g] = s.timedFeed g) (hr : t.run = s.run) :
    t.waitHolds g = s.waitHolds g := by
  unfold State.waitHolds
  rcases hf with h | h <;> rw [h, hr]
  rfl

theorem State.timedFeed_of {s t : State} (hf : t.feeds[g] = s.feeds[g]) (hr : t.run = s.run) (hn : t.now = s.now) :
    t.timedFeed g = s.timedFeed g := by
  rw [State.timedFeed, State.timedFeed, State.waitHolds_of g (.inl hf) hr, hf, hn]

theorem State.timedFeed_idem {s t : State} (hf : t.feeds[g] = s.timedFeed g) (hr : t.run = s.run) (hn : t.now = s.now) :
    t.timedFeed g = s.timedFeed g := by
  rw [State.timedFeed, State.waitHolds_of g (.inr hf) hr, hf, hn]
  unfold State.timedFeed
  dsimp only
  split <;> rfl

theorem Work.timeWait_feed : (w.timeWait f).feeds[g] = if g = f then w.timedFeed g else w.feeds[g] := by
  obtain ⟨m, o, h⟩ := w.timeWait_shape f
  rw [h]
  split
  next e => subst e; exact Vector.getElem_set_self g.isLt
  next e => exact Vector.getElem_set_ne f.isLt g.isLt (Fin.val_ne_of_ne (Ne.symm e))

theorem Work.timeWait_timed : (w.timeWait f).timedFeed g = w.timedFeed g := by
  have hrun : (w.timeWait f).run = w.run ∧ (w.timeWait f).now = w.now := by
    obtain ⟨m, o, h⟩ := w.timeWait_shape f
    rw [h]
    exact ⟨rfl, rfl⟩
  have hfeed := w.timeWait_feed f g
  split at hfeed
  · exact State.timedFeed_idem g hfeed hrun.1 hrun.2
  · exact State.timedFeed_of g hfeed hrun.1 hrun.2

theorem Work.timeWaits_feed : w.timeWaits.feeds[g] = w.timedFeed g := by
  have heach (l : List FeedId) (x : Work) :
      (x.each Work.timeWait l).feeds[g] = if g ∈ l then x.timedFeed g else x.feeds[g] := by
    induction l generalizing x with
    | nil => rfl
    | cons f l ih =>
      refine (ih (x.timeWait f)).trans ?_
      rw [Work.timeWait_timed, Work.timeWait_feed]
      by_cases e : g = f
      · simp [e]
      · simp only [List.mem_cons, e, false_or, if_false]
  rw [Work.timeWaits, heach, if_pos (mem_allFeeds g)]

theorem Work.timeWaits_shape : ∃ fs m o, w.timeWaits = { w with
    feeds := fs, tables := { w.tables with mark := m }, occasion := o } := by
  have heach (l : List FeedId) (x : Work) : ∃ fs m o, x.each Work.timeWait l = { x with
      feeds := fs, tables := { x.tables with mark := m }, occasion := o } := by
    induction l generalizing x with
    | nil => exact ⟨_, _, _, rfl⟩
    | cons f l ih =>
      obtain ⟨m, o, h⟩ := x.timeWait_shape f
      obtain ⟨fs, m', o', h'⟩ := ih (x.timeWait f)
      refine ⟨fs, m', o', h'.trans ?_⟩
      rw [h]
  exact heach _ w

end

/-! ### The end of the settling -/

/-- What the settling does once decisions are made: the waits, the block timer, BIN_FULL and the lamps follow. -/
def Work.closed (w : Work) (b : State) : Work := (w.timeWaits.timeBlock.judgeBinFull b).driveLamps

section
variable (w : Work) (b : State)

theorem Work.settle_closed : w.settle b = w.goOn.decideReleases.closed b := by
  rw [Work.settle_eq, Work.closed]

theorem Work.judgeBinFull_shape : ∃ a, w.judgeBinFull b = { w with attn := a } := by
  unfold Work.judgeBinFull
  split
  · exact ⟨_, rfl⟩
  · exact ⟨w.attn, rfl⟩

/-- The block timer once it follows its conditions (R63). -/
def Work.timedBlock : Option Time :=
  if w.blockHolds then (if w.progress then some w.now else some (w.arb.blockTimer.getD w.now)) else none

theorem Work.closed_shape : ∃ bs a m o, w.closed b = { w with
    feeds := w.timeWaits.feeds, arb := { w.timeWaits.arb with blockTimer := w.timeWaits.timedBlock }
    ret := { w.ret with bins := bs }, attn := a, tables := { w.tables with mark := m }, occasion := o } := by
  obtain ⟨fs, m, o, h1⟩ := w.timeWaits_shape
  obtain ⟨a, h2⟩ := w.timeWaits.timeBlock.judgeBinFull_shape b
  obtain ⟨bs, h3⟩ := Work.driveLamps_shape (w.timeWaits.timeBlock.judgeBinFull b)
  have h4 : w.timeWaits.timeBlock
      = { w.timeWaits with arb := { w.timeWaits.arb with blockTimer := w.timeWaits.timedBlock } } := rfl
  refine ⟨bs, a, m, o, ?_⟩
  unfold Work.closed
  rw [h3, h2, h4, h1]

theorem Work.closed_feed (f : FeedId) : (w.closed b).feeds[f] = w.timedFeed f := by
  have hfeeds : (w.closed b).feeds = w.timeWaits.feeds := by
    obtain ⟨bs, a, m, o, h⟩ := w.closed_shape b
    rw [h]
  rw [hfeeds, Work.timeWaits_feed]

/-- Release decisions would read the same after the settling as when they had been made. -/
theorem Work.closed_sameChoice : w.toState.SameChoice (w.closed b).toState := by
  obtain ⟨fs, m', o', h1⟩ := w.timeWaits_shape
  have harb : w.timeWaits.arb = w.arb := by rw [h1]
  obtain ⟨bs, a, m, o, h⟩ := w.closed_shape b
  have hreg : (w.closed b).reg = w.reg := by rw [h]
  have hpockets : (w.closed b).pockets = w.pockets := by rw [h]
  refine ⟨fun f => ?_, ?_, ?_, ?_, ?_, ?_, ?_, fun c => ?_, fun k => ?_, fun p => ?_⟩
  · rw [Work.closed_feed]
    rfl
  · rw [h]
  · rw [h, ← harb]
  · rw [h, ← harb]
  · rw [h, ← harb]
  · rw [h]
  · rw [h]
  · rw [State.classQueue, hreg]
    rfl
  · rw [State.pack, hreg]
    rfl
  · rw [hpockets]
    exact ⟨Iff.rfl, Iff.rfl⟩

theorem Work.settle_feed (f : FeedId) : (w.settle b).feeds[f] = w.goOn.decideReleases.timedFeed f := by
  rw [Work.settle_closed, Work.closed_feed]

theorem Work.settle_choose : (w.settle b).choose = w.goOn.decideReleases.choose := by
  rw [Work.settle_closed, (Work.closed_sameChoice _ b).choose]

end

end Sys2Proof.Machine
end

section
/-! SUPPORT. Each feed after a step has settled (`Work.settle_feed_cases`): the settling of
`Obligations.SheetNoticeIsAccepted`, `Obligations.FeedFlushEmptiesTheQueue` and `Obligations.ShelfEventsAndWaits`. -/

namespace Sys2Proof.Machine

theorem Work.feeds_of_merge {w v : Work} (h : v.merge = w.merge) : v.feeds = w.feeds := congrArg Merge.feeds h

theorem Work.now_of_frame {w v : Work} (h : v.frame = w.frame) : v.now = w.now := congrArg Frame.now h

section
variable (w : Work) (b : State)

/-! ### The run state and the time as the step settles -/

@[simp] theorem Work.frame_goOn : w.goOn.frame = w.frame := by simp [Work.goOn]

theorem Work.goOn_now : w.goOn.now = w.now := Work.now_of_frame w.frame_goOn

theorem Work.decideReleases_run : w.decideReleases.run = w.run := (Work.Released.refl w).decideReleases.run

theorem Work.settle_run : (w.settle b).run = w.goOn.run := by
  rw [Work.settle_closed]
  obtain ⟨bs, a, m, o, h⟩ := w.goOn.decideReleases.closed_shape b
  rw [h, ← w.goOn.decideReleases_run]

/-- Outside STARTING the run state stands as the work goes on, but that STOPPING may end in STANDBY. -/
theorem Work.goOn_run (hs : w.starting = false) :
    w.goOn.run.state = w.run.state ∨ (∃ o, w.run.state = .stopping o) ∧ w.goOn.run.state = .standby := by
  have h := (Settles.goOn w).run
  rw [Work.endStartUp_of_running (w.startPurges_starting.trans hs), w.startPurges_run] at h
  exact h

/-- Outside STARTING the feeds, the arbiter and the release outputs stand as the work goes on. -/
theorem Work.goOn_merge_of_running (hs : w.starting = false) : w.goOn.merge = w.merge := by
  rcases w.goOn_merge with h | ⟨h, -⟩
  · exact h
  · rw [hs] at h; cases h

theorem State.releasing_iff {s : State} : s.releasing = true ↔ s.run.state = .run ∨ s.run.state = .bypass := by
  simp [State.releasing]

theorem State.releasing_of {s t : State} (h : t.run.state = s.run.state) : t.releasing = s.releasing := by
  rw [State.releasing, State.releasing, h]

/-- Where sheets are released after the work has gone on outside STARTING, the run state stood. -/
theorem Work.goOn_releasing (hs : w.starting = false) (hr : w.goOn.releasing = true) : w.goOn.run.state = w.run.state := by
  rcases w.goOn_run hs with h | ⟨-, h⟩
  · exact h
  · rw [State.releasing, h] at hr
    cases hr

/-! ### Each feed after the settling -/

/-- A feed from `s` to `t`, where the decisions were made by `now`: as it was, or released once; its wait follows its
conditions. -/
def State.FeedClosed (s t : State) (now : Time) (f : FeedId) : Prop :=
  t.feeds[f] = { s.feeds[f] with
      wait := if t.waitHolds f && !s.feeds[f].discard then some (s.feeds[f].wait.getD now) else none }
  ∨ s.feeds[f].shelf = .present ∧ s.releasing = true ∧ s.feedOffers f ∧ t.feeds[f] = { s.releasedFeed f with wait := none }
    ∧ (s.run.state ≠ .bypass → s.feeds[f].discard = true → t.latched .unannounced = true)

theorem Work.closed_latched (c : Cause) (h : w.latched c = true) : (w.closed b).latched c = true :=
  ((Evolves.refl w).timeWaits.timeBlock.judgeBinFull b).driveLamps.latched c h

theorem State.FeedDecided.closed {s : State} {f : FeedId} (h : s.FeedDecided w.toState f) :
    s.FeedClosed (w.closed b).toState w.now f := by
  have hholds : (w.closed b).waitHolds f = w.waitHolds f := (w.closed_sameChoice b).waitHolds f
  rw [State.FeedClosed, hholds, Work.closed_feed, State.timedFeed]
  rcases h with ⟨h, -⟩ | ⟨hp, hr, ho, hf, -, hl⟩
  · left
    rw [h]
  · right
    have hfalse : w.waitHolds f = false := by
      rw [State.waitHolds, hf]
      exact Bool.and_false _
    refine ⟨hp, hr, ho, ?_, fun hb hdisc => w.closed_latched b _ (hl hb hdisc)⟩
    rw [hfalse, hf]
    rfl

/-- After the settling each feed is as it was when the work had gone on, or has been released once. -/
theorem Work.settle_feedClosed (f : FeedId) : w.goOn.toState.FeedClosed (w.settle b).toState w.now f := by
  have hnow : w.goOn.decideReleases.now = w.now :=
    ((Work.Released.refl w.goOn).decideReleases.now).trans w.goOn_now
  rw [Work.settle_closed, ← hnow]
  exact (w.goOn.decideReleases_feed f).closed _ b

/-- Outside STARTING each feed is as it was before the settling, or has been released once. -/
theorem Work.settle_feedRunning (hs : w.starting = false) (f : FeedId) :
    w.toState.FeedClosed (w.settle b).toState w.now f := by
  have hfeeds : w.goOn.feeds = w.feeds := Work.feeds_of_merge (w.goOn_merge_of_running hs)
  rcases w.settle_feedClosed b f with h | ⟨hp, hr, ho, hf, hl⟩
  · left
    rw [h, hfeeds]
  · have hrun := w.goOn_releasing hs hr
    have hreleased : w.goOn.releasedFeed f = w.releasedFeed f := by rw [State.releasedFeed, State.releasedFeed, hfeeds, hrun]
    right
    rw [hfeeds] at hp hl
    rw [hreleased] at hf
    rw [State.feedOffers, hfeeds, hrun] at ho
    exact ⟨hp, (State.releasing_of hrun).symm.trans hr, ho, hf, fun hb => hl (by rwa [hrun])⟩

end

end Sys2Proof.Machine

namespace Sys2Proof.Proofs

open Sys2Proof.Machine

/-- Settles O39: the entry stands at the tail as the settling begins, and the settling takes a feed's head once at most. -/
theorem sheetNoticeIsAccepted : Obligations.SheetNoticeIsAccepted := by
  unfold Obligations.SheetNoticeIsAccepted
  intro feed handle page generation tag s f h ht hn hf hh h1 h60 hg3 htag hon hroom hfree hdisposing hgen q
  have judged := State.judgeNotice_accepted hn (noticeFields_inRange hf hh ⟨h1, h60, hg3, htag⟩) hon
    (Nat.not_le.2 hroom) (not_or.2 ⟨hfree, hdisposing⟩) (Nat.not_lt.2 hgen)
  obtain ⟨l, hl, -⟩ := s.takenFor_link (.sheetNotice false feed handle page generation tag)
  obtain ⟨T, hT⟩ : ∃ T, T = s.takenFor (.sheetNotice false feed handle page generation tag) := ⟨_, rfl⟩
  have hfeeds : T.feeds = s.feeds := by rw [hT, hl]
  have hrun : T.run = s.run := by rw [hT, hl]
  obtain ⟨u, hu⟩ : ∃ u, u = (Work.of T).setFeed f { T.feeds[f] with
      queue := T.feeds[f].queue ++ [⟨h, page.toNat, generation.toNat, tag.setWidth 12⟩], wait := none, discard := false } :=
    ⟨_, rfl⟩
  obtain ⟨v, hv⟩ : ∃ v, v = u.settle T := ⟨_, rfl⟩
  have hexec : exec (.sheetNotice false feed handle page generation tag) s = .next v.finish := by
    rw [exec_sheetNotice_taken ht, hv, hu]
    simp only [hT, Work.sheetNotice, Work.of_toState, State.takenFor, recordOf, State.judgeNotice_taken, judged,
      Work.acceptNotice]
  have hfrom : Work.From T u :=
    hu ▸ (Work.From.of T).evolves ((Evolves.refl _).setFeed f _) (Work.frame_setFeed _ _ _)
  have hself : u.feeds[f] = { s.feeds[f] with queue := q, wait := none, discard := false } := by
    rw [hu, Work.setFeed_feeds, Work.of_toState, hfeeds]
    exact Vector.getElem_set_self f.isLt
  have hother (g : FeedId) (hne : g ≠ f) : u.feeds[g] = s.feeds[g] := by
    rw [hu, Work.setFeed_feeds, Work.of_toState, hfeeds]
    exact Vector.getElem_set_ne f.isLt g.isLt (Fin.val_ne_of_ne (Ne.symm hne))
  have hurun : u.run = s.run := by rw [hu, Work.setFeed_run, Work.of_toState, hrun]
  have hstarting : u.starting = false := by
    rw [State.starting_eq, hurun, ← State.starting_eq]
    exact State.starting_of_takesNotices hn
  have hbypass : u.run.state ≠ .bypass := fun hb => by
    rw [State.takesNotices, ← hurun, hb] at hn
    cases hn
  have hpacks : s.keepsPacks u.toState :=
    State.keepsPacks_of_reg (by rw [hu, Work.setFeed_reg, Work.of_toState, hT, hl])
  have hbins : s.keepsBins u.toState [] :=
    State.keepsBins_of_bins (by rw [hu, Work.setFeed_ret, Work.of_toState, hT, hl]) _
  have hclosed (g : FeedId) : u.toState.FeedClosed v.toState u.now g := hv ▸ u.settle_feedRunning T hstarting g
  have hreleasing (hr : u.releasing = true) : s.run.state = .run :=
    hurun ▸ (State.releasing_iff.1 hr).resolve_right hbypass
  have hreleased (g : FeedId) (hd : u.feeds[g].discard = false) :
      (u.releasedFeed g).queue = u.feeds[g].queue.tail := by
    rw [State.releasedFeed, if_neg (by rw [hd]; simp [hbypass])]
  refine ⟨v.finish, hexec, ?_, hv ▸ (hpacks.settle T).finish, hv ▸ (hbins.settle T).finish, ?_, ?_⟩
  · rw [← hT, hv]
    exact (hfrom.settle T).surrounds
  · obtain ⟨t, het, hadds⟩ := exec_sheetNotice_accepted ht hn judged
    obtain rfl : v.finish = t := Host.Outcome.next.inj (hexec.symm.trans het)
    exact hadds
  rw [Work.finish_feeds]
  refine and_assoc.1 (and_assoc.1 (and_assoc.1 ⟨?_, fun g hne => ?_⟩))
  · rcases hclosed f with hc | ⟨-, hr, -, hc, -⟩
    · have hholds : v.waitHolds f = false := by
        have hqueue : v.feeds[f].queue.isEmpty = false := by rw [hc, hself]; simp [q]
        simp [State.waitHolds, -Fin.getElem_fin, hqueue]
      rw [hc, hself, hholds]
      exact ⟨⟨⟨.inl rfl, rfl⟩, rfl⟩, hon⟩
    · have hd : u.feeds[f].discard = false := by rw [hself]
      refine ⟨⟨⟨.inr ⟨hreleasing hr, ?_, ?_⟩, ?_⟩, ?_⟩, ?_⟩
      · rw [hc]
        exact (hreleased f hd).trans (by rw [hself])
      all_goals rw [hc, State.releasedFeed]
      rw [hself]
      exact hon
  · rcases hclosed g with hc | ⟨-, hr, -, hc, -⟩
    · left
      rw [hc, hother g hne]
    · cases hd : u.feeds[g].discard with
      | true =>
        left
        rw [hc, State.releasedFeed, if_pos (.inr hd), hother g hne]
      | false =>
        right
        refine ⟨hreleasing hr, ?_, ?_⟩
        · rw [hc]
          exact (hreleased g hd).trans (by rw [hother g hne])
        · rw [hc, State.releasedFeed]

end Sys2Proof.Proofs
end

section
/-! SUPPORT. The mark and the occasions as a step goes on: nothing sets a mark, and an occasion that has come stays
(`Work.Onward`). The settling of `Obligations.FeedFlushEmptiesTheQueue`. -/

namespace Sys2Proof.Machine

/-! ### The mark and the occasion -/

/-- From `w` to `v` an occasion for a release decision and the block timer's restart stay, and the mark stays or is
cleared (R47, R63, R158). -/
structure Work.Onward (w v : Work) : Prop where
  occasion : w.occasion = true → v.occasion = true
  progress : w.progress = true → v.progress = true
  mark : v.tables.mark = w.tables.mark ∨ v.tables.mark = none

namespace Work.Onward

variable {a w v : Work}

theorem refl (w : Work) : w.Onward w := ⟨id, id, .inl rfl⟩

theorem trans (h : a.Onward w) (k : w.Onward v) : a.Onward v :=
  ⟨k.occasion ∘ h.occasion, k.progress ∘ h.progress, k.mark.elim (fun e => h.mark.imp e.trans e.trans) .inr⟩

/-- A mark that stands on an entry stood on it before. -/
theorem unmarked (h : a.Onward w) {e : EntryRef} (hm : a.tables.mark ≠ some e) : w.tables.mark ≠ some e := by
  rcases h.mark with h | h
  · rwa [h]
  · rw [h]; exact nofun

section
variable (h : a.Onward w)
include h

/-- A change that leaves the tables, the occasion and the block timer's restart alone. -/
theorem same (ho : v.occasion = w.occasion) (hp : v.progress = w.progress) (ht : v.tables = w.tables) : a.Onward v :=
  h.trans ⟨fun x => by rwa [ho], fun x => by rwa [hp], .inl (by rw [ht])⟩

theorem touch (e : EntryRef) : a.Onward (w.touch e) := by
  unfold Work.touch
  split
  · exact h.trans ⟨id, id, .inr rfl⟩
  · exact h

theorem touchIf (b : Bool) (e : EntryRef) : a.Onward (w.touchIf b e) := by
  unfold Work.touchIf
  split
  · exact h.touch e
  · exact h

theorem occasionIf (b : Bool) : a.Onward (w.occasionIf b) :=
  h.trans ⟨fun x => by rw [Work.occasionIf, x]; rfl, id, .inl rfl⟩

theorem setPack (k : Handle) (r : PackRec) : a.Onward (w.setPack k r) := by
  have h1 : a.Onward { w with reg := { w.reg with packs := Sparse.put PackRec.cleared w.reg.packs k r } } := h.same rfl rfl rfl
  unfold Work.setPack
  exact (((h1.occasionIf _).touchIf _ _).touchIf _ _).touchIf _ _

theorem setClassQueue (c : ClassId) (q : List Handle) : a.Onward (w.setClassQueue c q) := by
  have h1 : a.Onward { w with reg := { w.reg with queues := Sparse.put [] w.reg.queues c q } } := h.same rfl rfl rfl
  unfold Work.setClassQueue
  exact (h1.occasionIf _).touchIf _ _

theorem setFeed (f : FeedId) (r : FeedRec) : a.Onward (w.setFeed f r) := by
  have h1 : a.Onward { w with feeds := w.feeds.set f r } := h.same rfl rfl rfl
  unfold Work.setFeed
  exact (h1.occasionIf _).touchIf _ _

theorem setPocket (p : PocketId) (r : PocketRec) : a.Onward (w.setPocket p r) := by
  have h1 : a.Onward { w with pockets := w.pockets.set p r } := h.same rfl rfl rfl
  unfold Work.setPocket
  exact (h1.occasionIf _).touchIf _ _

theorem setBin (b : BinId) (r : BinRec) : a.Onward (w.setBin b r) := by
  have h1 : a.Onward { w with ret := { w.ret with bins := w.ret.bins.set b r } } := h.same rfl rfl rfl
  unfold Work.setBin
  exact h1.touchIf _ _

theorem setRunState (st : RunState) : a.Onward (w.setRunState st) := by
  have h1 : a.Onward { w with run := { w.run with state := st } } := h.same rfl rfl rfl
  unfold Work.setRunState
  exact h1.occasionIf _

theorem setReg (r : PackRegister) : a.Onward (w.setReg r) := h.same rfl rfl rfl
theorem setArb (r : MergeArbiter) : a.Onward (w.setArb r) := h.same rfl rfl rfl
theorem setStaplerRec (r : Stapler) : a.Onward (w.setStaplerRec r) := h.same rfl rfl rfl
theorem setRet (r : ReturnUnit) : a.Onward (w.setRet r) := h.same rfl rfl rfl
theorem latch (c : Cause) : a.Onward (w.latch c) := h.same rfl rfl rfl
theorem notify (r : OutRecord) : a.Onward (w.notify r) := h.same rfl rfl rfl
theorem setReport (r : Report) : a.Onward (w.setReport r) := h.same rfl rfl rfl
theorem judge : a.Onward w.judge := h.same rfl rfl rfl
theorem setStapler (st : StaplerState) (k : Option WorkRec) (c : Option (PocketId × Nat)) :
    a.Onward (w.setStapler st k c) := h.same rfl rfl rfl
theorem restartTimer : a.Onward w.restartTimer := h.trans ⟨id, fun _ => rfl, .inl rfl⟩
theorem pulsed (f : FeedId) : a.Onward (w.pulsed f) := (h.same (v := w.pulse f) rfl rfl rfl).restartTimer

theorem each {α : Type} (f : Work → α → Work) (l : List α) (hf : ∀ x y, a.Onward x → a.Onward (f x y)) :
    a.Onward (w.each f l) := by
  induction l generalizing w with
  | nil => exact h
  | cons y l ih => exact ih (hf w y h)

/-! ### As the work goes on -/

theorem startPurges : a.Onward w.startPurges :=
  h.each _ _ fun x p hx => by
    unfold Work.startPurge
    dsimp only
    split
    · exact hx.setPocket _ _
    · exact hx

theorem halt (c : HaltCause) (t : ResumeTarget) : a.Onward (w.halt c t) := by
  have hvolume : a.Onward (w.setRunState (.halt c t)).cutOffVolume := by
    unfold Work.cutOffVolume
    split
    · exact h.setRunState _
    · exact (h.setRunState _).setStapler _ _ _
  have hdelivery : a.Onward (w.setRunState (.halt c t)).cutOffVolume.cutOffDelivery := by
    unfold Work.cutOffDelivery
    split
    · exact hvolume
    · exact hvolume.setRet _
  unfold Work.halt
  refine hdelivery.each _ _ fun x p hx => ?_
  unfold Work.cutOffPurge
  dsimp only
  split
  · exact hx.setPocket _ _
  · exact hx

theorem flushFeed (f : FeedId) : a.Onward (w.flushFeed f) := h.setFeed f _

theorem enterTarget (t : ResumeTarget) : a.Onward (w.enterTarget t) := by
  unfold Work.enterTarget
  split
  · exact (h.setRunState _).each _ _ fun _ f hx => hx.flushFeed f
  · exact h.setRunState _

theorem endStartUp : a.Onward w.endStartUp := by
  unfold Work.endStartUp
  split
  · split
    · exact h
    · unfold Work.leaveStarting
      dsimp only
      split
      · exact (h.halt _ _).setReport _
      · exact (h.enterTarget _).setReport _
  · exact h

theorem setRemaining (n : Nat) : a.Onward (w.setRemaining n) := by
  unfold Work.setRemaining Work.judgeStaples
  dsimp only
  split
  · exact ((h.setStaplerRec _).touchIf _ _).latch _
  · exact (h.setStaplerRec _).touchIf _ _

theorem finishPack (k : Handle) (f : PackFlags) : a.Onward (w.finishPack k f) := by
  unfold Work.finishPack Work.goReady
  dsimp only
  split
  · exact ((h.setStaplerRec _).setPack _ _).judge
  · exact (((h.setStaplerRec _).setPocket _ _).setPack _ _).judge

theorem startVolume (k : WorkRec) : a.Onward (w.startVolume k) := by
  unfold Work.startVolume Work.shortVolume
  dsimp only
  split
  · split
    · exact (h.latch _).setStapler _ _ _
    · exact (h.latch _).finishPack _ _
  · have hpack (x : Work) (hx : a.Onward x) (b : Prop) [Decidable b] (r : PackRec) :
        a.Onward (if b then x.setPack k.handle r else x) := by
      split
      · exact hx.setPack _ _
      · exact hx
    refine setStapler ?_ _ _ _
    split
    · exact hpack _ (h.setRemaining _) _ _
    · exact (hpack _ (h.setRemaining _) _ _).setPocket _ _

theorem takeUp (n : Nat) : a.Onward (Work.takeUp n w) := by
  induction n generalizing w with
  | zero => exact h
  | succ n ih =>
    unfold Work.takeUp
    split
    · exact h
    · split
      · exact ih (h.startVolume _)
      · exact h

theorem startDelivery : a.Onward w.startDelivery := by
  unfold Work.startDelivery
  split
  · split
    · exact h
    · split
      · unfold Work.beginDelivery
        exact (((h.setRet _).setPack _ _).setPocket _ _).setRet _
      · exact h
  · exact h

theorem endStopping : a.Onward w.endStopping := by
  rcases w.endStopping_shape with ⟨e, -⟩ | ⟨-, e⟩ <;> rw [e]
  · exact h
  · exact h.setRunState _

theorem goOn : a.Onward w.goOn := by
  unfold Work.goOn Work.staple
  exact (h.startPurges.endStartUp.judge.takeUp _).startDelivery.endStopping

/-! ### In decisions and at the end of the settling -/

theorem openPack (k : Handle) (p : PocketId) : a.Onward (w.openPack k p) := by
  unfold Work.openPack
  dsimp only
  split
  · exact ((((h.setPocket _ _).setPack _ _).setArb _).notify _).latch _
  · exact (h.setPocket _ _).setPack _ _

theorem releaseBare (f : FeedId) (t : EntryTag) (d : Disposition) : a.Onward (w.releaseBare f t d) :=
  (h.setFeed f _).same rfl rfl rfl

theorem releaseHead (f : FeedId) (e : StagingEntry) (d : Disposition) : a.Onward (w.releaseHead f e d) :=
  (h.setFeed f _).same rfl rfl rfl

theorem release {f : FeedId} (hr : w.Release f v) : a.Onward v := by
  have hp := h.pulsed f
  cases hr with
  | pass => exact hp.releaseBare f _ _
  | unannounced => exact (hp.releaseBare f _ _).latch _
  | unwanted => exact hp.releaseHead f _ _
  | opens => exact (hp.releaseHead f _ _).openPack _ _
  | nextPage => exact (hp.releaseHead f _ _).setPack _ _

theorem poised : a.Onward w.poised := by
  obtain ⟨p, -, e⟩ := w.poised_shape
  rw [e]
  exact h.same rfl rfl rfl

theorem decides (hd : w.Decides v) : a.Onward v := by
  induction hd with
  | done => exact h.poised
  | next hc _ ih => exact ih (h.poised.release (Work.release_is hc))

theorem decideReleases : a.Onward w.decideReleases := by
  rcases w.decideReleases_is with ⟨-, hd⟩ | ⟨-, hd⟩
  · exact h.decides hd
  · rwa [hd]

theorem closed (b : State) : a.Onward (w.closed b) := by
  have hwaits : a.Onward w.timeWaits := h.each _ _ fun x f hx => by
    rw [Work.timeWait_eq]
    split
    · exact hx
    · exact hx.setFeed _ _
  obtain ⟨x, hx⟩ : ∃ x, x = w.timeWaits := ⟨_, rfl⟩
  obtain ⟨c, hc⟩ := x.timeBlock.judgeBinFull_shape b
  obtain ⟨bs, hbs⟩ := Work.driveLamps_shape (x.timeBlock.judgeBinFull b)
  rw [Work.closed, ← hx, hbs, hc]
  rw [← hx] at hwaits
  exact hwaits.same rfl rfl rfl

theorem settle (b : State) : a.Onward (w.settle b) := by
  rw [Work.settle_closed]
  exact h.goOn.decideReleases.closed b

end

end Work.Onward

/-! ### What a feed's change brings -/

theorem Work.touch_unmarks (w : Work) (e : EntryRef) : (w.touch e).tables.mark ≠ some e := by
  unfold Work.touch
  split
  · exact nofun
  next h => exact h

/-- A change of a feed's queue length clears a mark on its entry (R42, R158). -/
theorem Work.setFeed_unmarks {w : Work} {f : FeedId} {r : FeedRec} (h : r.queue.length ≠ w.feeds[f].queue.length) :
    (w.setFeed f r).tables.mark ≠ some (.feed f) := by
  unfold Work.setFeed Work.touchIf
  dsimp only
  rw [if_pos (by rw [decide_eq_true h]; rfl)]
  exact Work.touch_unmarks _ _

/-- A change of a feed's head is an occasion for a release decision (R47). -/
theorem Work.setFeed_occasion {w : Work} {f : FeedId} {r : FeedRec} (h : r.queue.head? ≠ w.feeds[f].queue.head?) :
    (w.setFeed f r).occasion = true := by
  unfold Work.setFeed
  refine ((Work.Onward.refl _).touchIf _ _).occasion ?_
  dsimp only [Work.occasionIf]
  rw [decide_eq_true h]
  simp

theorem State.sameWork.choose {s t : State} (h : s.sameWork t) : t.choose = s.choose := by
  rw [State.sameWork] at h
  rw [h]
  rfl

/-- Where an occasion had come, nothing is due once the step has settled (R47). -/
theorem Work.settle_choose_of_occasion {w : Work} (h : w.occasion = true) (b : State) : (w.settle b).choose = none := by
  rw [Work.settle_choose]
  obtain ⟨x, hx⟩ : ∃ x, x = w.goOn := ⟨_, rfl⟩
  have hon := (Work.Onward.refl w).goOn
  rw [← hx] at hon ⊢
  rcases x.decideReleases_is with ⟨-, hd⟩ | ⟨hn, -⟩
  · exact hd.choose
  · rw [hon.occasion h] at hn; cases hn

section
variable {s : State} {w : Work} {k : Byte} {st : Status} {d : List Byte} {n : Notes}

theorem State.keepsPacks.answer (h : s.keepsPacks w.toState) : s.keepsPacks (w.answer k st d n).toState := h

theorem State.keepsBins.answer {l : List BinId} (h : s.keepsBins w.toState l) :
    s.keepsBins (w.answer k st d n).toState l := h

end

/-- A step outside STARTING settles in RUN exactly where it was in RUN. -/
theorem Work.settle_runs {w : Work} (hs : w.starting = false) (b : State) :
    (w.settle b).run.state = .run ↔ w.run.state = .run := by
  rw [Work.settle_run]
  rcases w.goOn_run hs with h | ⟨⟨o, ho⟩, h⟩
  · rw [h]
  · rw [h, ho]
    exact ⟨nofun, nofun⟩

end Sys2Proof.Machine

namespace Sys2Proof.Proofs

open Sys2Proof.Machine

/-- Settles O40: the settling finds the feed's queue empty, so that only in BYPASS is the feed released. -/
theorem feedFlushEmptiesTheQueue : Obligations.FeedFlushEmptiesTheQueue := by
  unfold Obligations.FeedFlushEmptiesTheQueue
  intro feed s ht
  refine ⟨fun hfeed hfollows => ?_, fun f hf => ?_⟩
  · refine exec_answers ht hfollows ?_
    have hnone : named 4 feed.toNat = none := named_eq_none (hfeed.imp (fun h => by rw [h]; rfl) id)
    simp only [Instr.effect, Work.feedFlush, hnone]
  obtain ⟨l, hl, -⟩ := s.takenFor_link (.feedFlush false feed)
  obtain ⟨T, hT⟩ : ∃ T, T = s.takenFor (.feedFlush false feed) := ⟨_, rfl⟩
  have hfeeds : T.feeds = s.feeds := by rw [hT, hl]
  obtain ⟨u, hu⟩ : ∃ u, u = (Work.of T).flushFeed f := ⟨_, rfl⟩
  obtain ⟨v, hv⟩ : ∃ v, v = u.settle T := ⟨_, rfl⟩
  have hexec : exec (.feedFlush false feed) s
      = .next (v.answer kindControl .accepted [byteOf s.feeds[f].queue.length]).finish := by
    rw [exec_taken ht, ← hT, hv, hu, ← hfeeds]
    simp only [Instr.effect, Work.feedFlush, named_of_eq_succ hf, Work.of_toState]
  have hfrom : Work.From T u :=
    hu ▸ (Work.From.of T).evolves ((Evolves.refl _).setFeed f _) (Work.frame_setFeed _ _ _)
  have hself : u.feeds[f] = s.feeds[f].flushed := by
    rw [hu, Work.flushFeed_feed, if_pos rfl, Work.of_toState, hfeeds]
  have hurun : u.run = s.run := by rw [hu, Work.flushFeed, Work.setFeed_run, Work.of_toState, hT, hl]
  have hstarting : u.starting = false := by
    rw [State.starting_eq, hurun, ← State.starting_eq]
    exact State.starting_of_takesCommand ht
  have hnow : u.now = s.now := hfrom.now_eq.trans (by rw [hT, hl])
  have hpacks : s.keepsPacks u.toState :=
    State.keepsPacks_of_reg (by rw [hu, Work.flushFeed, Work.setFeed_reg, Work.of_toState, hT, hl])
  have hbins : s.keepsBins u.toState [] :=
    State.keepsBins_of_bins (by rw [hu, Work.flushFeed, Work.setFeed_ret, Work.of_toState, hT, hl]) _
  have harb : s.arb.inFlight <+: v.arb.inFlight := by
    have harb := (Work.settle_arb T u).2.1
    rwa [← hv, show u.arb = s.arb by rw [hu, Work.flushFeed, Work.setFeed_arb, Work.of_toState, hT, hl]] at harb
  have hclosed : u.toState.FeedClosed v.toState u.now f := hv ▸ u.settle_feedRunning T hstarting f
  have hruns : v.run.state = .run ↔ s.run.state = .run := by rw [← hurun, hv]; exact Work.settle_runs hstarting T
  refine ⟨_, hexec, ?_, (hv ▸ (hpacks.settle T) : s.keepsPacks v.toState).answer.finish,
    (hv ▸ (hbins.settle T) : s.keepsBins v.toState []).answer.finish, ?_⟩
  · rw [← hT, hv]
    exact ((hfrom.settle T).answer _ _ _ _).surrounds
  rw [Work.finish_feeds, Work.finish_arb, Work.finish_tables, Work.answer_feeds, Work.answer_arb, Work.answer_tables]
  have htells := (hv ▸ hfrom.settle T : Work.From T v).tells_taken hT (k := kindControl) (st := .accepted)
    (d := [byteOf s.feeds[f].queue.length]) (n := {})
  have hlast (hq : s.feeds[f].queue ≠ []) : v.tables.mark ≠ some (.feed f)
      ∧ (v.answer kindControl .accepted [byteOf s.feeds[f].queue.length]).finish.choose = none := by
    have hu' : u = (Work.of T).setFeed f s.feeds[f].flushed := by rw [hu, ← hfeeds]; rfl
    have hof : (Work.of T).feeds[f] = s.feeds[f] := by rw [Work.of_toState, hfeeds]
    refine ⟨hv ▸ ((Work.Onward.refl u).settle T).unmarked ?_, ?_⟩
    · rw [hu']
      exact Work.setFeed_unmarks (by rw [hof]; exact fun h => hq (List.length_eq_zero_iff.1 h.symm))
    · rw [(Work.finish_sameWork _).choose]
      refine (hv ▸ Work.settle_choose_of_occasion ?_ T : v.choose = none)
      rw [hu']
      exact Work.setFeed_occasion (by rw [hof]; exact fun h => hq (List.head?_eq_none_iff.1 h.symm))
  rcases hclosed with hc | ⟨-, -, ho, hc, -⟩
  · have hholds : v.waitHolds f
        = decide (s.feeds[f].state = .online ∧ s.run.state = .run ∧ s.feeds[f].shelf = .present) := by
      have hstate : v.feeds[f].state = s.feeds[f].state := by rw [hc, hself]; rfl
      have hqueue : v.feeds[f].queue = [] := by rw [hc, hself]; rfl
      have hshelf : v.feeds[f].shelf = s.feeds[f].shelf := by rw [hc, hself]; rfl
      simp only [State.waitHolds, hstate, hqueue, hshelf, hruns]
      simp [Bool.and_assoc]
    rw [hc, hself, hholds, hnow]
    refine ⟨rfl, rfl, rfl, .inl rfl, harb, hlast, ?_, htells⟩
    simp [FeedRec.flushed]
  · have hbypass : s.run.state = .bypass := by
      rw [State.feedOffers, hself, hurun] at ho
      exact ho.resolve_right fun h => h.elim nofun fun h => h rfl
    have hqueue : (u.releasedFeed f).queue = [] := by rw [State.releasedFeed, hself]; simp [FeedRec.flushed]
    rw [hc]
    refine ⟨hqueue, rfl, ?_, .inr ⟨hbypass, rfl⟩, harb, hlast, ?_, htells⟩
    · rw [State.releasedFeed, hself]
      rfl
    · rw [if_neg fun h => by rw [hbypass] at h; exact nomatch h.2.1]

end Sys2Proof.Proofs
end

section
/-! SUPPORT. The sheet-present inputs and the waits: the settling of `Obligations.ShelfEventsAndWaits`. -/

namespace Sys2Proof.Machine

section
variable (w : Work) (b : State) (f : FeedId)

/-- As the work goes on a feed stays as it is, but that a start-up that ends in BYPASS empties it. -/
theorem Work.goOn_feed : w.goOn.feeds[f] = w.feeds[f]
    ∨ w.starting = true ∧ w.goOn.run.state = .bypass ∧ w.goOn.feeds[f] = w.feeds[f].flushed := by
  rcases w.goOn_merge with h | ⟨hs, hr, hf, -⟩
  · exact .inl (by rw [Work.feeds_of_merge h])
  · exact .inr ⟨hs, hr, hf f⟩

theorem Work.settle_releasing : (w.settle b).releasing = w.goOn.releasing := by
  rw [State.releasing, State.releasing, w.settle_run]

/-- As a step settles, a feed keeps its shelf, but that a sheet PRESENT may be released. -/
theorem Work.settle_shelf : (w.settle b).feeds[f].shelf = w.feeds[f].shelf
    ∨ w.feeds[f].shelf = .present ∧ (w.settle b).releasing = true ∧ (w.settle b).feeds[f].shelf = .clearing := by
  have hshelf : w.goOn.feeds[f].shelf = w.feeds[f].shelf := by
    rcases w.goOn_feed f with h | ⟨-, -, h⟩ <;> rw [h]
    rfl
  rcases w.settle_feedClosed b f with h | ⟨hp, hr, -, h, -⟩
  · left
    rw [h, hshelf]
  · exact .inr ⟨hshelf.symm.trans hp, (w.settle_releasing b).trans hr, by rw [h, State.releasedFeed]⟩

/-- A feed's wait follows its conditions once a step has settled (R39). -/
theorem Work.settle_wait : ((w.settle b).waitHolds f = false → (w.settle b).feeds[f].wait = none)
    ∧ ((w.settle b).waitHolds f = true → (w.settle b).feeds[f].discard = false →
        (w.settle b).feeds[f].wait = some (w.feeds[f].wait.getD w.now)) := by
  obtain ⟨t, ht⟩ : ∃ t, t = (w.settle b).toState := ⟨_, rfl⟩
  have hclosed := w.settle_feedClosed b f
  have hrun : t.run = w.goOn.run := by rw [ht]; exact w.settle_run b
  rw [← ht] at hclosed ⊢
  rcases hclosed with h | ⟨-, -, -, h, -⟩
  · refine ⟨fun hh => by rw [h, hh]; rfl, fun hh hd => ?_⟩
    rw [h] at hd ⊢
    rw [hh, hd]
    rcases w.goOn_feed f with hf | ⟨-, hb, -⟩
    · rw [hf]
      rfl
    · rw [State.waitHolds, hrun, hb] at hh
      simp at hh
  · refine ⟨fun _ => by rw [h], fun hh => ?_⟩
    rw [State.waitHolds, h] at hh
    simp [State.releasedFeed] at hh

end

theorem Work.pins_of_frame {w v : Work} (h : v.frame = w.frame) : v.pins = w.pins := congrArg Frame.pins h

theorem State.waitHolds_finish (w : Work) (f : FeedId) : w.finish.waitHolds f = w.waitHolds f := by
  rw [State.waitHolds, State.waitHolds, Work.finish_feeds, Work.finish_run]

/-- The sheet-present level of feed `f` becomes `b`, its record `r`. -/
theorem Work.presented (s : State) (f : FeedId) (b : Bool) (r : FeedRec) (x : State) :
    let t := ((((Work.of s).setPresent f b).setFeed f r).settle x).finish
    s.keepsPacks t ∧ s.keepsBins t [] ∧ t.pins.sheetPresent[f] = b := by
  obtain ⟨u, hu⟩ : ∃ u, u = ((Work.of s).setPresent f b).setFeed f r := ⟨_, rfl⟩
  rw [← hu]
  have hpins : u.pins.sheetPresent[f] = b := by
    rw [hu, Work.setFeed_pins]
    exact Vector.getElem_set_self f.isLt
  have hreg : u.reg = s.reg := by rw [hu, Work.setFeed_reg]; rfl
  have hret : u.ret = s.ret := by rw [hu, Work.setFeed_ret]; rfl
  refine ⟨((State.keepsPacks_of_reg hreg).settle x).finish, ((State.keepsBins_of_bins (by rw [hret]) []).settle x).finish, ?_⟩
  rw [Work.finish_pins, Work.pins_of_frame (u.frame_settle x), hpins]

end Sys2Proof.Machine

namespace Sys2Proof.Proofs

open Sys2Proof.Machine

/-- Settles O41: the settling may release the sheet PRESENT, and the wait follows. -/
theorem shelfEventsAndWaits : Obligations.ShelfEventsAndWaits := by
  unfold Obligations.ShelfEventsAndWaits
  intro f s
  refine ⟨fun h => exec_stays rfl (by rw [Instr.comes, h]; rfl), fun h => exec_stays rfl h, fun h => ?_, fun h => ?_, ?_⟩
  · obtain ⟨hp, hb, hpin⟩ := Work.presented s f true { s.feeds[f] with shelf := s.feeds[f].shelf.activated } s
    obtain ⟨u, hu⟩ : ∃ u, u = ((Work.of s).setPresent f true).setFeed f
      { s.feeds[f] with shelf := s.feeds[f].shelf.activated } := ⟨_, rfl⟩
    have hself : u.feeds[f] = { s.feeds[f] with shelf := s.feeds[f].shelf.activated } := by
      rw [hu, Work.setFeed_feeds]
      exact Vector.getElem_set_self f.isLt
    have hnow : u.now = s.now := by rw [hu, Work.setFeed_now]; rfl
    have heff : (Instr.sheetPresentActive f).effect (Work.of s) = u.settle s := by rw [hu, Instr.effect]; rfl
    rw [← hu] at hp hb hpin
    refine ⟨_, exec_comes (c := .sheetPresentActive f) rfl (by rw [Instr.comes, h]; rfl), ?_⟩
    rw [heff]
    refine ⟨hp, hb, hpin, ?_⟩
    rw [State.waitHolds_finish, Work.finish_feeds, State.releasing, Work.finish_run, ← State.releasing]
    have hshelf := u.settle_shelf s f
    have hwait := u.settle_wait s f
    rw [hself] at hshelf hwait
    rw [hnow] at hwait
    refine ⟨fun hc => ?_, fun hc => ?_, hwait.2, hwait.1⟩
    · rw [hc] at hshelf
      exact hshelf.elim id fun x => x.2.2
    · have hact : s.feeds[f].shelf.activated = .present := by
        cases hs : s.feeds[f].shelf with
        | clearing => exact absurd hs hc
        | _ => rfl
      rw [hact] at hshelf
      exact hshelf.imp id And.right
  · obtain ⟨hp, hb, hpin⟩ := Work.presented s f false { s.feeds[f] with shelf := .empty, discard := false } s
    obtain ⟨u, hu⟩ : ∃ u, u = ((Work.of s).setPresent f false).setFeed f
      { s.feeds[f] with shelf := .empty, discard := false } := ⟨_, rfl⟩
    have hself : u.feeds[f] = { s.feeds[f] with shelf := .empty, discard := false } := by
      rw [hu, Work.setFeed_feeds]
      exact Vector.getElem_set_self f.isLt
    have heff : (Instr.sheetPresentInactive f).effect (Work.of s) = u.settle s := by rw [hu, Instr.effect]; rfl
    rw [← hu] at hp hb hpin
    refine ⟨_, exec_comes (c := .sheetPresentInactive f) rfl h, ?_⟩
    rw [heff]
    refine ⟨hp, hb, hpin, ?_⟩
    rw [Work.finish_feeds]
    have hcases : (u.settle s).feeds[f] = { u.goOn.feeds[f] with
        wait := if (u.settle s).waitHolds f && !u.goOn.feeds[f].discard then some (u.goOn.feeds[f].wait.getD u.now) else none } := by
      rcases u.settle_feedClosed s f with hc | ⟨hpresent, -⟩
      · exact hc
      · rcases u.goOn_feed f with hf | ⟨-, -, hf⟩ <;> rw [hf, hself] at hpresent <;> cases hpresent
    have hshelf : (u.settle s).feeds[f].shelf = .empty := by
      rcases u.settle_shelf s f with hs | ⟨hpresent, -⟩
      · rw [hs, hself]
      · rw [hself] at hpresent; cases hpresent
    refine ⟨hshelf, ?_, (u.settle_wait s f).1 (by rw [State.waitHolds, hshelf]; exact Bool.and_false _), fun hs => ?_⟩
    · rw [hcases]
      rcases u.goOn_feed f with hf | ⟨-, -, hf⟩ <;> rw [hf, hself]
      rfl
    · rw [hcases]
      rcases u.goOn_feed f with hf | ⟨hstarting, -⟩
      · rw [hf, hself]
      · rw [State.starting_eq, hu, Work.setFeed_run] at hstarting
        rw [State.starting_eq] at hs
        exact absurd (hstarting.symm.trans hs) nofun
  · cases hexp : s.waitExpired f with
    | false =>
      refine ⟨s, exec_stays rfl hexp, fun start hstart hholds hle => ?_, fun _ => rfl⟩
      rw [State.waitExpired, hstart] at hexp
      simp [-Fin.getElem_fin, hholds, hle] at hexp
    | true =>
      obtain ⟨u, hu⟩ : ∃ u, u = (Work.of s).setFeed f { s.feeds[f] with wait := none, discard := true } := ⟨_, rfl⟩
      have heff : (Instr.unannouncedSheetWaitExpiry f).effect (Work.of s) = u.settle s := by rw [hu, Instr.effect]; rfl
      have hself : u.feeds[f] = { s.feeds[f] with wait := none, discard := true } := by
        rw [hu, Work.setFeed_feeds]
        exact Vector.getElem_set_self f.isLt
      have hrun : u.run = s.run := by rw [hu, Work.setFeed_run]; rfl
      refine ⟨_, exec_comes (c := .unannouncedSheetWaitExpiry f) rfl hexp, fun start hstart hholds hle => ?_, fun hnot => ?_⟩
      · have hstate : s.feeds[f].shelf = .present ∧ s.run.state = .run := by
          simp only [State.waitHolds, Bool.and_eq_true, decide_eq_true_eq] at hholds
          exact ⟨hholds.2, hholds.1.1.2⟩
        have hstarting : u.starting = false := by rw [State.starting, hrun, hstate.2]
        have hfrom : Work.From s u :=
          hu ▸ (Work.From.of s).evolves ((Evolves.refl _).setFeed f _) (Work.frame_setFeed _ _ _)
        have hreg : u.reg = s.reg := by rw [hu, Work.setFeed_reg]; rfl
        have hret : u.ret = s.ret := by rw [hu, Work.setFeed_ret]; rfl
        rw [heff]
        refine ⟨(hfrom.settle s).surrounds, ((State.keepsPacks_of_reg hreg).settle s).finish,
          ((State.keepsBins_of_bins (by rw [hret]) []).settle s).finish, ?_⟩
        rw [Work.finish_feeds]
        rcases u.settle_feedRunning s hstarting f with hc | ⟨-, -, -, hc, hl⟩
        · rw [hc, hself]
          exact ⟨by simp, .inl ⟨rfl, hstate.1⟩⟩
        · rw [hc, State.releasedFeed]
          refine ⟨rfl, .inr ⟨rfl, rfl, Work.finish_latched _ _ (hl ?_ ?_)⟩⟩
          · rw [hrun, hstate.2]; exact nofun
          · rw [hself]
      · rw [State.waitExpired] at hexp
        split at hexp
        · cases hexp
        next start hstart =>
          simp only [Bool.and_eq_true, decide_eq_true_eq] at hexp
          exact absurd hexp.2 (Int.not_le.2 (hnot start hstart hexp.1))

end Sys2Proof.Proofs
end

section
/-! SUPPORT. A change of the run state by an accepted action, and a settling that releases nothing: the settling of
`Obligations.RunStateActionsAreTaken`. -/

namespace Sys2Proof.Machine

/-! ### The same work -/

section
variable {s t : State} (h : s.sameWork t)
include h

theorem State.sameWork.run : t.run = s.run := by rw [State.sameWork] at h; rw [h]
theorem State.sameWork.feeds : t.feeds = s.feeds := by rw [State.sameWork] at h; rw [h]
theorem State.sameWork.arb : t.arb = s.arb := by rw [State.sameWork] at h; rw [h]
theorem State.sameWork.atRest : t.atRest = s.atRest := by rw [State.sameWork] at h; rw [h]; rfl
theorem State.sameWork.waitHolds (f : FeedId) : t.waitHolds f = s.waitHolds f := by
  rw [State.sameWork] at h; rw [h]; rfl

end

/-! ### An accepted action -/

theorem State.takenFor_run (s : State) (c : Instr) : (s.takenFor c).run = s.run := by
  obtain ⟨l, hl, -⟩ := s.takenFor_link c
  rw [hl]

theorem State.takenFor_feeds (s : State) (c : Instr) : (s.takenFor c).feeds = s.feeds := by
  obtain ⟨l, hl, -⟩ := s.takenFor_link c
  rw [hl]

theorem Work.enterBypass_blocks (w : Work) : w.enterBypass.reg = w.reg ∧ w.enterBypass.ret.bins = w.ret.bins := by
  unfold Work.enterBypass
  constructor
  · rw [Work.each_same (fun x => x.reg) Work.flushFeed (fun x f => x.setFeed_reg f _), Work.setRunState_reg]
  · rw [Work.each_same (fun x => x.ret.bins) Work.flushFeed (fun x f => by rw [Work.flushFeed, Work.setFeed_ret]), Work.setRunState_ret]

/-- An action accepted from `s` by the work `u`: what is left alone, and the Result with the run state entered. -/
theorem exec_entered {c : Instr} {s : State} (ht : s.takesCommand c) {u : Work} (hfrom : Work.From (s.takenFor c) u)
    (he : c.effect (Work.of (s.takenFor c)) = u.entered (s.takenFor c)) (hp : s.keepsPacks u.toState)
    (hb : u.ret.bins = s.ret.bins) :
    ∃ t, exec c s = .next t ∧ (∃ v, v = u.settle (s.takenFor c) ∧ v.toState.sameWork t) ∧ (s.takenFor c).surrounds t
      ∧ s.keepsPacks t ∧ s.keepsBins t []
      ∧ s.tells t (.result kindControl .accepted {} [runCode (runCodeOf t.run.state)]) := by
  obtain ⟨v, hv⟩ : ∃ v, v = u.settle (s.takenFor c) := ⟨_, rfl⟩
  have hfromV : Work.From (s.takenFor c) v := hv ▸ hfrom.settle _
  have hentered : u.entered (s.takenFor c) = v.answer kindControl .accepted [runCode (runCodeOf v.run.state)] := by
    rw [hv, Work.entered]
  refine ⟨_, exec_taken ht, ⟨v, hv, ?_⟩, ?_⟩
  · rw [he, hentered]
    exact Work.finish_sameWork (v.answer _ _ _)
  rw [he, hentered]
  refine ⟨(hfromV.answer _ _ _ _).surrounds, (hv ▸ hp.settle _ : s.keepsPacks v.toState).answer.finish,
    (hv ▸ (State.keepsBins_of_bins hb []).settle _ : s.keepsBins v.toState []).answer.finish, ?_⟩
  rw [Work.finish_run]
  exact hfromV.tells_taken rfl

theorem Work.arb_of_merge {w v : Work} (h : v.merge = w.merge) : v.arb = w.arb := congrArg Merge.arb h

/-! ### A settling that releases nothing -/

section
variable {w : Work}

theorem State.candidate_of_not_releasing {s : State} (h : s.releasing = false) (f : FeedId) : s.candidate f = false := by
  simp [State.candidate, h]

theorem Work.Decides.idle {v : Work} (h : w.Decides v) (hr : w.releasing = false) : v = w.poised := by
  cases h with
  | done => rfl
  | next hc =>
    have hcand := State.choose_candidate hc
    have hsame : w.poised.releasing = w.releasing := State.releasing_of (by rw [w.poised_same.1])
    rw [State.candidate_of_not_releasing (hsame.trans hr)] at hcand
    cases hcand

/-- Where no sheet is released, decisions bound the age of A_last and drop a break pick alone. -/
theorem Work.decideReleases_idle (h : w.releasing = false) :
    ∃ a p, w.decideReleases = { w with arb := { w.arb with aLast := a, pick := p } } := by
  rcases w.decideReleases_is with ⟨-, hd⟩ | ⟨-, hd⟩
  · obtain ⟨p, -, e⟩ := w.poised_shape
    exact ⟨_, p, (hd.idle h).trans e⟩
  · exact ⟨_, _, hd⟩

theorem Work.timedBlock_idle (h : w.releasing = false) : w.timedBlock = none := by
  have hwaits : w.mergeWaits = false := by
    rw [State.mergeWaits, List.any_eq_false]
    intro f _
    rw [State.candidate_of_not_releasing h]
    exact Bool.false_ne_true
  rw [Work.timedBlock, State.blockHolds, hwaits]
  rfl

/-- Where no sheet is released, the end of the settling leaves the in-flight list and stops the block timer (R63). -/
theorem Work.closed_idle (h : w.releasing = false) (b : State) :
    (w.closed b).arb.inFlight = w.arb.inFlight ∧ (w.closed b).arb.blockTimer = none := by
  obtain ⟨fs, m', o', hw⟩ := w.timeWaits_shape
  obtain ⟨x, hx⟩ : ∃ x, x = w.timeWaits := ⟨_, rfl⟩
  have hr : x.releasing = false := by rw [hx, hw]; exact h
  have hi : x.arb.inFlight = w.arb.inFlight := by rw [hx, hw]
  obtain ⟨bs, a, m, o, hc⟩ := w.closed_shape b
  rw [hc, ← hx]
  exact ⟨hi, Work.timedBlock_idle hr⟩

theorem Work.settle_idle (h : w.goOn.releasing = false) (b : State) :
    (w.settle b).arb.inFlight = w.goOn.arb.inFlight ∧ (w.settle b).arb.blockTimer = none
      ∧ ∀ f : FeedId, (w.settle b).feeds[f].queue = w.goOn.feeds[f].queue := by
  rw [and_assoc.symm]
  refine ⟨?_, fun f => ?_⟩
  · obtain ⟨x, hx⟩ : ∃ x, x = w.goOn := ⟨_, rfl⟩
    rw [← hx] at h
    obtain ⟨a, p, hd⟩ := Work.decideReleases_idle h
    have hidle := (Work.closed_idle (w := x.decideReleases) (by rw [hd]; exact h) b)
    rw [Work.settle_closed, ← hx]
    refine ⟨hidle.1.trans ?_, hidle.2⟩
    rw [hd]
  · rcases w.settle_feedClosed b f with hf | ⟨-, hr, -⟩
    · rw [hf]
    · rw [h] at hr; cases hr

end

/-! ### The end of STOPPING (R186) -/

theorem State.StandsAlike.trans {s t u : State} (h : s.StandsAlike t) (k : t.StandsAlike u) : s.StandsAlike u where
  ready := h.ready.trans k.ready
  run := k.run.trans h.run
  stapler := k.stapler.trans h.stapler
  returns := k.returns.trans h.returns
  queue := k.queue.trans h.queue
  pockets p := by
    rcases h.pockets p with e | ⟨e1, e2⟩ <;> rcases k.pockets p with e' | ⟨e3, e4⟩
    · exact .inl (e'.trans e)
    · exact .inr ⟨by rwa [e] at e3, e4⟩
    · exact .inr ⟨e1, by rwa [e']⟩
    · exact .inr ⟨e1, e4⟩
  inFlight hne := k.inFlight (h.inFlight hne)

theorem State.StandsAlike.atRest_eq {s t : State} (h : s.StandsAlike t) (hi : t.arb.inFlight = s.arb.inFlight) :
    t.atRest = s.atRest := by
  have hreturn : t.returnAtRest = s.returnAtRest := by
    simp only [State.returnAtRest, h.returns, h.queue, funext h.ready.eligible]
  have hstapler : t.staplerAtRest = s.staplerAtRest := by
    simp only [State.staplerAtRest, State.volumeInFlight, h.stapler]
  rw [State.atRest, State.atRest, hi, hstapler, hreturn, h.anyPurging]

section
variable (w : Work)

theorem Work.setRemaining_run (n : Nat) : (w.setRemaining n).run = w.run := by
  unfold Work.setRemaining Work.judgeStaples
  obtain ⟨m, h⟩ := (w.setStaplerRec { w.stapler with remaining := n }).touchIf_shape
    (decide (n ≠ w.stapler.remaining)) .settings
  dsimp only
  rw [h]
  split <;> rfl

theorem Work.finishPack_run (k : Handle) (f : PackFlags) : (w.finishPack k f).run = w.run := by
  unfold Work.finishPack Work.goReady
  dsimp only
  refine (Work.setPack_run _ k _).trans ?_
  split
  · rfl
  · exact Work.setPocket_run _ _ _

theorem Work.startVolume_run (k : WorkRec) : (w.startVolume k).run = w.run := by
  unfold Work.startVolume Work.shortVolume
  dsimp only
  split
  · split
    · rfl
    · exact (Work.finishPack_run _ _ _).trans rfl
  · have hpack (x : Work) (b : Prop) [Decidable b] (r : PackRec) :
        (if b then x.setPack k.handle r else x).run = x.run := by
      split
      · exact x.setPack_run _ _
      · rfl
    split
    · exact (hpack _ _ _).trans (w.setRemaining_run _)
    · exact (Work.setPocket_run _ _ _).trans ((hpack _ _ _).trans (w.setRemaining_run _))

theorem Work.takeUp_run (n : Nat) : (Work.takeUp n w).run = w.run := by
  induction n generalizing w with
  | zero => rfl
  | succ n ih =>
    unfold Work.takeUp
    split
    · rfl
    · split
      · exact (ih _).trans (w.startVolume_run _)
      · rfl

theorem Work.judge_run : w.judge.run = w.run := rfl

variable {w} in
theorem Work.endStopping_state {o : StoppingOrigin} (ho : w.run.state = .stopping o) :
    w.endStopping.run.state = if w.endStopping.atRest then .standby else .stopping o := by
  unfold Work.endStopping
  rw [ho]
  dsimp only
  split
  next ha =>
    have hsame : (w.setRunState .standby).atRest = w.atRest := rfl
    rw [hsame, if_pos ha, Work.setRunState_run]
  next => exact ho

/-- STOPPING ends as the work goes on exactly where the device is then at rest (R186). -/
theorem Work.goOn_stopping {o : StoppingOrigin} (ho : w.run.state = .stopping o) :
    w.goOn.run.state = if w.goOn.atRest then .standby else .stopping o := by
  obtain ⟨y, hy⟩ : ∃ y, y = w.startPurges := ⟨_, rfl⟩
  have hrun : y.run.state = .stopping o := by rw [hy, w.startPurges_run, ho]
  obtain ⟨x, hx⟩ : ∃ x, x = y.judge.staple.startDelivery := ⟨_, rfl⟩
  have hgo : w.goOn = x.endStopping := by
    rw [Work.goOn, ← hy, Work.endStartUp_of_running, hx]
    rw [State.starting_eq, hrun]
    rfl
  rw [hgo]
  refine Work.endStopping_state ?_
  rw [hx, Work.startDelivery_run, Work.staple, Work.takeUp_run, Work.judge_run, hrun]

theorem Work.settle_standsAlike (b : State) : w.goOn.toState.StandsAlike (w.settle b).toState := by
  have h1 := ((Work.Released.refl w.goOn).decideReleases.timeWaits.timeBlock).standsAlike
  have h2 := Work.judgeBinFull_standsAlike w.goOn.decideReleases.timeWaits.timeBlock b
  have h3 := Work.driveLamps_standAlike (w.goOn.decideReleases.timeWaits.timeBlock.judgeBinFull b)
  rw [Work.settle_eq]
  exact (h1.trans h2).trans h3

variable {w} in
theorem Work.goOn_idle_of_stopping {o : StoppingOrigin} (ho : w.run.state = .stopping o) : w.goOn.releasing = false := by
  rcases w.goOn_run (by rw [State.starting_eq, ho]; rfl) with h | ⟨-, h⟩
  · rw [State.releasing, h, ho]; rfl
  · rw [State.releasing, h]; rfl

theorem Work.settle_stopping {o : StoppingOrigin} (ho : w.run.state = .stopping o) (b : State) :
    (w.settle b).run.state = if (w.settle b).atRest then .standby else .stopping o := by
  rw [(w.settle_standsAlike b).atRest_eq (Work.settle_idle (Work.goOn_idle_of_stopping ho) b).1, w.settle_run, w.goOn_stopping ho]

end

end Sys2Proof.Machine

namespace Sys2Proof.Proofs

open Sys2Proof.Machine

/-- Settles O59: the run state is entered as the settling begins, which releases in RUN and BYPASS alone. -/
theorem runStateActionsAreTaken : Obligations.RunStateActionsAreTaken := by
  unfold Obligations.RunStateActionsAreTaken
  intro a s refused entered
  have refuse {c : Instr} (ht : s.takesCommand c) (he : c.effect (Work.of (s.takenFor c))
      = (Work.of (s.takenFor c)).refuseControl .wrongState) : refused c := fun hf => exec_answers ht hf he
  have enter {c : Instr} (ht : s.takesCommand c) {st : RunState} {then' : State → Prop}
      (he : c.effect (Work.of (s.takenFor c))
        = ((Work.of (s.takenFor c)).setRunState st).entered (s.takenFor c))
      (hthen : ∀ {u v : Work} {t : State}, u = (Work.of (s.takenFor c)).setRunState st → u.starting = false →
        u.feeds = s.feeds → u.arb = s.arb → u.now = s.now → v = u.settle (s.takenFor c) → v.toState.sameWork t → then' t)
      (hst : st.starts = false) : entered c then' := by
    obtain ⟨l, hl, -⟩ := s.takenFor_link c
    obtain ⟨t, het, ⟨v, hv, hsame⟩, h1, h2, h3, h4⟩ := exec_entered ht
      (u := (Work.of (s.takenFor c)).setRunState st)
      ((Work.From.of _).evolves ((Evolves.refl _).setRunState _) (Work.frame_setRunState _ _)) he
      (State.keepsPacks_of_reg (by rw [Work.setRunState_reg, Work.of_toState, hl]))
      (by rw [Work.setRunState_ret, Work.of_toState, hl])
    refine ⟨t, het, h1, h2, h3, h4, hthen rfl ?_ ?_ ?_ ?_ hv hsame⟩
    · rw [State.starting_eq, Work.setRunState_run]
      exact hst
    · rw [Work.setRunState_feeds, Work.of_toState, hl]
    · rw [Work.setRunState_arb, Work.of_toState, hl]
    · rw [Work.setRunState_now, Work.of_toState, hl]
  refine ⟨fun ht => ?_, fun ht => ?_, fun ht => ?_, fun ht => ?_⟩
  · split
    next hst =>
      refine enter ht (st := .run) ?_ (fun {u v t} hu hs hfeeds _ hnow hv hsame => ?_) rfl
      · rw [Instr.effect]
        unfold Work.controlRun
        rw [Work.of_toState, State.takenFor_run]
        rcases hst with h | h <;> rw [h]
      · have ho : u.occasion = true := by
          rw [hu, Work.setRunState, Work.of_toState, State.takenFor_run]
          rcases hst with h | h <;> rw [h] <;> rfl
        have hrun : v.run.state = .run := by
          rw [hv, Work.settle_runs hs, hu, Work.setRunState_run]
        have hwait (f : FeedId) := (u.settle_wait (s.takenFor (.run false a)) f).2
        rw [← hv, hfeeds, hnow] at hwait
        refine ⟨?_, ?_, fun f => ?_⟩
        · rw [hsame.run, hrun]
        · rw [hsame.choose, hv]
          exact Work.settle_choose_of_occasion ho _
        · rw [hsame.waitHolds, hsame.feeds]
          exact hwait f
    next hst =>
      refine refuse ht ?_
      rw [Instr.effect]
      unfold Work.controlRun
      rw [Work.of_toState, State.takenFor_run]
      cases h : s.run.state with
      | standby => exact absurd (.inl h) hst
      | pause => exact absurd (.inr h) hst
      | _ => rfl
  · split
    next hst =>
      refine enter ht (st := .pause) ?_ (fun {u v t} hu hs hfeeds harb _ hv hsame => ?_) rfl
      · rw [Instr.effect]
        unfold Work.controlPause
        rw [Work.of_toState, State.takenFor_run, hst]
      · have hu' : u.run.state = .pause := by rw [hu, Work.setRunState_run]
        have hgo : u.goOn.run.state = .pause := by
          rcases u.goOn_run hs with h | ⟨⟨o, h⟩, -⟩
          · rw [h, hu']
          · rw [hu'] at h; cases h
        have hmerge := u.goOn_merge_of_running hs
        obtain ⟨h1, h2, h3⟩ := Work.settle_idle (w := u) (by rw [State.releasing, hgo]; rfl) (s.takenFor (.pause false a))
        have hwait (f : FeedId) := (u.settle_wait (s.takenFor (.pause false a)) f).1
        have hrun := (u.settle_run (s.takenFor (.pause false a))).symm ▸ hgo
        rw [← hv] at h1 h2 h3 hwait hrun
        rw [hsame.run, hsame.arb, hsame.feeds]
        refine ⟨hrun, ?_, h2, fun f => ⟨hwait f ?_, ?_⟩⟩
        · rw [h1, Work.arb_of_merge hmerge, harb]
        · rw [State.waitHolds, hrun]
          simp
        · rw [h3, Work.feeds_of_merge hmerge, hfeeds]
    next hst =>
      refine refuse ht ?_
      rw [Instr.effect]
      unfold Work.controlPause
      rw [Work.of_toState, State.takenFor_run]
      cases h : s.run.state with
      | run => exact absurd h hst
      | _ => rfl
  · have stops {o : StoppingOrigin} (he : (Instr.standby false a).effect (Work.of (s.takenFor (.standby false a)))
        = ((Work.of (s.takenFor (.standby false a))).setRunState (.stopping o)).entered (s.takenFor (.standby false a))) :
        entered (.standby false a) fun t => t.run.state = (if t.atRest then .standby else .stopping o)
          ∧ t.arb.inFlight = s.arb.inFlight ∧ ∀ f : FeedId, t.feeds[f].queue = s.feeds[f].queue := by
      refine enter ht (st := .stopping o) he (fun {u v t} hu hs hfeeds harb _ hv hsame => ?_) rfl
      have hu' : u.run.state = .stopping o := by rw [hu, Work.setRunState_run]
      have hmerge := u.goOn_merge_of_running hs
      obtain ⟨h1, -, h3⟩ := Work.settle_idle (Work.goOn_idle_of_stopping hu') (s.takenFor (.standby false a))
      have hrun := u.settle_stopping hu' (s.takenFor (.standby false a))
      rw [← hv] at h1 h3 hrun
      rw [hsame.run, hsame.arb, hsame.feeds, hsame.atRest]
      refine ⟨hrun, ?_, fun f => ?_⟩
      · rw [h1, Work.arb_of_merge hmerge, harb]
      · rw [h3, Work.feeds_of_merge hmerge, hfeeds]
    intro _
    split
    case h_4 h1 h2 h3 =>
      refine refuse ht ?_
      rw [Instr.effect]
      unfold Work.controlStandby
      rw [Work.of_toState, State.takenFor_run]
      cases h : s.run.state with
      | run => exact absurd h h1
      | pause => exact absurd h h2
      | bypass => exact absurd h h3
      | _ => rfl
    all_goals
      next hst =>
        refine stops ?_
        rw [Instr.effect]
        unfold Work.controlStandby
        rw [Work.of_toState, State.takenFor_run, hst]
  · split
    next hst =>
      obtain ⟨T, hT⟩ : ∃ T, T = s.takenFor (.bypass false a) := ⟨_, rfl⟩
      obtain ⟨hreg, hret⟩ := (Work.of T).enterBypass_blocks
      obtain ⟨l, hl, -⟩ := s.takenFor_link (.bypass false a)
      have hfrom : Work.From T (Work.of T).enterBypass :=
        (Work.From.of T).evolves (Evolves.refl _).enterBypass (Work.frame_enterBypass _)
      have he : (Instr.bypass false a).effect (Work.of T) = (Work.of T).enterBypass.entered T := by
        rw [Instr.effect]
        unfold Work.controlBypass
        rw [Work.of_toState, hT, State.takenFor_run, hst]
      have hTfeeds : T.feeds = s.feeds := by rw [hT, hl]
      rw [hT] at hfrom he
      obtain ⟨t, het, ⟨v, hv, hsame⟩, h1, h2, h3, h4⟩ := exec_entered ht hfrom he
        (State.keepsPacks_of_reg (by rw [← hT, hreg, Work.of_toState, hT, hl]))
        (by rw [← hT, hret, Work.of_toState, hT, hl])
      rw [← hT] at hfrom he hv
      refine ⟨t, het, h1, h2, h3, h4, ?_⟩
      obtain ⟨u, hu⟩ : ∃ u, u = (Work.of T).enterBypass := ⟨_, rfl⟩
      have hu' : u.run.state = .bypass := by
        have h := (Work.of T).runState_enterTarget .bypass
        rwa [Work.enterTarget_bypass, ← hu] at h
      have hs : u.starting = false := by rw [State.starting_eq, hu']; rfl
      have hfeed (f : FeedId) : u.feeds[f] = s.feeds[f].flushed := by
        rw [hu, (Work.of T).enterBypass_merge.1 f, Work.of_toState, hTfeeds]
      have hrun : v.run.state = .bypass := by
        rw [hv, ← hu, Work.settle_run]
        rcases u.goOn_run hs with h | ⟨⟨o, h⟩, -⟩
        · rw [h, hu']
        · rw [hu'] at h; cases h
      rw [hsame.run, hsame.feeds]
      refine ⟨hrun, fun f => ?_⟩
      have hwait : v.feeds[f].wait = none := by
        rw [hv, ← hu]
        refine (u.settle_wait T f).1 ?_
        rw [hu, ← hv, State.waitHolds, hrun]
        simp
      have hclosed := u.settle_feedRunning T hs f
      rw [hu, ← hv, ← hu] at hclosed
      rcases hclosed with hc | ⟨-, -, -, hc, -⟩
      · rw [hfeed] at hc
        exact ⟨by rw [hc]; rfl, by rw [hc]; rfl, hwait, by rw [hc]; rfl⟩
      · rw [State.releasedFeed, if_pos (.inl hu'), hfeed] at hc
        exact ⟨by rw [hc]; rfl, by rw [hc], hwait, by rw [hc]; rfl⟩
    next hst =>
      refine refuse ht ?_
      rw [Instr.effect]
      unfold Work.controlBypass
      rw [Work.of_toState, State.takenFor_run]
      cases h : s.run.state with
      | standby => exact absurd h hst
      | _ => rfl

end Sys2Proof.Proofs
end

section
/-! SUPPORT. What the blocks do as the work goes on is nothing to release decisions (`Work.goOn_sameChoice`). -/

namespace Sys2Proof.Machine

/-! ### Plants that are alike to release decisions -/

/-- The pocket is neither EMPTY nor OUT_OF_SERVICE. -/
def PocketState.inUse (x : PocketState) : Prop := x ≠ .empty ∧ x ≠ .outOfService

namespace Plant

/-- Release decisions read the same in both plants, and packs with all their pages in keep pockets in use. -/
structure Alike (P Q : Plant) : Prop where
  queue : ∀ c, Q.queue c = P.queue c
  packs : ∀ k, (Q.pack k).merged = (P.pack k).merged ∧ (Q.pack k).pocket = (P.pack k).pocket
  pockets : ∀ p, (Q.pocket p).state = (P.pocket p).state ∨ (P.pocket p).state.inUse ∧ (Q.pocket p).state.inUse
  waiting : ∀ k ∈ Q.stapler.queue, k ∈ P.stapler.queue

/-- The packs in the staple queue have all their pages in, and every such pack's pocket is in use. -/
structure Steady (P : Plant) : Prop where
  waiting : ∀ k ∈ P.stapler.queue, (P.pack k).state.merged = .complete
  pocket : ∀ k p, (P.pack k).state.merged = .complete → (P.pack k).pocket = some p → (P.pocket p).state.inUse

variable {P Q R : Plant}

theorem Alike.refl (P : Plant) : P.Alike P := ⟨fun _ => rfl, fun _ => ⟨rfl, rfl⟩, fun _ => .inl rfl, fun _ => id⟩

theorem Alike.trans (h : P.Alike Q) (k : Q.Alike R) : P.Alike R where
  queue c := (k.queue c).trans (h.queue c)
  packs x := ⟨(k.packs x).1.trans (h.packs x).1, (k.packs x).2.trans (h.packs x).2⟩
  pockets p := by
    rcases h.pockets p with e | ⟨e1, e2⟩ <;> rcases k.pockets p with e' | ⟨e3, e4⟩
    · exact .inl (e'.trans e)
    · exact .inr ⟨e ▸ e3, e4⟩
    · exact .inr ⟨e1, e' ▸ e2⟩
    · exact .inr ⟨e1, e4⟩
  waiting x hx := h.waiting x (k.waiting x hx)

theorem Alike.state_merged (h : P.Alike Q) (k : Handle) : (Q.pack k).state.merged = (P.pack k).state.merged :=
  congrArg Prod.fst (h.packs k).1

theorem Alike.inUse (h : P.Alike Q) {p : PocketId} (hp : (P.pocket p).state.inUse) : (Q.pocket p).state.inUse := by
  rcases h.pockets p with e | ⟨-, e⟩
  · rwa [e]
  · exact e

theorem Steady.of (hs : P.Steady) (h : P.Alike Q) : Q.Steady where
  waiting k hk := (h.state_merged k).trans (hs.waiting k (h.waiting k hk))
  pocket k p hk hp := h.inUse (hs.pocket k p ((h.state_merged k).symm.trans hk) ((h.packs k).2.symm.trans hp))

theorem Alike.setPack (h : P.Alike Q) {k : Handle} {r : PackRec} (hm : r.merged = (Q.pack k).merged)
    (hp : r.pocket = (Q.pack k).pocket) : P.Alike (Q.setPack k r) := by
  refine h.trans ⟨fun _ => rfl, fun x => ?_, fun _ => .inl rfl, fun _ => id⟩
  by_cases e : x = k
  · rw [e, setPack_pack_self]
    exact ⟨hm, hp⟩
  · rw [setPack_pack_ne _ e]
    exact ⟨rfl, rfl⟩

theorem Alike.setPocket (h : P.Alike Q) {p : PocketId} {x : PocketRec}
    (hx : x.state = (Q.pocket p).state ∨ (Q.pocket p).state.inUse ∧ x.state.inUse) : P.Alike (Q.setPocket p x) := by
  refine h.trans ⟨fun _ => rfl, fun _ => ⟨rfl, rfl⟩, fun q => ?_, fun _ => id⟩
  by_cases e : q = p
  · rw [e, setPocket_pocket_self]
    exact hx
  · rw [setPocket_pocket_ne _ e]
    exact .inl rfl

theorem Alike.setStapler (h : P.Alike Q) {r : Stapler} (hr : ∀ k ∈ r.queue, k ∈ Q.stapler.queue) : P.Alike (Q.setStapler r) :=
  h.trans ⟨fun _ => rfl, fun _ => ⟨rfl, rfl⟩, fun _ => .inl rfl, hr⟩

theorem Alike.setReturn (h : P.Alike Q) (r : ReturnState) (d : Option DeliveryRec) : P.Alike (Q.setReturn r d) :=
  h.trans ⟨fun _ => rfl, fun _ => ⟨rfl, rfl⟩, fun _ => .inl rfl, fun _ => id⟩

theorem Alike.onPocket (h : P.Alike Q) {o : Option PocketId} {f : PocketRec → PocketRec}
    (hf : ∀ p, o = some p → (Q.pocket p).state.inUse ∧ (f (Q.pocket p)).state.inUse) : P.Alike (Q.onPocket o f) := by
  cases o with
  | none => exact h
  | some p => exact h.setPocket (.inr (hf p rfl))

end Plant

/-! ### As the work goes on -/

section
variable {w : Work}

theorem Work.startPurges_alike (w : Work) : w.plant.Alike w.startPurges.plant := by
  have heach (l : List PocketId) (x : Work) : x.plant.Alike (x.each Work.startPurge l).plant := by
    induction l generalizing x with
    | nil => exact .refl _
    | cons p l ih =>
      refine Plant.Alike.trans ?_ (ih (x.startPurge p))
      unfold Work.startPurge
      dsimp only
      split
      · rw [Work.setPocket_plant]
        exact (Plant.Alike.refl _).setPocket (.inl rfl)
      · exact .refl _
  exact heach _ w

theorem Work.finishPack_alike (hs : w.plant.Steady) {k : Handle} (hk : (w.pack k).state.merged = .complete) (f : PackFlags) :
    w.plant.Alike (w.finishPack k f).plant := by
  rw [Work.finishPack_plant]
  have hqueue : w.plant.Alike (w.plant.setStapler { w.stapler with
      queue := w.stapler.queue.filter fun j => decide (j ≠ k), state := .idle, work := none, command := none }) :=
    (Plant.Alike.refl _).setStapler fun j hj => (List.mem_filter.1 hj).1
  have hpocket := hqueue.onPocket (o := (w.pack k).pocket) (f := fun x => x.finished (w.pack k).volumes)
    fun p hp => ⟨hs.pocket k p hk hp, nofun, nofun⟩
  have hpack : ((w.plant.setStapler { w.stapler with
      queue := w.stapler.queue.filter fun j => decide (j ≠ k), state := .idle, work := none
      command := none }).onPocket (w.pack k).pocket fun x => x.finished (w.pack k).volumes).pack k = w.pack k := by
    rw [Plant.onPocket_pack]
    rfl
  refine hpocket.setPack ?_ ?_
  · rw [hpack, PackRec.merged, PackRec.merged, hk]
    rfl
  · rw [hpack]

theorem Work.startVolume_alike (hs : w.plant.Steady) {k : WorkRec} (hk : (w.pack k.handle).state.merged = .complete) :
    w.plant.Alike (w.startVolume k).plant := by
  by_cases hn : w.stapler.remaining < patternCount (w.pack k.handle).snap.pattern
  · rw [show w.startVolume k = w.shortVolume k from if_pos hn]
    unfold Work.shortVolume
    dsimp only
    split
    · exact (Plant.Alike.refl _).setStapler fun _ => id
    · exact Work.finishPack_alike (w := w.latch .staplesOut) hs hk _
  · rw [w.startVolume_plant k (Nat.not_lt.1 hn)]
    refine Plant.Alike.setStapler ?_ fun j hj => ?_
    · have hpack : w.plant.Alike (w.plant.setPack k.handle { w.pack k.handle with
          state := if k.volume = 1 ∧ (w.pack k.handle).state = .complete then .stapling
            else (w.pack k.handle).state }) := by
        refine (Plant.Alike.refl _).setPack ?_ rfl
        rw [PackRec.merged, PackRec.merged]
        split
        next hc => rw [State.plant_pack, hc.2]; rfl
        · rfl
      exact hpack.onPocket fun p hp => ⟨hs.pocket _ p hk hp, nofun, nofun⟩
    · rwa [Plant.onPocket_stapler]

theorem Work.takeUp_alike (hs : w.plant.Steady) (n : Nat) : w.plant.Alike (Work.takeUp n w).plant := by
  induction n generalizing w with
  | zero => exact .refl _
  | succ n ih =>
    unfold Work.takeUp
    split
    · exact .refl _
    next k rest hq =>
      split
      next hc =>
        have hi := of_decide_eq_true (Bool.and_eq_true_iff.1 hc).1
        have hhand : w.plant.InHand (w.workFor k) := .workFor hi (by rw [hq]; rfl)
        have halike := Work.startVolume_alike hs (hs.waiting _ (List.mem_of_mem_head? hhand.head))
        exact halike.trans (ih (hs.of halike))
      · exact .refl _

theorem Work.startDelivery_alike (hs : w.plant.Steady) : w.plant.Alike w.startDelivery.plant := by
  unfold Work.startDelivery
  split
  · split
    · exact .refl _
    next k hk =>
      split
      next p b hp hb =>
        have hready := State.eligible_ready (List.find?_some hk)
        have huse : (w.plant.pocket p).state.inUse := hs.pocket k p (by rw [State.plant_pack, hready]; rfl) hp
        have hplant : (w.beginDelivery k p b).plant = ((w.plant.setPack k { w.pack k with state := .delivering }).setPocket p
            { w.pockets[p] with state := .ejecting }).setReturn .ejecting (w.beginDelivery k p b).ret.delivery := by
          simp [Work.beginDelivery]
          rfl
        rw [hplant]
        have hpack : w.plant.Alike (w.plant.setPack k { w.pack k with state := .delivering }) := by
          refine (Plant.Alike.refl _).setPack ?_ rfl
          rw [PackRec.merged, PackRec.merged, State.plant_pack, hready]
          rfl
        have hejecting : PocketState.ejecting.inUse := ⟨nofun, nofun⟩
        exact (hpack.setPocket (.inr ⟨huse, hejecting⟩)).setReturn _ _
      · exact .refl _
  · exact .refl _

/-- What the blocks do as the work goes on outside STARTING is nothing to release decisions. -/
theorem Work.goOn_alike (hs : w.starting = false) (hp : w.plant.Steady) : w.plant.Alike w.goOn.plant := by
  obtain ⟨y, hy⟩ : ∃ y, y = w.startPurges := ⟨_, rfl⟩
  have hpurges : w.plant.Alike y.plant := by rw [hy]; exact w.startPurges_alike
  have hend : y.endStartUp = y := by
    rw [hy]
    exact Work.endStartUp_of_running (w.startPurges_starting.trans hs)
  have hjudge : w.plant.Alike y.judge.plant := by rwa [Work.judge_plant]
  have hstaple : w.plant.Alike y.judge.staple.plant := hjudge.trans (Work.takeUp_alike (hp.of hjudge) _)
  have hdelivery := hstaple.trans (Work.startDelivery_alike (hp.of hstaple))
  rw [Work.goOn, ← hy, hend, Work.endStopping_plant]
  exact hdelivery

theorem PocketState.inUse_of_housed {x : PocketState} {st : PackState} (h : x ∈ st.housedBy) : x.inUse := by
  constructor
  · rintro rfl
    cases st <;> simp [PackState.housedBy] at h
  · rintro rfl
    cases st <;> simp [PackState.housedBy] at h

theorem State.steady {s : State} (hq : s.stapleQueueSound) (hp : s.pocketsAgree) : s.plant.Steady where
  waiting k hk := by
    rcases hq.2 k hk with h | h
    · rw [State.plant_pack, h]; rfl
    · rw [State.plant_pack, h]; rfl
  pocket k p _ hpocket := PocketState.inUse_of_housed ((hp.2 k).2 p hpocket)

/-- Release decisions read the same before and after the work has gone on in a run state that it leaves. -/
theorem Work.goOn_sameChoice (hs : w.starting = false) (hp : w.plant.Steady) (hr : w.goOn.run.state = w.run.state) :
    w.toState.SameChoice w.goOn.toState := by
  obtain ⟨y, hy⟩ : ∃ y, y = w.goOn := ⟨_, rfl⟩
  have halike : w.plant.Alike y.plant := by rw [hy]; exact Work.goOn_alike hs hp
  have hmerge : y.merge = w.merge := by rw [hy]; exact w.goOn_merge_of_running hs
  have hframe : y.frame = w.frame := by rw [hy]; exact w.frame_goOn
  have harb := Work.arb_of_merge hmerge
  have hfeeds := Work.feeds_of_merge hmerge
  rw [← hy] at hr ⊢
  refine ⟨fun f => by rw [hfeeds], hr, by rw [harb], by rw [harb], by rw [harb], Work.now_of_frame hframe,
    congrArg Frame.tables hframe, halike.queue, fun k => (halike.packs k).1, fun p => ?_⟩
  rcases halike.pockets p with e | ⟨⟨e1, e2⟩, e3, e4⟩
  · rw [State.plant_pocket, State.plant_pocket] at e
    rw [e]
    exact ⟨Iff.rfl, Iff.rfl⟩
  · exact ⟨iff_of_false e3 e1, iff_of_false e4 e2⟩

end

end Sys2Proof.Machine
end

section
/-! SUPPORT. The choice among the sheets due and the release that comes due: the settling of
`Obligations.ReleasesAreMadeWhileOneIsDue`. -/

namespace Sys2Proof.Machine

/-! ### The older pack (R4) -/

/-- The announce serial `sa` stands half the circle or less before `sb`, the lower handle deciding at the half (R4). -/
theorem olderSerial_of_ahead {sa sb : Half} {a b : Handle}
    (h : 0 < (sb - sa).toNat ∧ (sb - sa).toNat < 32768 ∨ (sb - sa).toNat = 32768 ∧ a < b) :
    olderSerial sa sb a b = true ∧ olderSerial sb sa b a = false := by
  have hab : (sa - sb).toNat = (65536 - (sb - sa).toNat) % 65536 := by
    rw [BitVec.toNat_sub, BitVec.toNat_sub]
    have := sa.isLt
    have := sb.isLt
    omega
  have h1 : (sa - sb).toInt = -((sb - sa).toNat : Int) := by
    rw [BitVec.toInt_eq_toNat_cond, hab]
    split <;> omega
  have h2 : (sb - sa).toInt = if (sb - sa).toNat < 32768 then ((sb - sa).toNat : Int) else -32768 := by
    rw [BitVec.toInt_eq_toNat_cond]
    split <;> split <;> omega
  unfold olderSerial
  rcases h with ⟨hpos, hlt⟩ | ⟨he, hlt⟩
  · rw [h1, h2, if_pos hlt, if_neg (by omega), if_neg (by omega)]
    exact ⟨decide_eq_true (by omega), decide_eq_false (by omega)⟩
  · have e1 : (sa - sb).toInt = -32768 := by rw [h1, he]; rfl
    have e2 : (sb - sa).toInt = -32768 := by rw [h2, he]; rfl
    rw [if_pos (.inl e1), if_pos (.inl e2)]
    exact ⟨decide_eq_true hlt, decide_eq_false (not_lt.2 hlt.le)⟩

/-! ### The first of a list under a choice -/

section
variable {α : Type} {better : α → α → Bool}

theorem foldl_stays {l : List α} {x : α} (h : ∀ y ∈ l, better y x = false) :
    l.foldl (fun best y => if better y best then y else best) x = x := by
  induction l with
  | nil => rfl
  | cons y l ih =>
    rw [List.foldl_cons, h y List.mem_cons_self]
    exact ih fun z hz => h z (List.mem_cons_of_mem _ hz)

/-- The member that is better than those before it, and than which none behind it is better, is the first. -/
theorem firstBy_eq {pre post : List α} {x : α} (hpre : ∀ y ∈ pre, better x y = true)
    (hpost : ∀ y ∈ post, better y x = false) : firstBy better (pre ++ x :: post) = some x := by
  have key (l : List α) (b : α) (hb : better x b = true) (hl : ∀ y ∈ l, better x y = true) :
      (l ++ x :: post).foldl (fun best y => if better y best then y else best) b = x := by
    induction l generalizing b with
    | nil =>
      rw [List.nil_append, List.foldl_cons, hb]
      exact foldl_stays hpost
    | cons y l ih =>
      rw [List.cons_append, List.foldl_cons]
      refine ih _ ?_ fun z hz => hl z (List.mem_cons_of_mem _ hz)
      split
      · exact hl y List.mem_cons_self
      · exact hb
  cases pre with
  | nil => exact congrArg some (foldl_stays hpost)
  | cons y pre => exact congrArg some (key pre y (hpre y List.mem_cons_self) fun z hz => hpre z (List.mem_cons_of_mem _ hz))

theorem firstBy_eq_none {l : List α} : firstBy better l = none ↔ l = [] := by
  cases l with
  | nil => exact iff_of_true rfl rfl
  | cons => exact iff_of_false nofun nofun

end

/-! ### The choice (R48, R51, R53) -/

section
variable (s : State) (f : FeedId)

theorem State.dueWith_iff (test : Verdict → Bool) :
    s.dueWith f test = true ↔ (s.candidate f = true ∧ s.due f = true) ∧ test (s.verdict f) = true := by
  rw [State.dueWith, Bool.and_eq_true, Bool.and_eq_true, and_right_comm]

theorem State.ready_iff : s.feeds[f].state = .online ∧ s.feeds[f].shelf = .present ∧ s.arb.inFlight.length < 8
      ∧ (s.run.state = .bypass ∨ s.run.state = .run ∧ (s.feeds[f].queue ≠ [] ∨ s.feeds[f].discard = true))
      ∧ isBefore s.now (later s.arb.aLast s.tables.settings.pitch - BitVec.ofNat 32 s.tables.travel[f]) = false
    ↔ s.candidate f = true ∧ s.due f = true := by
  have hdue : s.due f = true
      ↔ isBefore s.now (later s.arb.aLast s.tables.settings.pitch - BitVec.ofNat 32 s.tables.travel[f]) = false := by
    rw [State.due, State.earliest, Bool.not_eq_true']
  have hcandidate : s.candidate f = true
      ↔ s.feeds[f].state = .online ∧ s.feeds[f].shelf = .present ∧ s.arb.inFlight.length < 8
        ∧ (s.run.state = .bypass ∨ s.run.state = .run ∧ (s.feeds[f].queue ≠ [] ∨ s.feeds[f].discard = true)) := by
    simp only [State.candidate, State.releasing, Bool.and_eq_true, Bool.or_eq_true, decide_eq_true_eq, Bool.not_eq_true',
      List.isEmpty_eq_false_iff]
    rw [show Config.inFlightSize = 8 from rfl]
    by_cases hb : s.run.state = .bypass
    · simp only [hb, true_or, or_true, and_true, true_and]
      tauto
    · simp only [hb, false_or, or_false]
      tauto
  rw [hdue, hcandidate]
  tauto

theorem State.isPlain_iff : (s.verdict f).isPlain = true ↔ s.run.state = .bypass ∨ s.feeds[f].discard = true
    ∨ ∃ e, s.feeds[f].queue.head? = some e ∧ s.judgeEntry e = .discard := by
  by_cases hb : s.run.state = .bypass
  · rw [State.verdict_of_bypass hb]
    exact iff_of_true rfl (.inl hb)
  by_cases hd : s.feeds[f].discard = true
  · rw [State.verdict_of_discard hb hd]
    exact iff_of_true rfl (.inr (.inl hd))
  cases hq : s.feeds[f].queue with
  | nil =>
    rw [State.verdict_empty hb (by simpa using hd) hq]
    exact iff_of_false nofun fun h => h.elim hb fun h => h.elim hd nofun
  | cons e q =>
    rw [State.verdict_of_head hb (by simpa using hd) (List.head?_eq_some_iff.2 ⟨q, hq⟩)]
    have hpass : s.judgeEntry e ≠ .pass := fun h => State.judgeEntry_ne_pass h
    simp only [hb, hd, false_or, List.head?_cons, Option.some.injEq, exists_eq_left', Bool.false_eq_true]
    cases hj : s.judgeEntry e with
    | pass => exact absurd hj hpass
    | discard => exact iff_of_true rfl rfl
    | collate => exact iff_of_false nofun nofun
    | waiting => exact iff_of_false nofun nofun

theorem State.isCollate_iff : (s.verdict f).isCollate = true ↔ s.run.state ≠ .bypass ∧ s.feeds[f].discard = false
    ∧ ∃ e p, s.feeds[f].queue.head? = some e ∧ s.judgeEntry e = .collate p := by
  by_cases hb : s.run.state = .bypass
  · rw [State.verdict_of_bypass hb]
    exact iff_of_false nofun fun h => h.1 hb
  cases hd : s.feeds[f].discard with
  | true =>
    rw [State.verdict_of_discard hb hd]
    exact iff_of_false nofun fun h => nomatch h.2.1
  | false =>
    cases hq : s.feeds[f].queue with
    | nil =>
      rw [State.verdict_empty hb hd hq]
      exact iff_of_false nofun fun ⟨_, _, _, _, h, _⟩ => nomatch h
    | cons e q =>
      rw [State.verdict_of_head hb hd (List.head?_eq_some_iff.2 ⟨q, hq⟩)]
      simp only [ne_eq, hb, not_false_eq_true, true_and, List.head?_cons, Option.some.injEq, exists_and_left, exists_eq_left']
      cases hj : s.judgeEntry e with
      | pass => exact iff_of_false nofun nofun
      | discard => exact iff_of_false nofun nofun
      | collate p => exact iff_of_true rfl ⟨p, rfl⟩
      | waiting => exact iff_of_false nofun nofun

/-- The pack of the head that a COLLATE takes. -/
theorem State.collates_iff (k : Handle) : (s.run.state ≠ .bypass ∧ s.feeds[f].discard = false
      ∧ ∃ e p, s.feeds[f].queue.head? = some e ∧ s.judgeEntry e = .collate p ∧ e.handle = k)
    ↔ (s.verdict f).isCollate = true ∧ s.headHandle f = some k := by
  rw [State.isCollate_iff, State.headHandle]
  constructor
  · rintro ⟨h1, h2, e, p, he, hj, rfl⟩
    exact ⟨⟨h1, h2, e, p, he, hj⟩, by rw [he]; rfl⟩
  · rintro ⟨⟨h1, h2, e, p, he, hj⟩, hk⟩
    rw [he] at hk
    exact ⟨h1, h2, e, p, he, hj, Option.some.inj hk⟩

end

section
variable {s : State} {f : FeedId}

theorem State.choose_of_pick {g : FeedId} {k : Handle} (h : s.arb.pick = some (g, k)) :
    s.choose = some f ↔ f = g ∧ s.dueWith f Verdict.isCollate = true := by
  rw [State.choose, h]
  dsimp only
  split
  next hd => exact ⟨fun e => Option.some.inj e ▸ ⟨rfl, hd⟩, fun e => e.1 ▸ rfl⟩
  next hd => exact iff_of_false nofun fun ⟨e, h⟩ => hd (e ▸ h)

theorem State.choose_of_plain (hp : s.arb.pick = none) (h : s.dueWith f Verdict.isPlain = true)
    (hlow : ∀ g, g < f → s.dueWith g Verdict.isPlain = false) : s.choose = some f := by
  have hfind : allFeeds.find? (fun g => s.dueWith g Verdict.isPlain) = some f := by
    rw [List.find?_eq_some_iff_append]
    refine ⟨h, ?_⟩
    have hsplit : ∃ as bs, allFeeds = as ++ f :: bs ∧ ∀ a ∈ as, a < f := by
      fin_cases f
      · exact ⟨[], [1, 2, 3], rfl, nofun⟩
      · exact ⟨[0], [2, 3], rfl, by decide⟩
      · exact ⟨[0, 1], [3], rfl, by decide⟩
      · exact ⟨[0, 1, 2], [], rfl, by decide⟩
    obtain ⟨as, bs, he, hlt⟩ := hsplit
    exact ⟨as, bs, he, fun a ha => by rw [hlow a (hlt a ha)]; rfl⟩
  rw [State.choose, hp]
  dsimp only
  rw [hfind]

theorem State.choose_of_collate (hp : s.arb.pick = none) (hplain : ∀ g, s.dueWith g Verdict.isPlain = false) :
    s.choose = firstBy s.olderHead (allFeeds.filter fun f => s.dueWith f Verdict.isCollate) := by
  have hfind : allFeeds.find? (fun g => s.dueWith g Verdict.isPlain) = none :=
    List.find?_eq_none.2 fun g _ => by rw [hplain g]; exact Bool.false_ne_true
  rw [State.choose, hp]
  dsimp only
  rw [hfind]

theorem State.choose_none_iff (hp : s.arb.pick = none) :
    s.choose = none ↔ ∀ f, s.dueWith f Verdict.isPlain = false ∧ s.dueWith f Verdict.isCollate = false := by
  constructor
  · intro hc f
    have hplain (g : FeedId) : s.dueWith g Verdict.isPlain = false := by
      rw [State.choose, hp] at hc
      dsimp only at hc
      split at hc
      · cases hc
      next hfind => simpa using List.find?_eq_none.1 hfind g (mem_allFeeds g)
    rw [State.choose_of_collate hp hplain, firstBy_eq_none, List.filter_eq_nil_iff] at hc
    exact ⟨hplain f, by simpa using hc f (mem_allFeeds f)⟩
  · intro h
    rw [State.choose_of_collate hp fun g => (h g).1, firstBy_eq_none, List.filter_eq_nil_iff]
    exact fun g _ => by rw [(h g).2]; exact Bool.false_ne_true

/-- The COLLATE that stands before every other one that is due: of an older pack, or of the same pack at a lower feed. -/
theorem State.choose_of_oldest (hp : s.arb.pick = none) (hplain : ∀ g, s.dueWith g Verdict.isPlain = false)
    (hf : s.dueWith f Verdict.isCollate = true)
    (hfirst : ∀ g, g ≠ f → s.dueWith g Verdict.isCollate = true → s.olderHead g f = false
      ∧ (g < f → s.olderHead f g = true)) : s.choose = some f := by
  rw [State.choose_of_collate hp hplain]
  have hsorted : (allFeeds.filter fun g => s.dueWith g Verdict.isCollate).Pairwise (· < ·) :=
    List.Pairwise.filter _ (by decide)
  obtain ⟨pre, post, he⟩ := List.append_of_mem
    ((List.mem_filter (p := fun g => s.dueWith g Verdict.isCollate)).2 ⟨mem_allFeeds f, hf⟩)
  have hdue (g : FeedId) (hg : g ∈ pre ++ f :: post) : s.dueWith g Verdict.isCollate = true := by
    rw [← he] at hg
    exact (List.mem_filter (p := fun g => s.dueWith g Verdict.isCollate)).1 hg |>.2
  rw [he] at hsorted ⊢
  obtain ⟨-, hpost, hpre⟩ := List.pairwise_append.1 hsorted
  refine firstBy_eq (fun g hg => ?_) fun g hg => ?_
  · have hlt := hpre g hg f List.mem_cons_self
    exact (hfirst g hlt.ne (hdue g (List.mem_append_left _ hg))).2 hlt
  · have hlt := (List.pairwise_cons.1 hpost).1 g hg
    exact (hfirst g hlt.ne' (hdue g (List.mem_append_right _ (List.mem_cons_of_mem _ hg)))).1

end

end Sys2Proof.Machine

namespace Sys2Proof.Proofs

open Sys2Proof.Machine

end Sys2Proof.Proofs
end

section
/-! SUPPORT. The release that a decision makes, its entry in the in-flight list, and the settling of
`Obligations.ReleasesAreMadeWhileOneIsDue`. -/

namespace Sys2Proof.Machine

/-! ### The break pick before a decision (R65) -/

/-- The break pick that may still be released. -/
def State.keptPick (s : State) : Option (FeedId × Handle) :=
  s.arb.pick.filter fun x => s.pickStands x.1 x.2

theorem Work.poised_eq (w : Work) :
    w.poised = { w with arb := { w.arb with aLast := boundedALast w.now w.arb.aLast, pick := w.keptPick } } := by
  have hstands (f : FeedId) (k : Handle) : w.boundALast.pickStands f k = w.pickStands f k := rfl
  have hpick : w.boundALast.arb.pick = w.arb.pick := rfl
  rw [Work.poised, Work.dropPick, State.keptPick, hpick]
  cases hp : w.arb.pick with
  | none =>
    dsimp only [Option.filter]
    rw [← hp]
    rfl
  | some x =>
    obtain ⟨f, k⟩ := x
    dsimp only [Option.filter]
    rw [hstands]
    split
    · rw [← hp]
      rfl
    · rfl

theorem State.pickStands_iff {s : State} {f : FeedId} {k : Handle} : s.pickStands f k = true
    ↔ s.releasing = true ∧ s.feeds[f].state = .online ∧ s.feeds[f].shelf = .present
      ∧ s.arb.inFlight.length < 8 ∧ (s.pack k).state = .announced ∧ s.emptyPockets ≠ []
      ∧ ∃ e, s.feeds[f].queue.head? = some e ∧ e.handle = k ∧ e.page = 1 ∧ e.gen = (s.pack k).gen := by
  simp only [State.pickStands, State.candidate, Bool.and_eq_true, decide_eq_true_eq, Bool.not_eq_true',
    List.isEmpty_eq_false_iff]
  rw [show Config.inFlightSize = 8 from rfl]
  cases hq : s.feeds[f].queue with
  | nil => simp
  | cons e q =>
    simp only [decide_eq_true_eq, List.head?_cons, Option.some.injEq, exists_eq_left', List.isEmpty_cons, Bool.not_false,
      Bool.or_true, Bool.true_or]
    tauto

theorem State.SameChoice.keptPick {s t : State} (h : s.SameChoice t) : t.keptPick = s.keptPick := by
  rw [State.keptPick, State.keptPick, h.pick]
  exact congrArg (fun p => s.arb.pick.filter p) (funext fun x => h.pickStands x.1 x.2)

theorem State.SameChoice.poised {w v : Work} (h : w.toState.SameChoice v.toState) :
    w.poised.toState.SameChoice v.poised.toState := by
  rw [w.poised_eq, v.poised_eq, h.keptPick]
  exact { h with aLast := by show boundedALast _ _ = boundedALast _ _; rw [h.now, h.aLast], pick := rfl }

theorem State.sameWork.pulses {s t : State} (h : s.sameWork t) : t.releasePulses = s.releasePulses := by
  rw [State.sameWork] at h; rw [h]

theorem Work.pulses_of_merge {w v : Work} (h : v.merge = w.merge) : v.releasePulses = w.releasePulses :=
  congrArg Merge.pulses h

/-! ### The entry of a release (R52) -/

section
variable {w v : Work} {f : FeedId}

/-- The entry that the release of feed `f` puts in the in-flight list (R44, R52, R69). -/
def State.Enters (s : State) (f : FeedId) (x : InFlight) : Prop :=
  x.feed = f ∧ (s.run.state = .bypass → x.disp = .pass ∧ x.tag = .untagged)
    ∧ (s.run.state ≠ .bypass → s.feeds[f].discard = true → x.disp = .discard ∧ x.tag = .any ∧ x.handle = none)
    ∧ ∀ e q, s.run.state ≠ .bypass → s.feeds[f].discard = false → s.feeds[f].queue = e :: q →
        x.handle = some e.handle ∧ x.page = e.page ∧ x.gen = e.gen ∧ x.tag = .num e.tag
        ∧ (x.disp = if s.judgeEntry e = .discard then .discard else .collate)

theorem Work.openPack_inFlight (w : Work) (k : Handle) (p : PocketId) : (w.openPack k p).arb.inFlight = w.arb.inFlight := by
  unfold Work.openPack Work.openPocket
  dsimp only
  split <;> simp

theorem Work.releaseBare_inFlight (w : Work) (f : FeedId) (t : EntryTag) (d : Disposition) :
    ∃ x : InFlight, (w.releaseBare f t d).arb.inFlight = w.arb.inFlight ++ [x] ∧ x.feed = f ∧ x.disp = d ∧ x.tag = t
      ∧ x.handle = none := by
  unfold Work.releaseBare Work.appendInFlight
  exact ⟨_, congrArg (fun l => l ++ [_]) (congrArg MergeArbiter.inFlight (w.setFeed_arb f _)), rfl, rfl, rfl, rfl⟩

theorem Work.releaseHead_inFlight (w : Work) (f : FeedId) (e : StagingEntry) (d : Disposition) :
    ∃ x : InFlight, (w.releaseHead f e d).arb.inFlight = w.arb.inFlight ++ [x] ∧ x.feed = f ∧ x.disp = d
      ∧ x.tag = .num e.tag ∧ x.handle = some e.handle ∧ x.page = e.page ∧ x.gen = e.gen := by
  unfold Work.releaseHead Work.appendInFlight
  exact ⟨_, congrArg (fun l => l ++ [_]) (congrArg MergeArbiter.inFlight (w.setFeed_arb f _)), rfl, rfl, rfl, rfl, rfl, rfl⟩

theorem Work.Release.inFlight (h : w.Release f v) :
    ∃ x, v.arb.inFlight = w.arb.inFlight ++ [x] ∧ w.toState.Enters f x := by
  have head {e : StagingEntry} {q : List StagingEntry} {d : Disposition} (hb : w.run.state ≠ .bypass)
      (hd : w.feeds[f].discard = false) (hq : w.feeds[f].queue = e :: q)
      (hj : d = if w.judgeEntry e = .discard then .discard else .collate) {u : Work}
      (hu : u.arb.inFlight = ((w.pulsed f).releaseHead f e d).arb.inFlight) :
      ∃ x, u.arb.inFlight = w.arb.inFlight ++ [x] ∧ w.toState.Enters f x := by
    obtain ⟨x, hx, hfeed, hdisp, htag, hk, hpage, hgen⟩ := (w.pulsed f).releaseHead_inFlight f e d
    refine ⟨x, hu.trans hx, hfeed, fun h => absurd h hb, fun _ h => ?_, fun e' q' _ _ hq' => ?_⟩
    · rw [hd] at h; cases h
    · rw [hq] at hq'
      cases hq'
      exact ⟨hk, hpage, hgen, htag, hdisp.trans hj⟩
  cases h with
  | pass hb =>
    obtain ⟨x, hx, hfeed, hdisp, htag, hk⟩ := (w.pulsed f).releaseBare_inFlight f .untagged .pass
    exact ⟨x, hx, hfeed, fun _ => ⟨hdisp, htag⟩, fun h => absurd hb h, fun _ _ h => absurd hb h⟩
  | unannounced hb hd =>
    obtain ⟨x, hx, hfeed, hdisp, htag, hk⟩ := (w.pulsed f).releaseBare_inFlight f .any .discard
    refine ⟨x, hx, hfeed, fun h => absurd h hb, fun _ _ => ⟨hdisp, htag, hk⟩, fun _ _ _ h => ?_⟩
    rw [hd] at h; cases h
  | unwanted e q hb hd hq hj => exact head hb hd hq (by rw [hj]; rfl) rfl
  | opens e q p hb hd hq hj => exact head hb hd hq (by rw [hj]; rfl) (Work.openPack_inFlight _ _ _)
  | nextPage e q hb hd hq hj => exact head hb hd hq (by rw [hj]; rfl) (congrArg MergeArbiter.inFlight (Work.setPack_arb _ _ _))

theorem Work.Decides.first (h : w.Decides v) (hc : w.poised.choose = some f) : (w.poised.release f).Decides v := by
  cases h with
  | done hn => rw [hn] at hc; cases hc
  | next hg hd =>
    rw [hg] at hc
    cases hc
    exact hd

/-- Feed `f` is released as the first of the decisions that lead from `s` to `t` (R47, R52). -/
structure State.FirstReleased (s t : State) (f : FeedId) : Prop where
  pulses : t.releasePulses[f] = s.releasePulses[f] + 1
  shelf : t.feeds[f].shelf = .clearing
  queue : t.feeds[f].queue = (s.releasedFeed f).queue
  inFlight : ∃ x rest, t.arb.inFlight = s.arb.inFlight ++ x :: rest ∧ s.Enters f x
  latched : s.run.state ≠ .bypass → s.feeds[f].discard = true → t.latched .unannounced = true

theorem Work.Decides.firstReleased (h : w.Decides v) (hc : w.poised.choose = some f) :
    w.toState.FirstReleased v.toState f := by
  have hfirst := h.first hc
  have hrelease := Work.release_is hc
  obtain ⟨y, hy⟩ : ∃ y, y = w.poised.release f := ⟨_, rfl⟩
  rw [← hy] at hfirst hrelease
  have hpoised : w.poised.feeds = w.feeds ∧ w.poised.run = w.run ∧ w.poised.releasePulses = w.releasePulses
      ∧ w.poised.arb.inFlight = w.arb.inFlight ∧ ∀ e, (w.poised.judgeEntry e = .discard) = (w.judgeEntry e = .discard) := by
    rw [w.poised_eq]
    exact ⟨rfl, rfl, rfl, rfl, fun e => propext (by rw [State.judgeEntry_discard_iff, State.judgeEntry_discard_iff]; rfl)⟩
  obtain ⟨hfeeds, hrun, hpulses, hlist, hjudge⟩ := hpoised
  have hfeed : y.feeds[f] = w.releasedFeed f := by
    rw [hrelease.feeds, State.releasedFeed, State.releasedFeed, hfeeds, hrun]
    exact Vector.getElem_set_self f.isLt
  have hpulse : y.releasePulses[f] = w.releasePulses[f] + 1 := by
    rw [hrelease.pulses, hpulses]
    exact Vector.getElem_set_self f.isLt
  have hstays : v.feeds[f] = y.feeds[f] ∧ v.releasePulses[f] = y.releasePulses[f] := by
    rcases hfirst.feed f with hsame | ⟨hp, -⟩
    · exact hsame
    · rw [hfeed] at hp; cases hp
  obtain ⟨x, hx, hfrom, hpass, hdiscard, hhead⟩ := hrelease.inFlight
  obtain ⟨rest, hrest⟩ := hfirst.released.inFlight
  refine ⟨hstays.2.trans hpulse, ?_, ?_, ⟨x, rest, ?_, hfrom, ?_, ?_, ?_⟩, ?_⟩
  · rw [hstays.1, hfeed, State.releasedFeed]
  · rw [hstays.1, hfeed]
  · rw [← hrest, hx, hlist, List.append_assoc]
    rfl
  · rwa [hrun] at hpass
  · rwa [hrun, hfeeds] at hdiscard
  · intro e q
    have h := hhead e q
    rw [hrun, hfeeds] at h
    intro hb hd hq
    obtain ⟨h1, h2, h3, h4, h5⟩ := h hb hd hq
    refine ⟨h1, h2, h3, h4, h5.trans ?_⟩
    simp only [hjudge]
  · intro hb hd
    exact hfirst.evolves.latched _ (hrelease.unannounced_latched (by rwa [hrun]) (by rwa [hfeeds]))

/-- What stands alike to release decisions has the same release made first. -/
theorem State.FirstReleased.of {s s' : Work} {t : State} (h : s'.toState.FirstReleased t f)
    (hc : s.toState.SameChoice s'.toState) (hm : s'.merge = s.merge) : s.toState.FirstReleased t f := by
  obtain ⟨hpulses, hshelf, hqueue, ⟨x, rest, hx, hfeed, hpass, hdiscard, hhead⟩, hlatched⟩ := h
  have hfeeds := Work.feeds_of_merge hm
  have hreleased : s'.releasedFeed f = s.releasedFeed f := by
    rw [State.releasedFeed, State.releasedFeed, hfeeds, hc.run]
  rw [hc.run, hfeeds] at hdiscard hlatched
  rw [hc.run] at hpass
  refine ⟨hpulses.trans (by rw [Work.pulses_of_merge hm]), hshelf, hreleased ▸ hqueue,
    ⟨x, rest, by rw [hx, Work.arb_of_merge hm], hfeed, hpass, hdiscard, fun e q => ?_⟩, hlatched⟩
  have h := hhead e q
  rwa [hc.run, hfeeds, hc.judgeEntry] at h

theorem State.FirstReleased.closed {s : State} (h : s.FirstReleased w.toState f) (b : State) :
    s.FirstReleased (w.closed b).toState f := by
  have hfeed : (w.closed b).feeds[f] = w.timedFeed f := w.closed_feed b f
  have hinFlight := w.closed_sameChoice b |>.inFlight
  have hlatched := fun c => w.closed_latched b c
  have hpulses : (w.closed b).releasePulses = w.releasePulses := by
    obtain ⟨bs, a, m, o, hc⟩ := w.closed_shape b
    rw [hc]
  obtain ⟨h1, h2, h3, ⟨x, rest, hx, he⟩, h5⟩ := h
  refine ⟨by rw [hpulses, h1], by rw [hfeed]; exact h2, by rw [hfeed]; exact h3,
    ⟨x, rest, hinFlight.trans hx, he⟩, fun hb hd => hlatched _ (h5 hb hd)⟩

/-- A release that is due as a step settles is made first. -/
theorem Work.settle_firstReleased (hp : w.plant.Steady) (ho : w.occasion = true) (hc : w.poised.choose = some f) (b : State) :
    w.toState.FirstReleased (w.settle b).toState f := by
  have hstate : w.run.state = .run ∨ w.run.state = .bypass := by
    have hr := (State.candidate_present (State.choose_candidate hc)).2
    rw [State.releasing, w.poised_same.1] at hr
    simpa using hr
  have hs : w.starting = false := by rw [State.starting_eq]; rcases hstate with h | h <;> rw [h] <;> rfl
  have hrun : w.goOn.run.state = w.run.state := by
    rcases w.goOn_run hs with h | ⟨⟨o, h⟩, -⟩
    · exact h
    · rcases hstate with h' | h' <;> rw [h'] at h <;> cases h
  have hchoice := Work.goOn_sameChoice hs hp hrun
  have hmerge := w.goOn_merge_of_running hs
  have hoccasion := (Work.Onward.refl w).goOn.occasion ho
  obtain ⟨x, hx⟩ : ∃ x, x = w.goOn := ⟨_, rfl⟩
  rw [← hx] at hrun hchoice hmerge hoccasion
  have hfirst : x.toState.FirstReleased x.decideReleases.toState f := by
    rcases x.decideReleases_is with ⟨-, hd⟩ | ⟨hn, -⟩
    · exact hd.firstReleased (hchoice.poised.choose.trans hc)
    · rw [hoccasion] at hn; cases hn
  rw [Work.settle_closed, ← hx]
  exact (hfirst.of hchoice hmerge).closed b

end

end Sys2Proof.Machine

namespace Sys2Proof.Proofs

open Sys2Proof.Machine

/-- Settles O47: the choice is what `State.choose` makes of the verdicts that are due, and a settling with an occasion
makes it until none is due. -/
theorem releasesAreMadeWhileOneIsDue : Obligations.ReleasesAreMadeWhileOneIsDue := by
  unfold Obligations.ReleasesAreMadeWhileOneIsDue
  refine ⟨fun s => ?_, fun s => ?_, fun s hq hp => ?_⟩
  · intro ready plain collates ahead
    have hplain (f : FeedId) : plain f ↔ s.dueWith f Verdict.isPlain = true := by
      rw [State.dueWith_iff, ← State.ready_iff, State.isPlain_iff]
    have hcollates (f : FeedId) (k : Handle) :
        collates f k ↔ s.dueWith f Verdict.isCollate = true ∧ s.headHandle f = some k := by
      rw [State.dueWith_iff, ← State.ready_iff, and_assoc, ← State.collates_iff]
    have hhead (f : FeedId) : s.dueWith f Verdict.isCollate = true ↔ ∃ k, collates f k := by
      refine ⟨fun h => ?_, fun ⟨k, h⟩ => ((hcollates f k).1 h).1⟩
      obtain ⟨-, -, e, p, he, -⟩ := (State.isCollate_iff s f).1 ((State.dueWith_iff s f _).1 h).2
      exact ⟨e.handle, (hcollates f _).2 ⟨h, by rw [State.headHandle, he]; rfl⟩⟩
    have hnone (f : FeedId) : s.dueWith f Verdict.isCollate = false ↔ ∀ k, ¬collates f k := by
      rw [← not_exists, ← hhead, Bool.not_eq_true]
    simp only [hplain, Bool.not_eq_true]
    refine ⟨fun g k hpick f => ?_, fun hpick => ⟨?_, fun f hf hlow => State.choose_of_plain hpick hf hlow,
      fun f k hno hf hfirst => ?_, fun f hc => ?_⟩⟩
    · rw [State.choose_of_pick hpick]
      exact and_congr_right fun _ => hhead f
    · rw [State.choose_none_iff hpick]
      exact forall_congr' fun f => and_congr_right fun _ => hnone f
    · obtain ⟨hdue, hk⟩ := (hcollates f k).1 hf
      refine State.choose_of_oldest hpick hno hdue fun g hne hg => ?_
      obtain ⟨j, hj⟩ := (hhead g).1 hg
      have hjhead := ((hcollates g j).1 hj).2
      rw [State.olderHead, State.olderHead, hk, hjhead]
      dsimp only
      rcases hfirst g j hne hj with ⟨rfl, hlt⟩ | ⟨hkj, hahead⟩
      · simp [hlt.not_gt]
      · obtain ⟨h1, h2⟩ := olderSerial_of_ahead hahead
        rw [State.older, State.older, h1, h2]
        simp [hkj]
    · rcases State.choose_verdict hc with h | h
      · exact .inl ((State.dueWith_iff s f _).2 ⟨⟨State.choose_candidate hc, State.choose_due hc⟩, h⟩)
      · exact .inr ((hhead f).1 ((State.dueWith_iff s f _).2 ⟨⟨State.choose_candidate hc, State.choose_due hc⟩, h⟩))
  · intro u a
    have hu : u = { s with arb := { s.arb with aLast := boundedALast s.now s.arb.aLast, pick := s.keptPick } } :=
      congrArg Work.toState (Work.of s).poised_eq
    refine ⟨by rw [hu]; rfl, fun hpick => ?_, fun f k hpick => ?_⟩
    · rw [hu]
      exact (congrArg (Option.filter _) hpick).trans rfl
    intro stands
    refine ⟨fun h => ?_, fun h => ?_⟩
    · rw [hu]
      refine (congrArg (Option.filter _) hpick).trans ?_
      rw [Option.filter_some, if_pos (State.pickStands_iff.2 h)]
    · rw [hu]
      refine (congrArg (Option.filter _) hpick).trans ?_
      rw [Option.filter_some, if_neg fun hs => h (State.pickStands_iff.1 hs)]
  · obtain ⟨u, hu⟩ : ∃ u, u = (Work.of s).occasionIf true := ⟨_, rfl⟩
    have hfrom : Work.From s u := hu ▸ (Work.From.of s).evolves ((Evolves.refl _).occasionIf true) (Work.frame_occasionIf _ _)
    have hstate : u.toState = s := by rw [hu]; rfl
    have hoccasion : u.occasion = true := by rw [hu]; rfl
    have heff : Instr.releaseComesDue.effect (Work.of s) = u.settle s := by rw [hu, Instr.effect]; rfl
    have hpoised : u.poised.choose = ((Work.of s).boundALast.dropPick).choose := by
      have hsame : u.poised.toState = (Work.of s).poised.toState := by
        rw [u.poised_eq, (Work.of s).poised_eq, hu]
        rfl
      rw [hsame]
      rfl
    refine ⟨_, exec_comes (c := .releaseComesDue) rfl rfl, ?_⟩
    rw [heff]
    refine ⟨(hfrom.settle s).surrounds, ((State.keepsPacks_of_reg (by rw [hstate])).settle s).finish,
      ((State.keepsBins_of_bins (by rw [hstate]) []).settle s).finish, ?_, fun f hc => ?_⟩
    · rw [(Work.finish_sameWork _).choose]
      exact Work.settle_choose_of_occasion hoccasion s
    · have hsteady : u.plant.Steady := by rw [hstate]; exact State.steady hq hp
      have h := Work.settle_firstReleased hsteady hoccasion (hpoised.trans hc) s
      rw [hstate] at h
      obtain ⟨hpulses, hshelf, hqueue, ⟨x, rest, hx, hfeed, hpass, hdiscard, hhead⟩, hlatched⟩ := h
      have hsame := Work.finish_sameWork (u.settle s)
      rw [hsame.pulses, hsame.feeds, hsame.arb]
      refine ⟨hpulses, hshelf, x, rest, hx, hfeed, hpass, fun hb hd => ?_, fun e q hb hd hq => ?_⟩
      · obtain ⟨h1, h2, h3⟩ := hdiscard hb hd
        exact ⟨h1, h2, h3, Work.finish_latched _ _ (hlatched hb hd)⟩
      · obtain ⟨h1, h2, h3, h4, h5⟩ := hhead e q hb hd hq
        refine ⟨h1, h2, h3, h4, h5, ?_⟩
        rw [hqueue, State.releasedFeed, hd, hq]
        simp [hb]

end Sys2Proof.Proofs
end

section
/-! SUPPORT. The event notices that a step formed, as its end queues them (R173), and a pack remade by a restart request
(`State.Remade`, R130 to R136). -/

namespace Sys2Proof.Machine

/-! ### The notices a step queues -/

section
variable {w : Work} {out : OutRecord} {pre post : List OutRecord}

theorem Work.sendNotice_joins (h : w.link.hasNoticeRoom = true) (r : OutRecord) :
    w.sendNotice r = { w with link := { w.link with outbound := w.link.outbound ++ [r] } } := if_pos h

theorem Work.sendNotice_overflows (h : w.link.hasNoticeRoom = false) (r : OutRecord) :
    w.sendNotice r = w.latch .noticeOverflow := if_neg (by rw [h]; exact Bool.false_ne_true)

theorem LinkPort.hasNoticeRoom_iff {l : LinkPort} : l.hasNoticeRoom = true
    ↔ l.held = [] ∧ l.outbound.length < 24 ∧ (l.outbound.filter OutRecord.isNotice).length < 20 := by
  simp only [LinkPort.hasNoticeRoom, LinkPort.hasRoom, Bool.and_eq_true, decide_eq_true_eq, List.isEmpty_iff]
  rw [show Config.outboundSize = 24 from rfl, show Config.noticeLimit = 20 from rfl]
  tauto

/-- A notice with room for it and for those before it joins the outbound queue. -/
theorem Work.foldNotices_tells (hh : w.link.held = []) (ho : w.link.outbound.length + pre.length < 24)
    (hc : (w.link.outbound.filter OutRecord.isNotice).length + pre.length < 20) :
    ∃ x y, ((pre ++ out :: post).foldl Work.sendNotice w).told = w.told ++ x ++ out :: y := by
  induction pre generalizing w with
  | nil =>
    have hroom : w.link.hasNoticeRoom = true := LinkPort.hasNoticeRoom_iff.2 ⟨hh, ho, hc⟩
    obtain ⟨y, hy⟩ := (Work.foldNotices_ends post (w.sendNotice out)).queues.order
    refine ⟨[], y, ?_⟩
    rw [List.nil_append, List.foldl_cons]
    refine hy.trans ?_
    rw [Work.sendNotice_joins hroom, State.told, hh]
    simp
  | cons r pre ih =>
    rw [List.cons_append, List.foldl_cons]
    rw [List.length_cons] at ho hc
    have hroom : w.link.hasNoticeRoom = true := LinkPort.hasNoticeRoom_iff.2 ⟨hh, by omega, by omega⟩
    have hjoin := Work.sendNotice_joins hroom r
    obtain ⟨x, y, h⟩ := ih (w := w.sendNotice r) (by rw [hjoin]; exact hh)
      (by rw [hjoin]; simp only [List.length_append, List.length_singleton]; omega)
      (by
        rw [hjoin]
        have := List.length_filter_le OutRecord.isNotice [r]
        simp only [List.filter_append, List.length_append, List.length_singleton] at this ⊢
        omega)
    refine ⟨[r] ++ x, y, h.trans ?_⟩
    rw [hjoin, State.told, State.told, hh]
    simp

theorem Work.finish_after (w : Work) : ∃ new, w.finish.told = w.sendNotices.told ++ new := by
  have h := (((Work.judgeAttention_ends w.sendNotices).trans (Work.keepOpt_ends _ (w.reply.map Reply.record))).trans
    (Work.keepDrains_ends _)).trans (Work.keepOpt_ends _ (w.report.map Report.record))
  exact (h.queues.trans (LinkPort.boundary_queues _)).order

/-- The notice at its place among those formed is told where there is room for it and for those before it. -/
theorem Work.From.tells_notice {s : State} (h : Work.From s w) (hn : w.notices = pre ++ out :: post) (hh : s.link.held = [])
    (ho : s.link.outbound.length + pre.length < 24)
    (hc : (s.link.outbound.filter OutRecord.isNotice).length + pre.length < 20) : s.tells w.finish out := by
  rw [← h.link_eq] at hh ho hc
  obtain ⟨x, y, hx⟩ := Work.foldNotices_tells (out := out) (post := post) hh ho hc
  obtain ⟨new, hnew⟩ := w.finish_after
  rw [Work.sendNotices, hn, hx, h.told_eq] at hnew
  exact ⟨x, y ++ new, by rw [hnew, List.append_assoc (s.told ++ x), List.cons_append]⟩

/-- The first notice formed is told, or NOTICE_OVERFLOW is latched (R173). -/
theorem Work.From.notifies {s : State} (h : Work.From s w) (hn : w.notices = out :: post) : s.notifies w.finish out := by
  refine ⟨fun hroom => ?_, fun hroom => ?_⟩
  · obtain ⟨hh, ho, hc⟩ := LinkPort.hasNoticeRoom_iff.1 hroom
    exact h.tells_notice (pre := []) hn hh ho hc
  · have hoverflow : w.sendNotices.latched .noticeOverflow = true := by
      rw [Work.sendNotices, hn, List.foldl_cons, Work.sendNotice_overflows (by rw [h.link_eq]; exact hroom)]
      refine (Work.foldNotices_ends post _).latched _ ?_
      rw [Work.latched_latch]
      simp
    have hends := (((Work.judgeAttention_ends w.sendNotices).trans (Work.keepOpt_ends _ (w.reply.map Reply.record))).trans
      (Work.keepDrains_ends _)).trans (Work.keepOpt_ends _ (w.report.map Report.record))
    exact hends.latched _ hoverflow

end

/-! ### A restart request taken (R128 to R136) -/

/-- Pack `k` has been restarted or abandoned as it stood in `s`, RESTART_LIMIT deciding (R129, R130, R135). -/
def State.Remade (s : State) (k : Handle) (u : Work) : Prop :=
  k ∉ u.stapler.queue
    ∧ if (s.pack k).gen < s.tables.settings.restartLimit then
        u.pack k = (s.pack k).restarted ∧ u.latched .restart = true
      else ((s.pack k).pocket.isSome = true → u.pack k = { s.pack k with state := .disposing })
        ∧ ((s.pack k).pocket = none → u.pack k = PackRec.cleared)
        ∧ k ∉ u.classQueue (s.pack k).cls ∧ u.latched .abandon = true

section
variable {w : Work} {k : Handle} {c : RestartCause}

theorem State.latched_latch_self (w : Work) (c : Cause) : (w.latch c).latched c = true := by
  rw [Work.latched_latch]
  simp

theorem Work.restartPack_latched : (w.restartPack k c).latched .restart = true := State.latched_latch_self _ _

theorem Work.abandonPack_latched : (w.abandonPack k c).latched .abandon = true := by
  have hlatch (x : Work) : (x.latch .abandon).latched .abandon = true := State.latched_latch_self x _
  unfold Work.abandonPack
  dsimp only
  split
  · exact ((Evolves.refl _).freePack k).latched _ (hlatch _)
  next p hp =>
    obtain ⟨ps, m, o, e⟩ := ((((((w.leaveClassQueue k).leaveStapleQueue k).leaveDeliveryQueue k).notify
      (.packAbandoned k c)).latch .abandon).setPack k { w.pack k with state := .disposing }).requestPurge_shape p
    rw [e, State.latched, Work.setPack_attn, ← State.latched]
    exact hlatch _

theorem Work.restartPack_notices : (w.restartPack k c).notices = w.notices ++ [.reprintRequest k ((w.pack k).gen + 1) c] := by
  unfold Work.restartPack
  dsimp only
  obtain ⟨ps, m, o, e⟩ := (((w.setPack k (w.pack k).restarted).leaveStapleQueue k).leaveDeliveryQueue k).purgeHeld_shape
    (w.pack k).pocket
  rw [Work.latch_notices, Work.notify_notices, e]
  simp [Work.leaveDeliveryQueue, Work.leaveStapleQueue]

theorem Work.abandonPack_notices : (w.abandonPack k c).notices = w.notices ++ [.packAbandoned k c] := by
  have hleave : (w.leaveQueues k).notices = w.notices := (w.leaveQueues_keeps k).2.2.2.1
  have hnotified : (((w.leaveQueues k).notify (.packAbandoned k c)).latch .abandon).notices
      = w.notices ++ [.packAbandoned k c] := by rw [Work.latch_notices, Work.notify_notices, hleave]
  unfold Work.abandonPack
  dsimp only
  split
  · rw [((_ : Work).freePack_keeps k).2.2.1]
    exact hnotified
  next p hp =>
    obtain ⟨ps, m, o, e⟩ := ((((((w.leaveClassQueue k).leaveStapleQueue k).leaveDeliveryQueue k).notify
      (.packAbandoned k c)).latch .abandon).setPack k { w.pack k with state := .disposing }).requestPurge_shape p
    rw [e, Work.setPack_notices]
    exact hnotified

theorem Work.restartPack_pack : (w.restartPack k c).pack k = (w.pack k).restarted
    ∧ (w.restartPack k c).stapler = w.stapler.without k := by
  have h := w.restartPack_plant k c
  constructor
  · refine (congrArg (fun P : Plant => P.pack k) h).trans ?_
    rw [Plant.onPocket_pack]
    exact Plant.setPack_pack_self _ _
  · refine (congrArg Plant.stapler h).trans ?_
    rw [Plant.onPocket_stapler]
    rfl

theorem Plant.not_mem_leaveQueue (P : Plant) (k : Handle) : k ∉ (P.leaveQueue k).queue (P.pack k).cls := by
  rw [Plant.leaveQueue, Plant.setQueue]
  simp

theorem Work.abandonPack_pack : (w.abandonPack k c).stapler = w.stapler.without k
    ∧ k ∉ (w.abandonPack k c).classQueue (w.pack k).cls
    ∧ ((w.pack k).pocket.isSome = true → (w.abandonPack k c).pack k = { w.pack k with state := .disposing })
    ∧ ((w.pack k).pocket = none → (w.abandonPack k c).pack k = PackRec.cleared) := by
  cases hp : (w.pack k).pocket with
  | none =>
    have h := w.abandonPack_plant_free c hp
    refine ⟨congrArg Plant.stapler h, ?_, nofun, fun _ => ?_⟩
    · rw [show (w.abandonPack k c).classQueue = _ from congrArg Plant.queue h]
      exact w.plant.not_mem_leaveQueue k
    · exact (congrArg (fun P : Plant => P.pack k) h).trans (Plant.setPack_pack_self _ _)
  | some p =>
    have h := w.abandonPack_plant_held c (k := k) (by rw [hp]; exact nofun)
    refine ⟨(congrArg Plant.stapler h).trans ?_, ?_, fun _ => ?_, nofun⟩
    · rw [Plant.onPocket_stapler]
      rfl
    · rw [show (w.abandonPack k c).classQueue = _ from congrArg Plant.queue h, Plant.onPocket_queue]
      exact w.plant.not_mem_leaveQueue k
    · refine (congrArg (fun P : Plant => P.pack k) h).trans ?_
      rw [Plant.onPocket_pack]
      exact Plant.setPack_pack_self _ _

theorem Stapler.not_mem_without (r : Stapler) (k : Handle) : k ∉ (r.without k).queue := by
  simp [Stapler.without]

/-- A restart request that is taken remakes the pack and forms its notice last. -/
theorem Work.requestRestart_remade {s : State} {g : Nat} (ht : w.takesRestart k g = true) (hp : w.pack k = s.pack k)
    (hset : w.tables.settings = s.tables.settings) (c : RestartCause) :
    s.Remade k (w.requestRestart k g c) ∧ (w.requestRestart k g c).notices = w.notices ++ [s.restartNotice k c] := by
  unfold Work.requestRestart State.Remade State.restartNotice
  rw [if_pos ht, ← hp, ← hset]
  split
  · obtain ⟨h1, h2⟩ := Work.restartPack_pack (w := w) (k := k) (c := c)
    refine ⟨⟨?_, h1, Work.restartPack_latched⟩, Work.restartPack_notices⟩
    show k ∉ (w.restartPack k c).stapler.queue
    rw [h2]
    exact w.stapler.not_mem_without k
  · obtain ⟨h1, h2, h3, h4⟩ := Work.abandonPack_pack (w := w) (k := k) (c := c)
    refine ⟨⟨?_, h3, h4, h2, Work.abandonPack_latched⟩, Work.abandonPack_notices⟩
    show k ∉ (w.abandonPack k c).stapler.queue
    rw [h1]
    exact w.stapler.not_mem_without k

/-- A pack remade stands remade once the step has settled, but that it may be opened again. -/
theorem State.Remade.settles {s : State} {u v : Work} (h : s.Remade k u) (hs : Settles u v) (he : Evolves u v) :
    s.remakes v.finish k := by
  obtain ⟨hqueue, h⟩ := h
  unfold State.remakes
  dsimp only
  rw [Work.finish_pack, Work.finish_classQueue, Work.finish_run]
  have hv : v.classQueue (s.pack k).cls = u.classQueue (s.pack k).cls := by rw [State.classQueue, hs.queues]; rfl
  have hlatched (c : Cause) (hc : u.latched c = true) : v.finish.latched c = true := v.finish_latched c (he.latched c hc)
  split at h
  next hlt =>
    obtain ⟨hpack, hl⟩ := h
    obtain ⟨h1, h2, h3⟩ := hs.fixed k
    rw [hpack] at h1 h2 h3
    rw [if_pos hlt]
    refine ⟨h1, h2, h3, fun hp => ?_, fun hp => ?_, hlatched _ hl⟩
    · have hstate : (u.pack k).state = .restarting := by rw [hpack, PackRec.restarted, if_pos hp]
      rw [hs.stands k hqueue (by rw [hstate]; rfl)]
      exact ⟨hstate, by rw [hpack]; rfl, by rw [hpack]; rfl, by rw [hpack]; rfl⟩
    · have hstate : (u.pack k).state = .announced := by rw [hpack, PackRec.restarted, hp]; rfl
      rcases hs.waits k hqueue hstate with hw | ⟨ho, hr⟩
      · exact .inl (by rw [hw, hstate])
      · refine .inr ⟨?_, ho⟩
        rcases hs.run with hr' | ⟨⟨o, hr'⟩, -⟩
        · rw [hr', hr]
        · rw [hr] at hr'; cases hr'
  next hlt =>
    obtain ⟨h1, h2, h3, hl⟩ := h
    rw [if_neg hlt]
    refine ⟨fun hp => ?_, fun hp => ?_, by rwa [hv], hlatched _ hl⟩
    · rw [hs.stands k hqueue (by rw [h1 hp]; rfl), h1 hp]
    · rw [hs.stands k hqueue (by rw [h2 hp]; rfl), h2 hp]

end

end Sys2Proof.Machine
end

section
/-! SUPPORT. The block timer as a step settles, and the break pick opened out of turn: the settling of
`Obligations.BlockTimerBreaksTheBlock`. -/

namespace Sys2Proof.Machine

/-! ### The block timer as a step settles (R63) -/

section
variable (w : Work) (b : State)

theorem Work.timeWaits_sameChoice : w.toState.SameChoice w.timeWaits.toState := by
  have hfeed (f : FeedId) : { w.timeWaits.feeds[f] with wait := none } = { w.feeds[f] with wait := none } := by
    rw [w.timeWaits_feed f]
    rfl
  obtain ⟨fs, m, o, h⟩ := w.timeWaits_shape
  obtain ⟨x, hx⟩ : ∃ x, x = w.timeWaits := ⟨_, rfl⟩
  rw [← hx] at h hfeed ⊢
  refine ⟨hfeed, ?_, ?_, ?_, ?_, ?_, ?_, fun c => ?_, fun k => ?_, fun p => ?_⟩ <;> rw [h]
  · rfl
  · rfl
  · exact ⟨Iff.rfl, Iff.rfl⟩

theorem State.Reads.waitingPacks {s t : State} (h : s.Reads t) : t.waitingPacks = s.waitingPacks := by
  rw [State.waitingPacks, State.waitingPacks, h.live]
  exact List.filter_congr fun k _ => h.waitingForRoom k

theorem Work.closed_reads : w.timeWaits.toState.Reads (w.closed b).toState := by
  obtain ⟨x, hx⟩ : ∃ x, x = w.timeWaits := ⟨_, rfl⟩
  have hlamps : (x.timeBlock.judgeBinFull b).toState.Reads (w.closed b).toState := by
    rw [Work.closed, ← hx]
    exact (Work.foldLamps_follow allBins _).1
  obtain ⟨a, ha⟩ := x.timeBlock.judgeBinFull_shape b
  rw [ha] at hlamps
  rw [← hx]
  exact ⟨hlamps.packs, hlamps.queues, hlamps.classes, hlamps.bins⟩

theorem Work.closed_blockTimer : (w.closed b).arb.blockTimer = w.timeWaits.timedBlock
    ∧ (w.closed b).blockHolds = w.timeWaits.blockHolds := by
  have hreads := w.closed_reads b
  have hwaits : (w.closed b).mergeWaits = w.timeWaits.mergeWaits :=
    (w.closed_sameChoice b).mergeWaits.trans w.timeWaits_sameChoice.mergeWaits.symm
  have hpick : (w.closed b).arb.pick = w.timeWaits.arb.pick :=
    (w.closed_sameChoice b).pick.trans w.timeWaits_sameChoice.pick.symm
  refine ⟨?_, by rw [State.blockHolds, State.blockHolds, hwaits, hpick, hreads.waitingPacks]⟩
  obtain ⟨bs, a, m, o, h⟩ := w.closed_shape b
  rw [h]

/-- A block timer that is to start again runs from the present time where its conditions hold (R63). -/
theorem Work.settle_blockTimer (hp : w.progress = true) :
    (w.settle b).arb.blockTimer = if (w.settle b).blockHolds then some w.now else none := by
  have hon := (Work.Onward.refl w).goOn.decideReleases
  have hnow : w.goOn.decideReleases.now = w.now := ((Work.Released.refl w.goOn).decideReleases.now).trans w.goOn_now
  rw [Work.settle_closed]
  obtain ⟨d, hd⟩ : ∃ d, d = w.goOn.decideReleases := ⟨_, rfl⟩
  rw [← hd] at hon hnow ⊢
  obtain ⟨fs, m, o, hw⟩ := d.timeWaits_shape
  have hprogress : d.timeWaits.progress = true := by
    rw [hw]
    exact hon.progress hp
  have hnow' : d.timeWaits.now = w.now := by
    rw [hw]
    exact hnow
  rw [(d.closed_blockTimer b).1, (d.closed_blockTimer b).2, Work.timedBlock, hprogress, hnow']
  rfl

end

theorem State.sameWork.blockHolds {s t : State} (h : s.sameWork t) : t.blockHolds = s.blockHolds := by
  rw [State.sameWork] at h; rw [h]; rfl

/-! ### The break pick opened (R65, R74) -/

section
variable {w v : Work} {f : FeedId} {k : Handle}

theorem Work.openPack_of_pick (h : w.arb.pick = some (f, k)) (p : PocketId) :
    ((w.openPack k p).pack k).state = .opened ∧ ((w.openPack k p).pack k).flags.outOfTurn = true
      ∧ (w.openPack k p).arb.pick = none ∧ (w.openPack k p).latched .orderBreak = true
      ∧ (w.openPack k p).notices = w.notices ++ [.orderBreak k (w.pack k).cls .pocket]
      ∧ (w.openPack k p).stapler = w.stapler := by
  unfold Work.openPack
  dsimp only
  rw [h]
  simp only [Option.map_some, decide_true, if_true, Bool.or_true]
  refine ⟨?_, ?_, rfl, State.latched_latch_self _ _, ?_, ?_⟩
  · rw [Work.pack_latch, Work.pack_notify, Work.pack_setArb, Work.pack_setPack, if_pos rfl]
  · rw [Work.pack_latch, Work.pack_notify, Work.pack_setArb, Work.pack_setPack, if_pos rfl]
  · simp [Work.openPocket]
  · simp [Work.openPocket]

theorem Work.openPack_noPick (h : w.arb.pick = none) (k : Handle) (p : PocketId) : (w.openPack k p).arb.pick = none := by
  unfold Work.openPack Work.openPocket
  dsimp only
  split
  · rfl
  · rw [Work.setPack_arb, Work.setPocket_arb, h]

theorem Work.releaseBare_pick (w : Work) (f : FeedId) (t : EntryTag) (d : Disposition) :
    (w.releaseBare f t d).arb.pick = w.arb.pick := by
  simp [Work.releaseBare, Work.appendInFlight]

theorem Work.releaseHead_pick (w : Work) (f : FeedId) (e : StagingEntry) (d : Disposition) :
    (w.releaseHead f e d).arb.pick = w.arb.pick := by
  simp [Work.releaseHead, Work.appendInFlight]

theorem Work.releaseHead_keeps (w : Work) (f : FeedId) (e : StagingEntry) (d : Disposition) :
    (w.releaseHead f e d).reg = w.reg ∧ (w.releaseHead f e d).stapler = w.stapler
      ∧ (w.releaseHead f e d).notices = w.notices := by
  unfold Work.releaseHead Work.appendInFlight
  exact ⟨w.setFeed_reg f _, w.setFeed_stapler f _, w.setFeed_notices f _⟩

theorem Work.pageReleased_pick (w : Work) (k : Handle) : (w.pageReleased k).arb.pick = w.arb.pick := by
  rw [Work.pageReleased, Work.setPack_arb]

theorem Work.Release.noPick (h : w.Release f v) (hp : w.arb.pick = none) : v.arb.pick = none := by
  have hpulsed : (w.pulsed f).arb.pick = none := hp
  cases h with
  | pass => rw [Work.releaseBare_pick, hpulsed]
  | unannounced =>
    have hlatch (x : Work) : (x.latch .unannounced).arb = x.arb := rfl
    rw [hlatch, Work.releaseBare_pick, hpulsed]
  | unwanted => rw [Work.releaseHead_pick, hpulsed]
  | opens => exact Work.openPack_noPick (by rw [Work.releaseHead_pick, hpulsed]) _ _
  | nextPage => rw [Work.pageReleased_pick, Work.releaseHead_pick, hpulsed]

/-- Decisions hold no break pick where none was held. -/
theorem Work.Decides.noPick (h : w.Decides v) (hp : w.arb.pick = none) : v.arb.pick = none := by
  have hpoised {w : Work} (hp : w.arb.pick = none) : w.poised.arb.pick = none := by
    rw [w.poised_eq]
    exact (congrArg (Option.filter _) hp).trans rfl
  induction h with
  | done => exact hpoised hp
  | next hc _ ih => exact ih ((Work.release_is hc).noPick (hpoised hp))

theorem Work.Decides.settles (h : w.Decides v) : Settles w v := by
  induction h with
  | done => exact (Settles.refl _).boundALast.dropPick
  | next hc _ ih =>
    obtain ⟨hp, hr⟩ := State.candidate_present (State.choose_candidate hc)
    exact ((Settles.refl _).boundALast.dropPick.release _ hp hr).trans ih

/-- Pack `k` has been opened out of turn as the break pick, its notice formed next (R65, R68, R74). -/
structure Work.PickOpened (w : Work) (k : Handle) (v : Work) : Prop where
  pick : v.arb.pick = none
  opened : (v.pack k).state = .opened
  turn : (v.pack k).flags.outOfTurn = true
  latched : v.latched .orderBreak = true
  notices : w.notices ++ [.orderBreak k (w.pack k).cls .pocket] <+: v.notices
  waiting : k ∉ v.stapler.queue

/-- The release of the break pick opens its pack. -/
theorem Work.Release.pickOpened (h : w.Release f v) (hp : w.arb.pick = some (f, k)) (hs : w.pickStands f k = true)
    (hn : k ∉ w.stapler.queue) (hc : (w.verdict f).isCollate = true) : w.PickOpened k v := by
  obtain ⟨-, -, -, -, hannounced, -, e', he', hhandle, -, -⟩ := State.pickStands_iff.1 hs
  obtain ⟨hb, hd, e'', p', he'', hj''⟩ := (State.isCollate_iff _ f).1 hc
  have hsame {e : StagingEntry} {q : List StagingEntry} (hq : w.feeds[f].queue = e :: q) : e.handle = k ∧ e = e'' := by
    rw [hq] at he' he''
    exact ⟨Option.some.inj he' ▸ hhandle, Option.some.inj he''⟩
  cases h with
  | pass h => exact absurd h hb
  | unannounced _ h => rw [hd] at h; cases h
  | unwanted e q _ _ hq hj => rw [(hsame hq).2, hj''] at hj; cases hj
  | nextPage e q _ _ hq hj =>
    have hopened := (State.judgeEntry_next hj).1
    rw [(hsame hq).1, hannounced] at hopened
    cases hopened
  | opens e q p _ _ hq hj =>
    have hk := (hsame hq).1
    obtain ⟨y, hy⟩ : ∃ y, y = (w.pulsed f).releaseHead f e .collate := ⟨_, rfl⟩
    obtain ⟨hreg, hstapler, hnotices⟩ := (w.pulsed f).releaseHead_keeps f e .collate
    have hpick : y.arb.pick = some (f, k) := by
      rw [hy, Work.releaseHead_pick]
      exact hp
    rw [hk, ← hy]
    rw [← hy] at hreg hstapler hnotices
    obtain ⟨h1, h2, h3, h4, h5, h6⟩ := Work.openPack_of_pick hpick p
    have hpack : y.pack k = w.pack k := by
      rw [State.pack, hreg]
      rfl
    refine ⟨h3, h1, h2, h4, ?_, ?_⟩
    · rw [h5, hnotices, hpack]
      exact List.prefix_refl _
    · rw [h6, hstapler]
      exact hn

/-- Decisions over a break pick that may still be released hold it, or open its pack out of turn. -/
theorem Work.Decides.opensPick (h : w.Decides v) (hp : w.arb.pick = some (f, k)) (hs : w.pickStands f k = true)
    (hn : k ∉ w.stapler.queue) : v.arb.pick = some (f, k) ∨ w.PickOpened k v := by
  have hkept : w.keptPick = some (f, k) := by rw [State.keptPick, hp, Option.filter_some, if_pos hs]
  obtain ⟨x, hx⟩ : ∃ x, x = w.poised := ⟨_, rfl⟩
  have hx' : x = { w with arb := { w.arb with aLast := boundedALast w.now w.arb.aLast, pick := some (f, k) } } := by
    rw [hx, w.poised_eq, hkept]
  have hpick : x.arb.pick = some (f, k) := by rw [hx']
  cases hc : x.choose with
  | none =>
    have hv : v = x := by
      cases h with
      | done => exact hx.symm
      | next hg => rw [← hx, hc] at hg; cases hg
    exact .inl (by rw [hv, hpick])
  | some g =>
    obtain ⟨rfl, hdue⟩ := (State.choose_of_pick hpick).1 hc
    rw [hx] at hc
    have hfirst := h.first hc
    have hrelease := Work.release_is hc
    rw [← hx] at hfirst hrelease
    have hstands : x.pickStands g k = true := by rw [hx']; exact hs
    have hopened := hrelease.pickOpened hpick hstands (by rw [hx']; exact hn) ((State.dueWith_iff _ g _).1 hdue).2
    have hsettles := hfirst.settles
    refine .inr ⟨hfirst.noPick hopened.pick, hsettles.opened k hopened.waiting hopened.opened,
      hsettles.turn k hopened.turn, hfirst.evolves.latched _ hopened.latched, ?_,
      fun hk => hopened.waiting (hsettles.stapleQueue k hk)⟩
    refine List.IsPrefix.trans ?_ hfirst.evolves.notices
    have hsame : x.notices = w.notices ∧ x.pack k = w.pack k := by
      rw [hx']
      exact ⟨rfl, rfl⟩
    rw [← hsame.1, ← hsame.2]
    exact hopened.notices

theorem Work.PickOpened.closed {x : Work} (h : w.PickOpened k x) (b : State) : w.PickOpened k (x.closed b) := by
  have hpick := (x.closed_sameChoice b).pick
  have hlatched := x.closed_latched b .orderBreak h.latched
  obtain ⟨bs, a, m, o, hc⟩ := x.closed_shape b
  have hreg : (x.closed b).reg = x.reg := by rw [hc]
  have hstapler : (x.closed b).stapler = x.stapler := by rw [hc]
  have hnotices : (x.closed b).notices = x.notices := by rw [hc]
  have hpack : (x.closed b).pack k = x.pack k := by rw [State.pack, hreg]; rfl
  exact ⟨hpick.trans h.pick, by rw [hpack]; exact h.opened, by rw [hpack]; exact h.turn, hlatched,
    by rw [hnotices]; exact h.notices, by rw [hstapler]; exact h.waiting⟩

/-- As a step settles, a break pick that may still be released is held, or its pack is opened out of turn. -/
theorem Work.settle_opensPick (hst : w.plant.Steady) (ho : w.occasion = true) (hp : w.arb.pick = some (f, k))
    (hs : w.pickStands f k = true) (hn : k ∉ w.stapler.queue) (b : State) :
    (w.settle b).arb.pick = some (f, k) ∨ w.PickOpened k (w.settle b) := by
  have hstate : w.run.state = .run ∨ w.run.state = .bypass := State.releasing_iff.1 (State.pickStands_iff.1 hs).1
  have hstarting : w.starting = false := by rw [State.starting_eq]; rcases hstate with h | h <;> rw [h] <;> rfl
  have hrun : w.goOn.run.state = w.run.state := by
    rcases w.goOn_run hstarting with h | ⟨⟨o, h⟩, -⟩
    · exact h
    · rcases hstate with h' | h' <;> rw [h'] at h <;> cases h
  have hchoice := Work.goOn_sameChoice hstarting hst hrun
  have hmerge := w.goOn_merge_of_running hstarting
  have hoccasion := (Work.Onward.refl w).goOn.occasion ho
  have halike := Work.goOn_alike hstarting hst
  rw [Work.settle_closed]
  obtain ⟨x, hx⟩ : ∃ x, x = w.goOn := ⟨_, rfl⟩
  rw [← hx] at hchoice hmerge hoccasion halike ⊢
  have hnotices : x.notices = w.notices := congrArg Merge.notices hmerge
  have hcls : (x.pack k).cls = (w.pack k).cls := (hchoice.pack k).2.1
  have hdecided : x.decideReleases.arb.pick = some (f, k) ∨ w.PickOpened k x.decideReleases := by
    rcases x.decideReleases_is with ⟨-, hd⟩ | ⟨hno, -⟩
    · refine (hd.opensPick (hchoice.pick.trans hp) ((hchoice.pickStands f k).trans hs)
        fun h => hn (halike.waiting k h)).imp_right fun h => ?_
      refine ⟨h.pick, h.opened, h.turn, h.latched, ?_, h.waiting⟩
      rw [← hnotices, ← hcls]
      exact h.notices
    · rw [hoccasion] at hno; cases hno
  exact hdecided.imp (fun h => ((_ : Work).closed_sameChoice b).pick.trans h) fun h => h.closed b

end

/-! ### What a restart request leaves alone -/

/-- `v` differs from `w` in the packs, their queues, the pockets, the latches and what was formed alone. -/
structure Work.Spares (w v : Work) : Prop where
  run : v.run = w.run
  feeds : v.feeds = w.feeds
  arb : v.arb = w.arb
  pulses : v.releasePulses = w.releasePulses
  ret : v.ret = { w.ret with queue := v.ret.queue }
  onward : w.Onward v

namespace Work.Spares

variable {a w : Work}

theorem refl (w : Work) : w.Spares w := ⟨rfl, rfl, rfl, rfl, rfl, .refl w⟩

theorem trans {u v : Work} (h : w.Spares u) (k : u.Spares v) : w.Spares v :=
  ⟨k.run.trans h.run, k.feeds.trans h.feeds, k.arb.trans h.arb, k.pulses.trans h.pulses,
    k.ret.trans (by rw [h.ret]), h.onward.trans k.onward⟩

section
variable (h : a.Spares w)
include h

theorem setPack (k : Handle) (r : PackRec) : a.Spares (w.setPack k r) :=
  h.trans ⟨w.setPack_run k r, w.setPack_feeds k r, w.setPack_arb k r, w.setPack_releasePulses k r,
    by rw [Work.setPack_ret], (Work.Onward.refl w).setPack k r⟩

theorem setClassQueue (c : ClassId) (q : List Handle) : a.Spares (w.setClassQueue c q) :=
  h.trans ⟨w.setClassQueue_run c q, w.setClassQueue_feeds c q, w.setClassQueue_arb c q, w.setClassQueue_releasePulses c q,
    by rw [Work.setClassQueue_ret], (Work.Onward.refl w).setClassQueue c q⟩

theorem setPocket (p : PocketId) (r : PocketRec) : a.Spares (w.setPocket p r) :=
  h.trans ⟨w.setPocket_run p r, w.setPocket_feeds p r, w.setPocket_arb p r, w.setPocket_releasePulses p r,
    by rw [Work.setPocket_ret], (Work.Onward.refl w).setPocket p r⟩

theorem setStaplerRec (r : Stapler) : a.Spares (w.setStaplerRec r) :=
  h.trans ⟨rfl, rfl, rfl, rfl, rfl, (Work.Onward.refl w).setStaplerRec r⟩

theorem leaveDeliveryQueue (k : Handle) : a.Spares (w.leaveDeliveryQueue k) :=
  h.trans ⟨rfl, rfl, rfl, rfl, rfl, (Work.Onward.refl w).setRet _⟩

theorem judge : a.Spares w.judge := h.trans ⟨rfl, rfl, rfl, rfl, rfl, (Work.Onward.refl w).judge⟩

theorem notify (r : OutRecord) : a.Spares (w.notify r) :=
  h.trans ⟨rfl, rfl, rfl, rfl, rfl, (Work.Onward.refl w).notify r⟩

theorem latch (c : Cause) : a.Spares (w.latch c) := h.trans ⟨rfl, rfl, rfl, rfl, rfl, (Work.Onward.refl w).latch c⟩

theorem requestPurge (p : PocketId) : a.Spares (w.requestPurge p) := by
  unfold Work.requestPurge
  dsimp only
  split
  · exact h.setPocket p _
  · exact h.setPocket p _
  · exact h.setPocket p _
  all_goals exact h

theorem purgeHeld (p : Option PocketId) : a.Spares (w.purgeHeld p) := by
  cases p with
  | none => exact h
  | some p => exact h.requestPurge p

theorem freePack (k : Handle) : a.Spares (w.freePack k) := by
  unfold Work.freePack
  exact (h.setPack k _).trans ⟨rfl, rfl, rfl, rfl, rfl, ((Work.Onward.refl _).setReg _).same rfl rfl rfl⟩

theorem leaveQueues (k : Handle) : a.Spares (w.leaveQueues k) :=
  ((h.setClassQueue _ _).setStaplerRec _).leaveDeliveryQueue k

theorem restartPack (k : Handle) (c : RestartCause) : a.Spares (w.restartPack k c) := by
  unfold Work.restartPack
  exact (((((h.setPack k _).setStaplerRec _).leaveDeliveryQueue k).purgeHeld _).notify _).latch _

theorem abandonPack (k : Handle) (c : RestartCause) : a.Spares (w.abandonPack k c) := by
  have hleft := ((h.leaveQueues k).notify (.packAbandoned k c)).latch .abandon
  unfold Work.abandonPack
  dsimp only
  split
  · exact hleft.freePack k
  · exact (hleft.setPack k _).requestPurge _

theorem requestRestart (k : Handle) (g : Nat) (c : RestartCause) : a.Spares (w.requestRestart k g c) := by
  unfold Work.requestRestart
  split
  · split
    · exact (h.restartPack k c).judge
    · exact (h.abandonPack k c).judge
  · exact h

theorem requestFor (e : InFlight) (c : RestartCause) : a.Spares (w.requestFor e c) := by
  unfold Work.requestFor
  split
  · exact h.requestRestart _ _ _
  · exact h

theorem breakDelivery (k : Handle) : a.Spares (w.breakDelivery k) := by
  unfold Work.breakDelivery
  exact (((h.setPack k _).notify _).latch _).judge

end

end Work.Spares

theorem Work.Spares.keepsBins {s : State} {w v : Work} (h : w.Spares v) (hw : w.ret.bins = s.ret.bins) :
    s.keepsBins v.toState [] := State.keepsBins_of_bins (by rw [h.ret, hw]) []

/-! ### The break actions (R64 to R67) -/

section
variable {w : Work} {k : Handle}

theorem Work.Onward.breakBlock (w : Work) : w.Onward w.breakBlock := by
  unfold Work.breakBlock
  split
  · exact ((Work.Spares.refl w).requestRestart _ _ _).onward
  · split
    · exact ((Work.Onward.refl w).setArb _).occasionIf true
    · split
      · exact ((Work.Spares.refl w).breakDelivery _).onward
      · split
        · exact ((Work.Spares.refl w).requestRestart _ _ _).onward
        · exact .refl w

theorem Work.breakBlock_keepsBins (w : Work) : w.toState.keepsBins w.breakBlock.toState [] := by
  unfold Work.breakBlock
  split
  · exact ((Work.Spares.refl w).requestRestart _ _ _).keepsBins rfl
  · split
    · exact State.keepsBins_of_bins rfl []
    · split
      · exact ((Work.Spares.refl w).breakDelivery _).keepsBins rfl
      · split
        · exact ((Work.Spares.refl w).requestRestart _ _ _).keepsBins rfl
        · exact State.keepsBins_of_bins rfl []

theorem Work.breakBlock_run (w : Work) : w.breakBlock.run = w.run := by
  unfold Work.breakBlock
  split
  · exact ((Work.Spares.refl w).requestRestart _ _ _).run
  · split
    · rfl
    · split
      · exact ((Work.Spares.refl w).breakDelivery _).run
      · split
        · exact ((Work.Spares.refl w).requestRestart _ _ _).run
        · rfl

/-- A restart request taken where no notice was formed before remakes the pack and tells its notice. -/
theorem Work.requestRestart_restarts {s : State} (hfrom : Work.From s w) (hw : w.toState = s) (hn : w.notices = [])
    (hs : w.starting = false) {g : Nat} (ht : w.takesRestart k g = true) (c : RestartCause) (b : State) :
    s.restarts ((w.requestRestart k g c).settle b).finish k c := by
  subst hw
  obtain ⟨hremade, hnotices⟩ := Work.requestRestart_remade ht rfl rfl c
  have hstarting : (w.requestRestart k g c).starting = false := by
    rw [State.starting, ((Work.Spares.refl w).requestRestart k g c).run]
    exact hs
  have hfromU : Work.From w.toState (w.requestRestart k g c) :=
    hfrom.evolves ((Evolves.refl w).requestRestart k g c) (Work.frame_requestRestart _ _ _ _)
  rw [hn, List.nil_append] at hnotices
  obtain ⟨u, hu⟩ : ∃ u, u = w.requestRestart k g c := ⟨_, rfl⟩
  rw [← hu] at hremade hnotices hstarting hfromU ⊢
  obtain ⟨post, hpost⟩ := ((Evolves.refl u).settle b).notices
  rw [hnotices, List.singleton_append] at hpost
  exact ⟨hremade.settles (Settles.settle b u hstarting) ((Evolves.refl u).settle b),
    (hfromU.settle b).notifies hpost.symm⟩

theorem Work.breakDelivery_pack (w : Work) (k : Handle) : (w.breakDelivery k).pack
      = (w.setPack k { w.pack k with flags := { (w.pack k).flags with outOfTurn := true } }).pack := rfl

theorem Work.breakDelivery_reg (w : Work) (k : Handle) : (w.breakDelivery k).reg
      = (w.setPack k { w.pack k with flags := { (w.pack k).flags with outOfTurn := true } }).reg := rfl

/-- A READY pack made deliverable out of turn: its flag is set and its notice told (R66, R68). -/
theorem Work.breakDelivery_breaks {s : State} (hfrom : Work.From s w) (hw : w.toState = s) (hn : w.notices = [])
    (hs : w.starting = false) (hr : (s.pack k).state = .ready) (hq : s.stapleQueueSound) (b : State) :
    s.keepsPacks ((w.breakDelivery k).settle b).finish
      ∧ (((w.breakDelivery k).settle b).finish.pack k).flags.outOfTurn = true
      ∧ ((((w.breakDelivery k).settle b).finish.pack k).state = .ready
        ∨ (((w.breakDelivery k).settle b).finish.pack k).state = .delivering)
      ∧ ((w.breakDelivery k).settle b).finish.latched .orderBreak = true
      ∧ s.notifies ((w.breakDelivery k).settle b).finish (.orderBreak k (s.pack k).cls .delivery) := by
  subst hw
  have hstarting : (w.breakDelivery k).starting = false := by
    rw [State.starting, ((Work.Spares.refl w).breakDelivery k).run]
    exact hs
  have hself : (w.breakDelivery k).pack k
      = { w.pack k with flags := { (w.pack k).flags with outOfTurn := true } } := by
    rw [Work.breakDelivery_pack, Work.pack_setPack, if_pos rfl]
  have hkeeps : w.toState.keepsPacks (w.breakDelivery k).toState := by
    refine ⟨?_, ?_, ?_, fun x => ?_⟩
    · rw [Work.breakDelivery_reg, Work.setPack_reg]
    · rw [Work.breakDelivery_reg, Work.setPack_reg]
    · rw [Work.breakDelivery_reg, Work.setPack_reg]
    · rw [Work.breakDelivery_pack, Work.pack_setPack]
      split
      next h => rw [← h]; exact ⟨rfl, rfl, rfl⟩
      · exact ⟨rfl, rfl, rfl⟩
  have hnotices : (w.breakDelivery k).notices = [.orderBreak k (w.pack k).cls .delivery] := by
    show (w.setPack k _).notices ++ [_] = _
    rw [Work.setPack_notices, hn]
    rfl
  have hlatched : (w.breakDelivery k).latched .orderBreak = true := State.latched_latch_self _ _
  have hstapler : (w.breakDelivery k).stapler = w.stapler := Work.setPack_stapler _ _ _
  have hfromU : Work.From w.toState (w.breakDelivery k) :=
    hfrom.evolves ((Evolves.refl w).breakDelivery k hr) (Work.frame_breakDelivery _ _)
  obtain ⟨u, hu⟩ : ∃ u, u = w.breakDelivery k := ⟨_, rfl⟩
  rw [← hu] at hstarting hself hkeeps hnotices hlatched hstapler hfromU ⊢
  have hset := Settles.settle b u hstarting
  have hevolves := (Evolves.refl u).settle b
  have hnot : k ∉ u.stapler.queue := by
    rw [hstapler]
    exact State.stapleQueueSound.not_mem hq (by rw [hr]; exact nofun) (by rw [hr]; exact nofun)
  obtain ⟨post, hpost⟩ := hevolves.notices
  rw [hnotices, List.singleton_append] at hpost
  rw [Work.finish_pack]
  exact ⟨(hkeeps.settle b).finish, hset.turn k (by rw [hself]), hset.ready k hnot (by rw [hself]; exact hr),
    Work.finish_latched _ _ (hevolves.latched _ hlatched), (hfromU.settle b).notifies hpost.symm⟩

/-- A head that waits for a pocket of its own pack may be held as the break pick (R65). -/
theorem State.waitsForPocket_stands {s : State} {f : FeedId} {k : Handle} (h : s.waitsForPocket f = true)
    (hk : s.headHandle f = some k) : s.pickStands f k = true ∧ (s.pack k).state = .announced := by
  rw [State.waitsForPocket] at h
  rw [State.headHandle] at hk
  rw [State.pickStands]
  simp only [Bool.and_eq_true] at h ⊢
  obtain ⟨⟨⟨hc, -⟩, hp⟩, hq⟩ := h
  cases hqueue : s.feeds[f].queue with
  | nil => rw [hqueue] at hk; cases hk
  | cons e q =>
    rw [hqueue] at hk hq
    obtain rfl : e.handle = k := Option.some.inj hk
    obtain ⟨hstate, hpage, hgen⟩ := of_decide_eq_true hq
    exact ⟨⟨⟨⟨hc, decide_eq_true hstate⟩, hp⟩, decide_eq_true ⟨rfl, hpage, hgen⟩⟩, hstate⟩

/-- The break pick taken: it is held, or its pack is opened out of turn in the same step (R65). -/
theorem Work.takePick_breaks {s : State} {f : FeedId} (hfrom : Work.From s w) (hw : w.toState = s) (hn : w.notices = [])
    (hf : s.waitsForPocket f = true) (hk : s.headHandle f = some k) (hq : s.stapleQueueSound) (hp : s.pocketsAgree)
    {u v : Work} (hu : u = (w.setArb { w.arb with pick := some (f, k) }).occasionIf true) {b : State}
    (hv : v = (u.settle b)) :
    s.keepsPacks v.finish
      ∧ (v.finish.arb.pick = some (f, k)
        ∨ (v.finish.arb.pick = none ∧ (v.finish.pack k).state = .opened ∧ (v.finish.pack k).flags.outOfTurn = true
          ∧ v.finish.latched .orderBreak = true ∧ s.notifies v.finish (.orderBreak k (s.pack k).cls .pocket))) := by
  subst hw
  obtain ⟨hstands, hannounced⟩ := State.waitsForPocket_stands hf hk
  have hfromU : Work.From w.toState u :=
    hu ▸ hfrom.evolves (((Evolves.refl w).setArb _).occasionIf true) (by rw [Work.frame_occasionIf]; rfl)
  have hreg : u.reg = w.reg := by rw [hu]; rfl
  have hplant : u.plant = w.plant := by rw [hu]; rfl
  have hopens := Work.settle_opensPick (w := u) (f := f) (k := k) (by rw [hplant]; exact State.steady hq hp)
    (by rw [hu, Work.occasionIf]; exact Bool.or_true _) (by rw [hu]; rfl) (by rw [hu]; exact hstands)
    (by
      rw [hu]
      exact State.stapleQueueSound.not_mem (s := w.toState) hq (by rw [hannounced]; exact nofun)
        (by rw [hannounced]; exact nofun)) b
  have hnotices : u.notices = [] := by rw [hu]; exact hn
  have hcls : (u.pack k).cls = (w.pack k).cls := by rw [hu]; rfl
  have hfromV : Work.From w.toState v := hv ▸ hfromU.settle b
  rw [← hv] at hopens
  rw [Work.finish_arb, Work.finish_pack]
  refine ⟨?_, hopens.imp_right fun h => ?_⟩
  · rw [hv]
    exact ((State.keepsPacks_of_reg hreg).settle b).finish
  · obtain ⟨post, hpost⟩ := h.notices
    rw [hnotices, List.nil_append, List.singleton_append, hcls] at hpost
    exact ⟨h.pick, h.opened, h.turn, Work.finish_latched _ _ h.latched, hfromV.notifies hpost.symm⟩

theorem State.selfBlocked_takes {s : State} {f : FeedId} (h : s.selfBlocked f = some k) :
    s.takesRestart k (s.pack k).gen = true := by
  rw [State.selfBlocked] at h
  split at h
  · cases hq : s.feeds[f].queue with
    | nil => rw [hq] at h; cases h
    | cons e q =>
      rw [hq] at h
      dsimp only at h
      split at h
      next hc =>
        obtain rfl : e.handle = k := Option.some.inj h
        rw [Bool.and_eq_true] at hc
        obtain ⟨hstate, -, -⟩ := of_decide_eq_true hc.1
        refine State.takesRestart_iff.2 ?_
        rcases hstate with hx | hx <;> rw [hx] <;> exact ⟨nofun, nofun, rfl, nofun⟩
      · cases h
  · cases h

theorem State.starting_of_blockHolds {s : State} (h : s.blockHolds = true) : s.starting = false := by
  simp only [State.blockHolds, State.mergeWaits, Bool.and_eq_true, List.any_eq_true] at h
  obtain ⟨⟨⟨f, -, hc, -⟩, -⟩, -⟩ := h
  rw [State.candidate] at hc
  simp only [Bool.and_eq_true] at hc
  rcases State.releasing_iff.1 hc.1.1.1.1 with hr | hr <;> rw [State.starting, hr]

end

end Sys2Proof.Machine

namespace Sys2Proof.Proofs

open Sys2Proof.Machine

/-- Settles O45: the first break action that applies is taken and the timer starts again as the step settles. -/
theorem blockTimerBreaksTheBlock : Obligations.BlockTimerBreaksTheBlock := by
  unfold Obligations.BlockTimerBreaksTheBlock
  intro s hq hp
  cases hexp : s.blockExpired with
  | false =>
    refine ⟨s, exec_stays rfl hexp, fun _ => rfl, fun start hstart hholds => ⟨fun _ => rfl, fun hle => ?_⟩⟩
    rw [State.blockExpired, hstart] at hexp
    simp [hholds, hle] at hexp
  | true =>
    have hexpired : ∃ start, s.arb.blockTimer = some start ∧ s.blockHolds = true
        ∧ (s.tables.settings.blockTime * 1000 : Int) ≤ elapsed s.now start := by
      rw [State.blockExpired] at hexp
      split at hexp
      · cases hexp
      next start hstart =>
        simp only [Bool.and_eq_true, decide_eq_true_eq] at hexp
        exact ⟨start, hstart, hexp⟩
    obtain ⟨start, hstart, hholds, hle⟩ := hexpired
    obtain ⟨w, hw⟩ : ∃ w, w = (Work.of s).restartTimer := ⟨_, rfl⟩
    have heff : Instr.blockTimerExpiry.effect (Work.of s) = w.breakBlock.settle s := by rw [hw, Instr.effect]; rfl
    have hfrom : Work.From s w := hw ▸ (Work.From.of s).evolves (Evolves.refl _).restartTimer (Work.frame_restartTimer _)
    have hstate : w.toState = s := by rw [hw]; rfl
    have hn : w.notices = [] := by rw [hw]; rfl
    have hstarting : w.starting = false := by rw [hstate]; exact State.starting_of_blockHolds hholds
    have hfromU : Work.From s w.breakBlock := hfrom.evolves (Evolves.refl w).breakBlock w.frame_breakBlock
    have htimer := w.breakBlock.settle_blockTimer s ((Work.Onward.breakBlock w).progress (by rw [hw]; rfl))
    have hbins : s.keepsBins w.breakBlock.toState [] := by rw [← hstate]; exact w.breakBlock_keepsBins
    refine ⟨_, exec_comes (c := .blockTimerExpiry) rfl hexp, ?_, fun start' hstart' _ => ⟨fun hlt => ?_, fun _ => ?_⟩⟩
    · rintro (h | h)
      · rw [h] at hstart; cases hstart
      · rw [h] at hholds; cases hholds
    · rw [hstart] at hstart'
      cases hstart'
      exact absurd hlt (not_lt.2 hle)
    rw [heff]
    refine ⟨(hfromU.settle s).surrounds, (hbins.settle s).finish, ?_, fun h hself => ?_,
      fun hself => ⟨fun f h hf hh => ?_, fun hwaits => ⟨fun h hb => ?_, fun hb => ⟨fun h hl => ?_, fun hl => ?_⟩⟩⟩⟩
    · rw [Work.finish_arb, (Work.finish_sameWork _).blockHolds, htimer, hfromU.now_eq]
    · obtain ⟨f, -, hf⟩ := List.exists_of_findSome?_eq_some hself
      have hbreak : w.breakBlock = w.requestRestart h (w.pack h).gen .orderFault := by rw [Work.breakBlock, hstate, hself]
      rw [hbreak]
      exact Work.requestRestart_restarts hfrom hstate hn hstarting (by rw [hstate]; exact State.selfBlocked_takes hf) _ s
    · have hbreak : w.breakBlock = (w.setArb { w.arb with pick := some (f, h) }).occasionIf true := by
        rw [Work.breakBlock, hstate, hself]
        dsimp only
        rw [hf]
        dsimp only
        rw [hh]
        rfl
      have hwaits := (List.mem_filter.1 (firstBy_mem hf)).2
      exact Work.takePick_breaks hfrom hstate hn hwaits hh hq hp hbreak rfl
    · have hbreak : w.breakBlock = w.breakDelivery h := by
        rw [Work.breakBlock, hstate, hself]
        dsimp only
        rw [hwaits]
        dsimp only
        rw [hb]
      have hready : (s.pack h).state = .ready := by
        have hb := (List.mem_filter.1 (firstBy_mem hb)).2
        rw [State.breakable] at hb
        simp only [Bool.and_eq_true] at hb
        exact of_decide_eq_true hb.1.1
      rw [hbreak]
      exact Work.breakDelivery_breaks hfrom hstate hn hstarting hready hq s
    · have hbreak : w.breakBlock = w.requestRestart h (w.pack h).gen .block := by
        rw [Work.breakBlock, hstate, hself]
        dsimp only
        rw [hwaits]
        dsimp only
        rw [hb]
        dsimp only
        rw [hl]
      have hopened : (s.pack h).state = .opened :=
        of_decide_eq_true (List.mem_filter (p := fun h => decide ((s.pack h).state = .opened)) |>.1 (firstBy_mem hl)).2
      rw [hbreak]
      refine Work.requestRestart_restarts hfrom hstate hn hstarting ?_ _ s
      rw [hstate]
      exact State.takesRestart_iff.2 (by rw [hopened]; exact ⟨nofun, nofun, rfl, nofun⟩)
    · have hbreak : w.breakBlock = w := by
        rw [Work.breakBlock, hstate, hself]
        dsimp only
        rw [hwaits]
        dsimp only
        rw [hb]
        dsimp only
        rw [hl]
      rw [hbreak]
      exact ((State.keepsPacks_of_reg (by rw [hstate])).settle s).finish

end Sys2Proof.Proofs
end

section
/-! SUPPORT. A pocket that no pack names as a step settles (`Plant.Clear`), and the packs that are FREE: the settling of
`Obligations.DeliveriesEnd`. -/

namespace Sys2Proof.Machine

/-! ### A pocket that no pack names -/

namespace Plant

/-- Pocket `p` has the record `x`, and no pack names it. -/
structure Clear (P : Plant) (p : PocketId) (x : PocketRec) : Prop where
  pocket : P.pocket p = x
  unnamed : ∀ k, (P.pack k).pocket ≠ some p

variable {P : Plant} {p : PocketId} {x : PocketRec}

theorem Clear.setPack (h : P.Clear p x) {k : Handle} {r : PackRec} (hr : r.pocket ≠ some p) : (P.setPack k r).Clear p x := by
  refine ⟨h.pocket, fun j => ?_⟩
  by_cases e : j = k
  · rw [e, setPack_pack_self]
    exact hr
  · rw [setPack_pack_ne _ e]
    exact h.unnamed j

theorem Clear.setStapler (h : P.Clear p x) (r : Stapler) : (P.setStapler r).Clear p x := ⟨h.pocket, h.unnamed⟩

theorem Clear.setReturn (h : P.Clear p x) (r : ReturnState) (d : Option DeliveryRec) : (P.setReturn r d).Clear p x :=
  ⟨h.pocket, h.unnamed⟩

theorem Clear.setPocket_ne (h : P.Clear p x) {q : PocketId} (hq : q ≠ p) (r : PocketRec) : (P.setPocket q r).Clear p x :=
  ⟨(setPocket_pocket_ne _ (Ne.symm hq)).trans h.pocket, h.unnamed⟩

theorem Clear.onPocket (h : P.Clear p x) {o : Option PocketId} (ho : o ≠ some p) (f : PocketRec → PocketRec) :
    (P.onPocket o f).Clear p x := by
  cases o with
  | none => exact h
  | some q => exact h.setPocket_ne (fun e => ho (by rw [e])) _

end Plant

section
variable {w : Work} {p : PocketId} {x : PocketRec}

/-- No purge starts on a pocket that is not PURGING. -/
theorem Work.startPurge_pocket (w : Work) (q : PocketId) (hp : (w.plant.pocket p).state ≠ .purging) :
    (w.startPurge q).plant.pocket p = w.plant.pocket p := by
  unfold Work.startPurge
  dsimp only
  split
  next h =>
    simp only [Bool.and_eq_true, decide_eq_true_eq] at h
    rw [Work.setPocket_plant]
    refine Plant.setPocket_pocket_ne _ fun e => hp ?_
    rw [e]
    exact h.1.1.1
  · rfl

theorem Work.startPurges_pocket (w : Work) (hp : (w.plant.pocket p).state ≠ .purging) :
    w.startPurges.plant.pocket p = w.plant.pocket p := by
  have heach (l : List PocketId) (y : Work) (hy : (y.plant.pocket p).state ≠ .purging) :
      (y.each Work.startPurge l).plant.pocket p = y.plant.pocket p := by
    induction l generalizing y with
    | nil => rfl
    | cons q l ih =>
      have hone := y.startPurge_pocket q hy
      rw [show y.each Work.startPurge (q :: l) = (y.startPurge q).each Work.startPurge l from rfl,
        ih (y.startPurge q) (by rw [hone]; exact hy), hone]
  unfold Work.startPurges
  exact heach _ w hp

/-- The end of start-up leaves a pocket alone whose purge does not run. -/
theorem Work.endStartUp_pocket (w : Work) (hp : (w.plant.pocket p).purge ≠ .running) :
    w.endStartUp.plant.pocket p = w.plant.pocket p := by
  unfold Work.endStartUp
  split
  · split
    · rfl
    · unfold Work.leaveStarting
      dsimp only
      rw [Work.setReport_plant]
      split
      · obtain ⟨o, -, h⟩ := w.halt_plant .stop (startTarget _ w.run.straps.start)
        rw [h]
        exact if_neg hp
      · rw [Work.enterTarget_plant]
        rfl
  · rfl

/-- The packs stand as the pending purges start and a start-up ends. -/
theorem Work.started_pack (w : Work) (k : Handle) : w.startPurges.endStartUp.pack k = w.pack k := by
  have h := congrArg Core.reg w.core_started
  rw [Work.core_reg, Work.core_reg] at h
  rw [State.pack, State.pack, h]

theorem Work.startVolume_clear (h : w.plant.Clear p x) (k : WorkRec) : (w.startVolume k).plant.Clear p x := by
  have hk : (w.pack k.handle).pocket ≠ some p := h.unnamed k.handle
  by_cases hn : w.stapler.remaining < patternCount (w.pack k.handle).snap.pattern
  · rw [show w.startVolume k = w.shortVolume k from if_pos hn]
    unfold Work.shortVolume
    dsimp only
    split
    · exact h.setStapler _
    · rw [Work.finishPack_plant]
      exact ((h.setStapler _).onPocket hk _).setPack hk
  · rw [w.startVolume_plant k (Nat.not_lt.1 hn)]
    exact ((h.setPack (by exact hk)).onPocket hk _).setStapler _

theorem Work.takeUp_clear (h : w.plant.Clear p x) (n : Nat) : (Work.takeUp n w).plant.Clear p x := by
  induction n generalizing w with
  | zero => exact h
  | succ n ih =>
    unfold Work.takeUp
    split
    · exact h
    · split
      · exact ih (Work.startVolume_clear h _)
      · exact h

theorem Work.startDelivery_clear (h : w.plant.Clear p x) : w.startDelivery.plant.Clear p x := by
  unfold Work.startDelivery
  split
  · split
    · exact h
    next k _ =>
      split
      next q b hq _ =>
        have hne : q ≠ p := fun e => h.unnamed k (hq.trans (by rw [e]))
        refine ⟨?_, fun j => ?_⟩
        · rw [Work.beginDelivery_pocket, Plant.setPocket_pocket_ne _ (Ne.symm hne)]
          exact h.pocket
        · rw [State.plant_pack, Work.beginDelivery_pack]
          split
          · exact h.unnamed k
          · exact h.unnamed j
      · exact h
  · exact h

/-- As the work goes on a pocket is left alone that no pack names, that is not PURGING and whose purge does not run. -/
theorem Work.goOn_clear (h : w.plant.Clear p x) (hs : x.state ≠ .purging) (hr : x.purge ≠ .running) : w.goOn.plant.Clear p x := by
  have hpurges : w.startPurges.plant.pocket p = x := (w.startPurges_pocket (by rw [h.pocket]; exact hs)).trans h.pocket
  have hstarted : w.startPurges.endStartUp.plant.Clear p x :=
    ⟨(w.startPurges.endStartUp_pocket (by rw [hpurges]; exact hr)).trans hpurges, fun k => by
      rw [State.plant_pack, w.started_pack]
      exact h.unnamed k⟩
  obtain ⟨y, hy⟩ : ∃ y, y = w.startPurges.endStartUp := ⟨_, rfl⟩
  rw [← hy] at hstarted
  have hjudge : y.judge.plant.Clear p x := by rwa [Work.judge_plant]
  rw [Work.goOn, Work.endStopping_plant, ← hy]
  exact Work.startDelivery_clear (Work.takeUp_clear hjudge _)

/-! ### Release decisions take EMPTY pockets in RUN -/

theorem Work.releaseBare_pockets (w : Work) (f : FeedId) (t : EntryTag) (d : Disposition) :
    (w.releaseBare f t d).pockets = w.pockets := by
  simp [Work.releaseBare, Work.appendInFlight]

theorem Work.releaseHead_pockets (w : Work) (f : FeedId) (e : StagingEntry) (d : Disposition) :
    (w.releaseHead f e d).pockets = w.pockets := by
  simp [Work.releaseHead, Work.appendInFlight]

theorem Work.Release.pockets {f : FeedId} {v : Work} (h : w.Release f v) : v.pockets = w.pockets ∨ w.run.state ≠ .bypass := by
  cases h with
  | pass => exact .inl (Work.releaseBare_pockets ..)
  | unannounced hb => exact .inr hb
  | unwanted e q hb => exact .inr hb
  | opens e q p hb => exact .inr hb
  | nextPage e q hb => exact .inr hb

/-- Decisions change pockets in RUN alone. -/
theorem Work.Decides.pockets {v : Work} (h : w.Decides v) : v.pockets = w.pockets ∨ w.run.state = .run := by
  induction h with
  | @done w _ => exact .inl w.poised_same.2.2.2.2.1
  | @next w v f hc _ ih =>
    have hrun : w.poised.run = w.run := w.poised_same.1
    have hpockets : w.poised.pockets = w.pockets := w.poised_same.2.2.2.2.1
    have hreleased : (w.poised.release f).run = w.poised.run := ((Work.Released.refl _).release f).run
    rcases ih with he | he
    · rcases (Work.release_is hc).pockets with hp | hb
      · exact .inl (he.trans (hp.trans hpockets))
      · have hr := State.releasing_iff.1 (State.candidate_present (State.choose_candidate hc)).2
        exact .inr (by rw [← hrun]; exact hr.resolve_right hb)
    · exact .inr (by rw [← hrun, ← hreleased]; exact he)

/-- A pocket that no pack names and no purge holds is left alone as a step settles, or taken, EMPTY, in RUN. -/
theorem Work.settle_clear (h : w.plant.Clear p x) (hs : x.state ≠ .purging) (hr : x.purge ≠ .running) (b : State) :
    (w.settle b).pockets[p] = x
      ∨ x.state = .empty ∧ (w.settle b).run.state = .run ∧ (w.settle b).pockets[p].state = .collating := by
  have hclear : w.goOn.pockets[p] = x := (Work.goOn_clear h hs hr).pocket
  rw [Work.settle_closed]
  obtain ⟨y, hy⟩ : ∃ y, y = w.goOn := ⟨_, rfl⟩
  rw [← hy] at hclear ⊢
  have hreleased := (Work.Released.refl y).decideReleases
  have hdecided : y.decideReleases.pockets = y.pockets ∨ y.run.state = .run := by
    rcases y.decideReleases_is with ⟨-, hd⟩ | ⟨-, hd⟩
    · exact hd.pockets
    · exact .inl (by rw [hd])
  obtain ⟨z, hz⟩ : ∃ z, z = y.decideReleases := ⟨_, rfl⟩
  rw [← hz] at hreleased hdecided ⊢
  obtain ⟨bs, a, m, o, hc⟩ := z.closed_shape b
  have hpockets : (z.closed b).pockets = z.pockets := by rw [hc]
  have hrun : (z.closed b).run = z.run := by rw [hc]
  rw [hpockets, hrun, hreleased.run]
  rcases hreleased.pockets p with he | ⟨h1, h2⟩
  · exact .inl (he.trans hclear)
  · rcases hdecided with he | he
    · exact .inl (by rw [he]; exact hclear)
    · exact .inr ⟨by rw [← hclear]; exact h1, he, h2⟩

end

/-! ### FREE packs -/

/-- A cleared record stays cleared, whatever the operations of a step. -/
theorem Evolves.cleared {w v : Work} (h : Evolves w v) {k : Handle} (hk : w.pack k = PackRec.cleared) :
    v.pack k = PackRec.cleared := by
  have key {r r' : PackRec} (ht : PackTrace r r') (hr : r = PackRec.cleared) : r' = PackRec.cleared := by
    induction ht with
    | refl => exact hr
    | tail _ hs ih => exact hs.stays ih
  exact key (h.packs k) hk

/-! ### A delivery completed (R117) -/

theorem BinRec.flashed_eq (r : BinRec) (now : Time) :
    r.flashed now = { r with flash := if r.lampMode = .auto then some now else r.flash } := by
  unfold BinRec.flashed
  split <;> rfl

section
variable (w : Work) (d : DeliveryRec)

/-- The delivery record dropped, its pocket EMPTY and its bin filled, the pack's outcome aside. -/
def Work.binned : Work :=
  ((w.setBin d.bin ({ w.ret.bins[d.bin] with fill := w.ret.bins[d.bin].fill + d.units }.flashed w.now)).dropDelivery).setPocket
    d.pocket w.pockets[d.pocket].emptied

theorem Work.completeDelivery_eq : w.completeDelivery d
    = (if (w.pack d.handle).state = .delivering ∧ (w.pack d.handle).gen = d.gen then
        ((w.binned d).deliveredPack d.handle).notify
          (.packDelivered d.handle d.bin (w.pack d.handle).flags (w.pack d.handle).volumes)
      else w.binned d).judge := by
  have hpockets : ((w.setBin d.bin ({ w.ret.bins[d.bin] with
      fill := w.ret.bins[d.bin].fill + d.units }.flashed w.now)).dropDelivery).pockets = w.pockets := Work.setBin_pockets ..
  unfold Work.completeDelivery Work.binned
  dsimp only
  rw [hpockets]

theorem Work.binned_keeps : (w.binned d).reg = w.reg ∧ (w.binned d).drains = w.drains ∧ (w.binned d).notices = w.notices
    ∧ (w.binned d).report = w.report ∧ (w.binned d).run = w.run := by
  simp [Work.binned, Work.dropDelivery]

theorem Work.binned_ret : (w.binned d).ret = { w.ret with
    state := .idle, delivery := none, command := none
    bins := w.ret.bins.set d.bin ({ w.ret.bins[d.bin] with fill := w.ret.bins[d.bin].fill + d.units }.flashed w.now) } := by
  simp [Work.binned, Work.dropDelivery]

theorem Work.binned_pocket : (w.binned d).pockets[d.pocket] = w.pockets[d.pocket].emptied := by
  rw [Work.binned, Work.setPocket_pockets]
  exact Vector.getElem_set_self d.pocket.isLt

/-- The delivery of a pack is over: the record is free, out of its class queue, its markers and its notice formed. -/
structure Work.Delivered (v : Work) : Prop where
  pack : v.pack d.handle = PackRec.cleared
  others : ∀ k, k ≠ d.handle → v.pack k = w.pack k
  classQueue : ∀ c, v.classQueue c = if c = (w.pack d.handle).cls then
    (w.classQueue c).filter fun k => decide (k ≠ d.handle) else w.classQueue c
  markers : v.reg.markers = (unwatch d.handle w.reg.markers).filter fun m => !m.watch.isEmpty
  drains : v.drains = w.drains ++ (finishedBy d.handle w.reg.markers).map fun m => m.id
  notices : v.notices = w.notices ++ [.packDelivered d.handle d.bin (w.pack d.handle).flags (w.pack d.handle).volumes]

theorem Work.completeDelivery_of_delivering (hs : (w.pack d.handle).state = .delivering) (hg : (w.pack d.handle).gen = d.gen) :
    w.completeDelivery d = (((w.binned d).deliveredPack d.handle).notify
      (.packDelivered d.handle d.bin (w.pack d.handle).flags (w.pack d.handle).volumes)).judge := by
  rw [w.completeDelivery_eq, if_pos ⟨hs, hg⟩]

theorem Work.completeDelivery_delivered (hs : (w.pack d.handle).state = .delivering) (hg : (w.pack d.handle).gen = d.gen) :
    w.Delivered d (w.completeDelivery d) := by
  obtain ⟨hreg, hdrains, hnotices, -, -⟩ := w.binned_keeps d
  rw [w.completeDelivery_of_delivering d hs hg]
  obtain ⟨y, hy⟩ : ∃ y, y = w.binned d := ⟨_, rfl⟩
  rw [← hy] at hreg hdrains hnotices ⊢
  have hpack (k : Handle) : y.pack k = w.pack k := by rw [State.pack, State.pack, hreg]
  have hqueue (c : ClassId) : y.classQueue c = w.classQueue c := by rw [State.classQueue, State.classQueue, hreg]
  have hleft : (y.leaveClassQueue d.handle).reg.markers = w.reg.markers
      ∧ (y.leaveClassQueue d.handle).drains = w.drains ∧ (y.leaveClassQueue d.handle).notices = w.notices := by
    simp [Work.leaveClassQueue, hreg, hdrains, hnotices]
  obtain ⟨hm, hd, hn⟩ := hleft
  have hpackLeft (k : Handle) : (y.leaveClassQueue d.handle).pack k = w.pack k := by
    rw [← hpack]
    simp [Work.leaveClassQueue]
  refine ⟨?_, fun k hk => ?_, fun c => ?_, ?_, ?_, ?_⟩
  · exact (y.leaveClassQueue d.handle).freePack_pack_self d.handle
  · refine (congrArg (fun P : Plant => P.pack k) ((y.leaveClassQueue d.handle).freePack_plant d.handle)).trans ?_
    exact (Plant.setPack_pack_ne _ hk).trans (hpackLeft k)
  · refine ((y.leaveClassQueue d.handle).freePack_classQueue d.handle c).trans ?_
    refine (congrArg (fun P : Plant => P.queue c) (y.leaveClassQueue_plant d.handle)).trans ?_
    refine (Function.update_apply y.classQueue (y.pack d.handle).cls _ c).trans ?_
    rw [hpack]
    split
    next e => rw [e, ← hqueue]; exact congrArg _ (by rw [State.plant_pack, hpack]; rfl)
    · exact hqueue c
  · exact ((y.leaveClassQueue d.handle).freePack_markers d.handle).trans (by rw [hm])
  · exact ((y.leaveClassQueue d.handle).freePack_drains d.handle).trans (by rw [hm, hd])
  · have hnotify (x : Work) (r : OutRecord) : (x.notify r).judge.notices = x.notices ++ [r] := rfl
    rw [hnotify, Work.deliveredPack, ((y.leaveClassQueue d.handle).freePack_keeps d.handle).2.2.1, hn]

theorem Work.deliveredPack_keeps (y : Work) (k : Handle) : (y.deliveredPack k).ret = y.ret ∧ (y.deliveredPack k).run = y.run
    ∧ (y.deliveredPack k).report = y.report ∧ (y.deliveredPack k).plant.pocket = y.plant.pocket := by
  obtain ⟨-, h1, -, h2, h3⟩ := (y.leaveClassQueue k).freePack_keeps k
  have hplant := congrArg Plant.pocket ((y.leaveClassQueue k).freePack_plant k)
  rw [y.leaveClassQueue_plant] at hplant
  unfold Work.deliveredPack
  rw [h1, h2, h3, hplant]
  exact ⟨by simp [Work.leaveClassQueue], by simp [Work.leaveClassQueue], by simp [Work.leaveClassQueue], rfl⟩

/-- Whether or not its pack is still there, a delivery completed leaves the rest as the delivery's end leaves it. -/
theorem Work.completeDelivery_shape : ∃ y : Work, y.ret = (w.binned d).ret ∧ y.run = (w.binned d).run
    ∧ y.report = (w.binned d).report ∧ y.plant.pocket = (w.binned d).plant.pocket ∧ w.completeDelivery d = y.judge := by
  refine ⟨_, ?_, ?_, ?_, ?_, w.completeDelivery_eq d⟩ <;> obtain ⟨y, hy⟩ : ∃ y, y = w.binned d := ⟨_, rfl⟩ <;>
    rw [← hy] <;> split
  · exact (y.deliveredPack_keeps d.handle).1
  · rfl
  · exact (y.deliveredPack_keeps d.handle).2.1
  · rfl
  · exact (y.deliveredPack_keeps d.handle).2.2.1
  · rfl
  · rw [Work.notify_plant]
    exact (y.deliveredPack_keeps d.handle).2.2.2
  · rfl

theorem Work.judge_ret_keeps (w : Work) : w.judge.ret.bins = w.ret.bins ∧ w.judge.ret.state = w.ret.state
    ∧ w.judge.run = w.run ∧ w.judge.report = w.report := ⟨rfl, rfl, rfl, rfl⟩

theorem Work.completeDelivery_keeps : (w.completeDelivery d).ret.bins = w.ret.bins.set d.bin
      ({ w.ret.bins[d.bin] with fill := w.ret.bins[d.bin].fill + d.units }.flashed w.now)
    ∧ (w.completeDelivery d).run = w.run ∧ (w.completeDelivery d).report = w.report
    ∧ (w.completeDelivery d).plant.pocket = (w.binned d).plant.pocket := by
  obtain ⟨y, hret, hrun, hreport, hpocket, h⟩ := w.completeDelivery_shape d
  obtain ⟨-, -, -, hreportB, hrunB⟩ := w.binned_keeps d
  obtain ⟨h1, -, h2, h3⟩ := y.judge_ret_keeps
  rw [h, Work.judge_plant, hpocket, h1, h2, h3, hret, hrun, hreport, w.binned_ret d]
  exact ⟨rfl, hrunB, hreportB, rfl⟩

theorem Work.completeDelivery_idle : (w.completeDelivery d).ret.state = .idle := by
  obtain ⟨y, hret, -, -, -, h⟩ := w.completeDelivery_shape d
  rw [h, y.judge_ret_keeps.2.1, hret, w.binned_ret d]

/-- The pocket of a delivery completed is EMPTY, and no pack names it. -/
theorem Work.completeDelivery_clear (hp : w.toState.pocketsAgree) (hr : w.toState.returnAgrees) (hd : w.ret.delivery = some d) :
    (w.completeDelivery d).plant.Clear d.pocket w.pockets[d.pocket].emptied := by
  obtain ⟨hs, hg, hpocket⟩ := hr.1 d hd
  have h := w.completeDelivery_delivered d hs hg
  refine ⟨?_, fun k => ?_⟩
  · rw [(w.completeDelivery_keeps d).2.2.2]
    exact w.binned_pocket d
  · rw [State.plant_pack]
    by_cases hk : k = d.handle
    · rw [hk, h.pack]
      exact nofun
    · rw [h.others k hk]
      intro hkp
      have h1 := (hp.1 d.pocket k).2 hkp
      rw [(hp.1 d.pocket d.handle).2 hpocket] at h1
      exact hk (Option.some.inj h1).symm

end

end Sys2Proof.Machine

namespace Sys2Proof.Proofs

open Sys2Proof.Machine

/-- Settles O51: a delivery completed frees its pack and its pocket, and the settling may take the pocket. -/
theorem deliveriesEnd : Obligations.DeliveriesEnd := by
  unfold Obligations.DeliveriesEnd
  intro s
  refine ⟨fun hn => ⟨?_, ?_⟩, fun d hd => ⟨?_, fun hlt => ?_, fun hle hs => ?_⟩⟩
  · exact exec_stays rfl (by rw [Instr.comes, hn]; rfl)
  · exact exec_stays rfl (by rw [Instr.comes, State.lateDelivery, hn]; rfl)
  · obtain ⟨u, hu⟩ : ∃ u, u = (Work.of s).completeDelivery d := ⟨_, rfl⟩
    have hdel : s.ret.delivery = some d := State.delivery_of_inFlight hd
    have heff : Instr.ejectDone.effect (Work.of s) = u.settle s := by
      rw [hu]
      simp only [Instr.effect, Work.whenSome, Work.of_toState, hd]
    have hfrom : Work.From s u := hu ▸ (Work.From.of s).evolves ((Evolves.refl _).completeDelivery d) (Work.frame_completeDelivery _ _)
    obtain ⟨hbins, hrun, hreport, -⟩ := (Work.of s).completeDelivery_keeps d
    rw [← hu] at hbins hrun hreport
    have hkeeps : s.keepsBins u.toState [d.bin] := fun b hb => by
      have hne : d.bin ≠ b := fun h => hb (by rw [h]; exact List.mem_singleton_self b)
      rw [hbins]
      exact congrArg BinRec.unlit (Vector.getElem_set_ne d.bin.isLt b.isLt (Fin.val_ne_of_ne hne))
    refine ⟨_, exec_comes (c := .ejectDone) rfl (by rw [Instr.comes, hd]; rfl), ?_⟩
    rw [heff]
    obtain ⟨v, hv⟩ : ∃ v, v = u.settle s := ⟨_, rfl⟩
    have hfromV : Work.From s v := hv ▸ hfrom.settle s
    have hevolves : Evolves u v := hv ▸ (Evolves.refl u).settle s
    have hpacks := Work.settle_keepsPacks s u
    rw [← hv] at hpacks ⊢
    refine ⟨hfromV.surrounds, by rw [hv]; exact (hkeeps.settle s).finish, ?_, fun hq hp hr => ?_, fun hst hgen => ?_⟩
    · rw [Work.finish_ret, hv, Work.settle_keepsBins s u d.bin List.not_mem_nil, hbins]
      refine (congrArg BinRec.unlit (Vector.getElem_set_self d.bin.isLt)).trans ?_
      rw [BinRec.flashed_eq]
      rfl
    · have hclear : u.plant.Clear d.pocket s.pockets[d.pocket].emptied := hu ▸ (Work.of s).completeDelivery_clear d hp hr hdel
      rw [Work.finish_pockets, Work.finish_run, hv]
      exact (Work.settle_clear hclear nofun nofun s).imp_right And.right
    · have hdone : (Work.of s).Delivered d u := hu ▸ (Work.of s).completeDelivery_delivered d hst hgen
      refine ⟨?_, fun c => ?_, ?_, fun hs => ?_, ?_⟩
      · rw [Work.finish_pack]
        exact hevolves.cleared hdone.pack
      · rw [Work.finish_classQueue, State.classQueue, hpacks.1]
        exact hdone.classQueue c
      · rw [Work.finish_reg]
        exact hpacks.2.1.trans hdone.markers
      · have hstarting : u.starting = false := by rw [State.starting, hrun]; exact hs
        have hset : Settles u v := hv ▸ Settles.settle s u hstarting
        obtain ⟨x, hx, htold⟩ := Work.finish_order (w := v) (by
          rw [hv, Work.nonNotices_settle, Work.nonNotices, hdone.notices]
          rfl)
        refine ⟨x, hx, htold.trans ?_⟩
        have hreply : v.reply = none := by
          have hframe : v.frame = (Work.of s).frame := by rw [hv, Work.frame_settle, hu, Work.frame_completeDelivery]
          exact congrArg Frame.reply hframe
        rw [hfromV.told_eq, hset.drains, hset.report, hreport, hdone.drains, hreply]
        simp [Work.of, State.drainsOf, finishedBy, Function.comp_def]
      · have hnotices := hdone.notices
        obtain ⟨post, hpost⟩ := hevolves.notices
        rw [hnotices] at hpost
        exact hfromV.notifies hpost.symm
  · refine exec_stays rfl ?_
    rw [Instr.comes, State.lateDelivery, hd]
    dsimp only
    rw [State.ranOut, if_neg (by rw [decide_eq_true_eq]; exact Int.not_le.2 hlt)]
    rfl
  · obtain ⟨u, hu⟩ : ∃ u, u = (Work.of s).deliveryTimedOut := ⟨_, rfl⟩
    have heff : Instr.ejectTimeout.effect (Work.of s) = u.settle s := by rw [hu, Instr.effect]; rfl
    have hfrom : Work.From s u := hu ▸ (Work.From.of s).evolves (Evolves.refl _).deliveryTimedOut (Work.frame_deliveryTimedOut _)
    have hret : u.ret = { s.ret with state := .faulted, command := none } := by rw [hu]; rfl
    have hreg : u.reg = s.reg := by rw [hu]; rfl
    have hset : Settles u (u.settle s) := Settles.settle s u (by rw [hu]; exact hs)
    refine ⟨_, exec_comes (c := .ejectTimeout) rfl ?_, ?_⟩
    · rw [Instr.comes, State.lateDelivery, hd]
      dsimp only
      rw [State.ranOut, if_pos (by rw [decide_eq_true_eq]; exact hle)]
      rfl
    rw [heff]
    obtain ⟨h1, h2, h3⟩ := hset.returnBusy (by rw [hret]; exact nofun)
    rw [Work.finish_ret]
    refine ⟨(hfrom.settle s).surrounds, ((State.keepsPacks_of_reg hreg).settle s).finish,
      ((State.keepsBins_of_bins (by rw [hret]) []).settle s).finish, Work.finish_latched _ _ ?_, h1.trans (by rw [hret]), ?_,
      h3.trans (by rw [hret])⟩
    · refine ((Evolves.refl u).settle s).latched _ ?_
      rw [hu]
      exact State.latched_latch_self _ _
    · rw [h2, hret]
      exact State.delivery_of_inFlight hd

end Sys2Proof.Proofs
end

section
/-! SUPPORT. A delivery that is lost (R119): the settling of `Obligations.ClearReturnSettlesTheDelivery`. -/

namespace Sys2Proof.Machine

/-- A restart request leaves a pocket alone that no pack names. -/
theorem Work.requestRestart_clear {w : Work} {p : PocketId} {x : PocketRec} (h : w.plant.Clear p x) (k : Handle) (g : Nat)
    (c : RestartCause) : (w.requestRestart k g c).plant.Clear p x := by
  have hk : (w.pack k).pocket ≠ some p := h.unnamed k
  unfold Work.requestRestart
  split
  · split
    · rw [Work.judge_plant, Work.restartPack_plant]
      exact Plant.Clear.onPocket ((h.setPack (by exact hk)).setStapler _) hk _
    · rw [Work.judge_plant]
      cases hpocket : (w.pack k).pocket with
      | none =>
        rw [w.abandonPack_plant_free c hpocket]
        exact Plant.Clear.setPack (P := (w.plant.leaveQueue k).setStapler (w.stapler.without k)) ⟨h.pocket, h.unnamed⟩
          (by exact nofun)
      | some q =>
        rw [w.abandonPack_plant_held c (by rw [hpocket]; exact nofun)]
        exact Plant.Clear.onPocket (Plant.Clear.setPack (P := (w.plant.leaveQueue k).setStapler (w.stapler.without k))
          ⟨h.pocket, h.unnamed⟩ (by exact hk)) hk _
  · exact h

section
variable (w : Work) (d : DeliveryRec)

/-- The delivery record dropped, its pocket EMPTY, and its pack holding no pocket. -/
def Work.missing : Work :=
  ((w.setPocket d.pocket w.pockets[d.pocket].emptied).setPack d.handle { w.pack d.handle with pocket := none }).dropDelivery

theorem Work.loseDelivery_eq : w.loseDelivery d = (w.missing d).requestRestart d.handle d.gen .lost := by
  unfold Work.loseDelivery Work.missing
  dsimp only
  rw [Work.pack_setPocket]

theorem Work.missing_pack (k : Handle) : (w.missing d).pack k
    = if k = d.handle then { w.pack d.handle with pocket := none } else w.pack k := by
  unfold Work.missing Work.dropDelivery
  rw [Work.pack_setRet, Work.pack_setPack, Work.pack_setPocket]

theorem Work.missing_keeps : (w.missing d).notices = w.notices ∧ (w.missing d).run = w.run
    ∧ (w.missing d).ret.bins = w.ret.bins ∧ (w.missing d).ret.state = .idle ∧ (w.missing d).reg.markers = w.reg.markers
    ∧ (w.missing d).tables.settings = w.tables.settings := by
  simp [Work.missing, Work.dropDelivery]

theorem Work.missing_clear (hp : w.toState.pocketsAgree) (hr : w.toState.returnAgrees) (hd : w.ret.delivery = some d) :
    (w.missing d).plant.Clear d.pocket w.pockets[d.pocket].emptied := by
  obtain ⟨-, -, hpocket⟩ := hr.1 d hd
  refine ⟨?_, fun k => ?_⟩
  · unfold Work.missing Work.dropDelivery
    rw [Work.setRet_plant, Work.setPack_plant, Work.setPocket_plant]
    exact Plant.setPocket_pocket_self _ _
  · rw [State.plant_pack, Work.missing_pack]
    split
    · exact nofun
    next hk =>
      intro hkp
      have h1 := (hp.1 d.pocket k).2 hkp
      rw [(hp.1 d.pocket d.handle).2 hpocket] at h1
      exact hk (Option.some.inj h1).symm

end

/-- An abandonment that frees a pack finishes the markers that watched it alone. -/
theorem Work.requestRestart_markers {w : Work} {k : Handle} {g : Nat} (ht : w.takesRestart k g = true)
    (hp : (w.pack k).pocket = none) (hl : w.tables.settings.restartLimit ≤ (w.pack k).gen) (c : RestartCause) :
    (w.requestRestart k g c).reg.markers = (unwatch k w.reg.markers).filter fun m => !m.watch.isEmpty := by
  have hleave : (((w.leaveQueues k).notify (.packAbandoned k c)).latch .abandon).reg.markers = w.reg.markers :=
    (w.leaveQueues_keeps k).1
  unfold Work.requestRestart
  rw [if_pos ht, if_neg (Nat.not_lt.2 hl)]
  show (w.abandonPack k c).reg.markers = _
  unfold Work.abandonPack
  dsimp only
  rw [hp]
  dsimp only
  rw [Work.freePack_markers]
  exact congrArg (fun ms => (unwatch k ms).filter fun m => !m.watch.isEmpty) hleave

/-- A notice told behind a command taken is told behind all that was queued before it. -/
theorem State.notifies_of_taken {s T t : State} {c : Instr} (hT : T = s.takenFor c) {out : OutRecord}
    (h : T.notifies t out) : s.notifies t out := by
  obtain ⟨l, hl, htold, hout, hheld⟩ := s.takenFor_link c
  have hroom : T.link.hasNoticeRoom = s.link.hasNoticeRoom := by
    rw [hT, hl, LinkPort.hasNoticeRoom, LinkPort.hasNoticeRoom, LinkPort.hasRoom, LinkPort.hasRoom, hout, hheld]
  have hsame : T.told = s.told := by rw [hT, s.takenFor_told]
  rw [State.notifies, State.tells, hroom, hsame] at h
  exact h

/-- A FAULTED Return Unit's delivery settled by CLEAR RETURN. -/
theorem Work.clearReturn_settles {w u : Work} {d : DeliveryRec} {outcome : Byte} (hs : w.ret.state = .faulted)
    (hd : w.ret.delivery = some d) (hu : w.settleDelivery d outcome = some u) :
    w.clearReturn outcome = (u.settle w.toState).answer kindControl .accepted := by
  unfold Work.clearReturn
  rw [hs, hd]
  dsimp only
  rw [hu]

/-- What CLEAR RETURN makes of a delivery: the Return Unit IDLE, the delivery's pocket EMPTY with no pack naming it. -/
theorem Work.settleDelivery_done {w u : Work} {d : DeliveryRec} {outcome : Byte} (hu : w.settleDelivery d outcome = some u) :
    Evolves w u ∧ u.frame = w.frame ∧ u.run = w.run ∧ u.ret.state = .idle
      ∧ (w.toState.pocketsAgree → w.toState.returnAgrees → w.ret.delivery = some d →
        u.plant.Clear d.pocket w.pockets[d.pocket].emptied) := by
  rcases Work.settleDelivery_cases w hu with ⟨-, rfl⟩ | ⟨-, rfl⟩
  · obtain ⟨-, hrun, -, -⟩ := w.completeDelivery_keeps d
    exact ⟨(Evolves.refl w).completeDelivery d, w.frame_completeDelivery d, hrun, w.completeDelivery_idle d,
      w.completeDelivery_clear d⟩
  · have hspares := (Work.Spares.refl (w.missing d)).requestRestart d.handle d.gen .lost
    obtain ⟨-, hrun, -, hidle, -, -⟩ := w.missing_keeps d
    refine ⟨(Evolves.refl w).loseDelivery d, w.frame_loseDelivery d, ?_, ?_, fun hp hr hd => ?_⟩
    · rw [w.loseDelivery_eq, hspares.run, hrun]
    · rw [w.loseDelivery_eq, hspares.ret]
      exact hidle
    · rw [w.loseDelivery_eq]
      exact Work.requestRestart_clear (w.missing_clear d hp hr hd) _ _ _

/-- A delivery completed frees its pack, whatever the settling does, and tells Pack Delivered. -/
theorem Work.Delivered.settles {s : State} {u v : Work} {d : DeliveryRec} (h : (Work.of s).Delivered d u)
    (hs : Settles u v) (he : Evolves u v) : v.pack d.handle = PackRec.cleared ∧ d.handle ∉ v.classQueue (s.pack d.handle).cls
      ∧ v.reg.markers = s.markersWithout d.handle ∧ ∃ post, v.notices
        = .packDelivered d.handle d.bin (s.pack d.handle).flags (s.pack d.handle).volumes :: post := by
  obtain ⟨post, hpost⟩ := he.notices
  refine ⟨he.cleared h.pack, ?_, hs.markers.trans h.markers, post, by rw [← hpost, h.notices]; rfl⟩
  rw [State.classQueue, hs.queues]
  show d.handle ∉ u.classQueue (s.pack d.handle).cls
  rw [h.classQueue, if_pos (by rfl)]
  simp

/-- A delivery lost restarts its pack or abandons it, FREE, and forms its notice first (R119, R129). -/
theorem Work.loseDelivery_settles {s : State} {u v : Work} {d : DeliveryRec} (hu : u = (Work.of s).loseDelivery d)
    (hs : Settles u v) (he : Evolves u v) (hst : (s.pack d.handle).state = .delivering) (hg : (s.pack d.handle).gen = d.gen) :
    ((s.pack d.handle).gen < s.tables.settings.restartLimit →
        (v.pack d.handle).fixed = (s.pack d.handle).fixed ∧ (v.pack d.handle).gen = (s.pack d.handle).gen + 1
        ∧ ((v.pack d.handle).state = .announced ∨ (v.run.state = .run ∧ (v.pack d.handle).state = .opened))
        ∧ ∃ post, v.notices = .reprintRequest d.handle ((s.pack d.handle).gen + 1) .lost :: post)
      ∧ (s.tables.settings.restartLimit ≤ (s.pack d.handle).gen →
        v.pack d.handle = PackRec.cleared ∧ v.reg.markers = s.markersWithout d.handle
        ∧ ∃ post, v.notices = .packAbandoned d.handle .lost :: post) := by
  have hpack : ((Work.of s).missing d).pack d.handle = { s.pack d.handle with pocket := none } := by
    rw [Work.missing_pack, if_pos rfl]
    rfl
  obtain ⟨hn, -, -, -, hm, hset⟩ := (Work.of s).missing_keeps d
  rw [Work.loseDelivery_eq] at hu
  obtain ⟨x, hx⟩ : ∃ x, x = (Work.of s).missing d := ⟨_, rfl⟩
  rw [← hx] at hu hpack hn hm hset
  have htakes : x.takesRestart d.handle d.gen = true := by
    rw [State.takesRestart_iff, hpack]
    exact ⟨by rw [hst]; exact nofun, by rw [hst]; exact nofun, hg, fun _ => rfl⟩
  obtain ⟨hremade, hnotices⟩ := Work.requestRestart_remade (s := x.toState) htakes rfl rfl .lost
  have hmarkers := Work.requestRestart_markers htakes (by rw [hpack]) (c := .lost)
  have hgen : (x.pack d.handle).gen = (s.pack d.handle).gen := by rw [hpack]
  have hlimit : x.tables.settings.restartLimit = s.tables.settings.restartLimit := by rw [hset]; rfl
  rw [← hu, hn] at hnotices
  rw [← hu, hlimit, hgen] at hmarkers
  rw [← hu] at hremade
  obtain ⟨post, hpost⟩ := he.notices
  rw [hnotices] at hpost
  have hremakes := hremade.settles hs he
  rw [State.remakes, hlimit, hgen] at hremakes
  refine ⟨fun hlt => ?_, fun hle => ?_⟩
  · rw [if_pos hlt, Work.finish_pack, Work.finish_run] at hremakes
    obtain ⟨h1, h2, -, -, h3, -⟩ := hremakes
    refine ⟨h1.trans (by rw [hpack]; rfl), h2, h3 (by rw [hpack]), post, ?_⟩
    rw [← hpost, State.restartNotice, hlimit, hgen, if_pos hlt]
    rfl
  · rw [if_neg (Nat.not_lt.2 hle), Work.finish_pack] at hremakes
    obtain ⟨-, h1, -, -⟩ := hremakes
    refine ⟨h1 (by rw [hpack]), hs.markers.trans ((hmarkers hle).trans (by rw [hm]; rfl)), post, ?_⟩
    rw [← hpost, State.restartNotice, hlimit, hgen, if_neg (Nat.not_lt.2 hle)]
    rfl

end Sys2Proof.Machine

namespace Sys2Proof.Proofs

open Sys2Proof.Machine

/-- Settles O52: the outcome completes or loses the delivery, its pocket clear, and the settling may take the pocket. -/
theorem clearReturnSettlesTheDelivery : Obligations.ClearReturnSettlesTheDelivery := by
  unfold Obligations.ClearReturnSettlesTheDelivery
  intro outcome s ht refused
  obtain ⟨l, hl, -⟩ := s.takenFor_link (.clearReturn false outcome)
  obtain ⟨T, hT⟩ : ∃ T, T = s.takenFor (.clearReturn false outcome) := ⟨_, rfl⟩
  have hsame : T = { s with link := l } := hT.trans hl
  have heff : (Instr.clearReturn false outcome).effect (Work.of T) = (Work.of T).clearReturn outcome := by rw [Instr.effect]
  refine ⟨fun hs hf => exec_answers ht hf ?_, fun d hs hd => ⟨fun h1 h2 hf => exec_answers ht hf ?_, fun ho => ?_⟩⟩
  · rw [← hT, heff]
    unfold Work.clearReturn
    rw [Work.of_toState, hsame]
    cases h : s.ret.state with
    | faulted => exact absurd h hs
    | _ => rfl
  · rw [← hT, heff]
    unfold Work.clearReturn
    rw [Work.of_toState, hsame]
    dsimp only
    rw [hs, hd]
    dsimp only
    rw [Work.settleDelivery, if_neg h1, if_neg h2]
  · have hstarting : T.starting = false := by
      rw [State.starting, hT, State.takenFor_run]
      exact State.starting_of_takesCommand ht
    obtain ⟨u, hu⟩ : ∃ u, (Work.of T).settleDelivery d outcome = some u := by
      rcases ho with h | h
      · exact ⟨_, by rw [Work.settleDelivery, if_pos h]⟩
      · exact ⟨_, by rw [Work.settleDelivery, if_neg (by rw [h]; decide), if_pos h]⟩
    have hdel : T.ret.delivery = some d := by rw [hsame]; exact hd
    have hexec : exec (.clearReturn false outcome) s = .next ((u.settle T).answer kindControl .accepted).finish := by
      rw [exec_taken ht, ← hT, heff, Work.clearReturn_settles (by rw [hsame]; exact hs) hdel hu]
      rfl
    obtain ⟨hevolvesU, hframe, hrun, hidle, hclear⟩ := Work.settleDelivery_done hu
    have hfromV := ((Work.From.of T).evolves hevolvesU hframe).settle T
    have hset : Settles u (u.settle T) := Settles.settle T u (by rw [State.starting, hrun]; exact hstarting)
    have hevolves := (Evolves.refl u).settle T
    have hbins := Work.settle_keepsBins T u
    have hpocket := fun (hp : T.pocketsAgree) (hr : T.returnAgrees) => Work.settle_clear (hclear hp hr hdel) nofun nofun T
    refine ⟨_, hexec, by rw [← hT]; exact (hfromV.answer _ _ _ _).surrounds, hfromV.tells_taken hT, ?_⟩
    obtain ⟨v, hv⟩ : ∃ v, v = u.settle T := ⟨_, rfl⟩
    rw [← hv] at hset hevolves hbins hfromV hpocket ⊢
    have hnotifies {out : OutRecord} {post : List OutRecord} (hn : v.notices = out :: post) :
        s.notifies (v.answer kindControl .accepted).finish out :=
      State.notifies_of_taken hT ((hfromV.answer kindControl .accepted [] {}).notifies hn)
    have hpackT : T.pack = s.pack := by rw [hsame]; rfl
    have hretT : T.ret = s.ret := by rw [hsame]
    rw [Work.finish_ret, Work.finish_pack, Work.finish_classQueue, Work.finish_reg, Work.finish_pockets, Work.finish_run]
    refine ⟨hset.returnSound (by rw [hidle]; exact nofun), fun _ hp hr => ?_, fun h1 => ?_, fun h2 => ?_⟩
    · have h := hpocket (by rw [hsame]; exact hp) (by rw [hsame]; exact hr)
      rw [show (Work.of T).pockets = s.pockets by rw [Work.of_toState, hsame]] at h
      exact h.imp_right And.right
    · have hdone : u = (Work.of T).completeDelivery d := by
        rcases Work.settleDelivery_cases _ hu with ⟨-, h⟩ | ⟨h, -⟩
        · exact h
        · rw [h1] at h; cases h
      have hb := ((Work.of T).completeDelivery_keeps d).1
      rw [← hdone] at hb
      refine ⟨fun b hb' => ?_, ?_, fun hst hg => ?_⟩
      · have hne : d.bin ≠ b := fun h => hb' (by rw [h]; exact List.mem_singleton_self b)
        rw [Work.finish_ret]
        refine (hbins b List.not_mem_nil).trans ?_
        rw [hb, ← hretT]
        exact congrArg BinRec.unlit (Vector.getElem_set_ne d.bin.isLt b.isLt (Fin.val_ne_of_ne hne))
      · refine (congrArg BinRec.fill (hbins d.bin List.not_mem_nil)).trans ?_
        rw [hb, ← hretT]
        refine (congrArg BinRec.fill (congrArg BinRec.unlit (Vector.getElem_set_self d.bin.isLt))).trans ?_
        rw [BinRec.flashed_eq]
        rfl
      · rw [← hpackT] at hst hg ⊢
        have hdelivered : (Work.of T).Delivered d u := hdone ▸ (Work.of T).completeDelivery_delivered d hst hg
        obtain ⟨h1, h2, h3, post, h4⟩ := hdelivered.settles hset hevolves
        exact ⟨h1, h2, h3.trans (by rw [hsame]; rfl), hnotifies h4⟩
    · have hlost : u = (Work.of T).loseDelivery d := by
        rcases Work.settleDelivery_cases _ hu with ⟨h, -⟩ | ⟨-, h⟩
        · rw [h2] at h; cases h
        · exact h
      refine ⟨fun b _ => ?_, fun hst hg => ?_⟩
      · rw [Work.finish_ret]
        refine (hbins b List.not_mem_nil).trans ?_
        have hspares := (Work.Spares.refl ((Work.of T).missing d)).requestRestart d.handle d.gen .lost
        rw [hlost, Work.loseDelivery_eq, hspares.ret, ← hretT]
        exact congrArg (fun x : Vector BinRec 24 => x[b].unlit) ((Work.of T).missing_keeps d).2.2.1
      · rw [← hpackT] at hst hg ⊢
        rw [show s.tables = T.tables by rw [hsame]]
        obtain ⟨h1, h2⟩ := Work.loseDelivery_settles hlost hset hevolves hst hg
        refine ⟨fun hlt => ?_, fun hle => ?_⟩
        · obtain ⟨a1, a2, a3, post, a4⟩ := h1 hlt
          exact ⟨a1, a2, a3, hnotifies a4⟩
        · obtain ⟨a1, a2, post, a3⟩ := h2 hle
          exact ⟨a1, a2.trans (by rw [hsame]; rfl), hnotifies a3⟩

end Sys2Proof.Proofs
end

section
/-! SUPPORT. The end of a purge and of a start-up: the settling of `Obligations.PurgesEnd`. -/

namespace Sys2Proof.Machine

/-! ### The end of a start-up (R190) -/

section
variable {w : Work}

theorem Work.startPurge_state (w : Work) (q p : PocketId) :
    ((w.startPurge q).plant.pocket p).state = (w.plant.pocket p).state := by
  unfold Work.startPurge
  dsimp only
  split
  · rw [Work.setPocket_plant]
    by_cases h : p = q
    · rw [h, Plant.setPocket_pocket_self]
      rfl
    · rw [Plant.setPocket_pocket_ne _ h]
  · rfl

theorem Work.startPurges_anyPurging (w : Work) : w.startPurges.anyPurging = w.anyPurging := by
  have hstate (p : PocketId) : w.startPurges.pockets[p].state = w.pockets[p].state := by
    unfold Work.startPurges
    exact Work.each_same (fun x => (x.plant.pocket p).state) _ (fun x q => x.startPurge_state q p) _ w
  rw [State.anyPurging, State.anyPurging]
  simp only [hstate]

theorem Work.startPurges_report (w : Work) : w.startPurges.report = w.report := by
  unfold Work.startPurges
  refine Work.each_same (fun x => x.report) _ (fun x q => ?_) _ w
  unfold Work.startPurge
  dsimp only
  split
  · rw [Work.setPocket_report]
  · rfl

/-- The run state and the Start Report that the end of a start-up brings. -/
theorem State.startedState_eq (s : State) (kind : ResetKind) (b : Bool) : s.startedState kind b
    = if b || !s.pins.stopHigh then .halt .stop (startTarget kind s.run.straps.start)
      else (startTarget kind s.run.straps.start).state := by
  have ht : (if kind = .work ∨ s.run.straps.start = .standby then ResumeTarget.standby else .bypass)
      = startTarget kind s.run.straps.start := by
    cases kind <;> cases s.run.straps.start <;> rfl
  rw [State.startedState, ht]
  cases b <;> cases s.pins.stopHigh <;> rfl

theorem Work.leaveStarting_report (w : Work) (kind : ResetKind) (b : Bool) : (w.leaveStarting kind b).report
    = some ⟨w.run.straps, kind, runCodeOf (w.leaveStarting kind b).run.state⟩ := by
  have hstraps : (w.leaveStarting kind b).run.straps = w.run.straps := congrArg Frame.straps (w.frame_leaveStarting kind b)
  rw [← hstraps]
  unfold Work.leaveStarting
  rfl

/-- A start-up goes on while a pocket is PURGING, and ends with its Start Report where none is. -/
theorem Work.started_starting {kind : ResetKind} {b : Bool} (h : w.run.state = .starting kind b) :
    w.startPurges.endStartUp.run.state = (if w.anyPurging then w.run.state else w.startedState kind b)
      ∧ w.startPurges.endStartUp.report = if w.anyPurging then w.report
        else some ⟨w.run.straps, kind, runCodeOf (w.startedState kind b)⟩ := by
  have hrun := w.startPurges_run
  have hany := w.startPurges_anyPurging
  have hreport := w.startPurges_report
  have hpins : w.startPurges.pins = w.pins := Work.pins_of_frame (by simp)
  obtain ⟨x, hx⟩ : ∃ x, x = w.startPurges := ⟨_, rfl⟩
  rw [← hx] at hrun hany hreport hpins ⊢
  have hstate := x.runState_leaveStarting kind b
  rw [hpins, hrun, ← State.startedState_eq] at hstate
  unfold Work.endStartUp
  rw [hrun, h]
  dsimp only
  rw [hany]
  cases w.anyPurging with
  | true => exact ⟨by rw [if_pos rfl, hrun, if_pos rfl, h], by rw [if_pos rfl, hreport, if_pos rfl]⟩
  | false =>
    rw [if_neg Bool.false_ne_true, if_neg Bool.false_ne_true, if_neg Bool.false_ne_true, x.leaveStarting_report, hstate, hrun]
    exact ⟨rfl, rfl⟩

/-- The run state as a start-up ends is not STOPPING, and is RUN only where it was. -/
theorem State.startedState_not (s : State) (kind : ResetKind) (b : Bool) :
    (∀ o, s.startedState kind b ≠ .stopping o) ∧ s.startedState kind b ≠ .run := by
  rw [s.startedState_eq]
  split
  · exact ⟨nofun, nofun⟩
  · cases kind <;> cases s.run.straps.start <;> exact ⟨nofun, nofun⟩

theorem Work.started_run (w : Work) (h : w.startPurges.endStartUp.run.state = .run) : w.run.state = .run := by
  cases hs : w.run.state with
  | starting kind b =>
    rw [(Work.started_starting hs).1] at h
    split at h
    · rw [hs] at h; cases h
    · exact absurd h (w.startedState_not kind b).2
  | run => rfl
  | _ =>
    rw [Work.endStartUp_of_running (by rw [w.startPurges_starting, State.starting_eq, hs]; rfl), w.startPurges_run, hs] at h
    cases h

/-- What a settled step reports, and the run state it leaves, where it began in STARTING. -/
theorem Work.settle_starting {kind : ResetKind} {b : Bool} (h : w.run.state = .starting kind b) (x : State) :
    (w.settle x).run.state = (if w.anyPurging then w.run.state else w.startedState kind b)
      ∧ (w.settle x).report = if w.anyPurging then w.report
        else some ⟨w.run.straps, kind, runCodeOf (w.startedState kind b)⟩ := by
  obtain ⟨hrun, hreport⟩ := Work.started_starting h
  have hrest := Settles.rest x w
  refine ⟨?_, hrest.report.trans hreport⟩
  rcases hrest.run with hr | ⟨⟨o, ho⟩, -⟩
  · exact hr.trans hrun
  · rw [hrun] at ho
    split at ho
    · rw [h] at ho; cases ho
    · exact absurd ho ((w.startedState_not kind b).1 o)

theorem Work.queue_of_core {v : Work} (h : v.core = w.core) : v.stapler.queue = w.stapler.queue := congrArg Core.queue h

theorem Work.settle_report (h : w.starting = false) (x : State) : (w.settle x).report = w.report :=
  (Settles.settle x w h).report

end

/-! ### A purge that ends (R15, R88, R89) -/

/-- The purge of pocket `p` is over, its record `r`: the pack it held is ANNOUNCED again or FREE. -/
structure Work.Purged (w : Work) (p : PocketId) (r : PocketRec) (u : Work) : Prop where
  clear : u.plant.Clear p r
  elsewhere : ∀ q, q ≠ p → u.pockets[q] = w.pockets[q]
  disposed : ∀ k, w.pockets[p].pack = some k → (w.pack k).state = .disposing → u.pack k = PackRec.cleared
    ∧ u.reg.markers = ((unwatch k w.reg.markers).filter fun m => !m.watch.isEmpty)
    ∧ u.drains = w.drains ++ (finishedBy k w.reg.markers).map fun m => m.id
  kept : (∀ k, w.pockets[p].pack = some k → (w.pack k).state ≠ .disposing) → u.reg.markers = w.reg.markers ∧ u.drains = w.drains
  restarting : ∀ k, w.pockets[p].pack = some k → (w.pack k).state = .restarting →
    u.pack k = { w.pack k with state := .announced, pocket := none }
  stapler : u.stapler = w.stapler
  bins : u.ret.bins = w.ret.bins
  notices : u.notices = w.notices
  report : u.report = w.report
  run : u.run = w.run

theorem Evolves.endPurge {a w : Work} (h : Evolves a w) (p : PocketId) (r : PocketRec) : Evolves a (w.endPurge p r) := by
  unfold Work.endPurge
  dsimp only
  split
  · exact h.setPocket p r
  · exact (h.setPocket p r).purgeEnded _

theorem Work.endPurge_purged {w : Work} {p : PocketId} (hp : w.toState.pocketsAgree) (hs : w.pockets[p].state = .purging)
    (r : PocketRec) : w.Purged p r (w.endPurge p r) := by
  have hpocket : (w.setPocket p r).pockets[p] = r := by
    rw [Work.setPocket_pockets]
    exact Vector.getElem_set_self p.isLt
  have hother (q : PocketId) (hq : q ≠ p) : (w.setPocket p r).pockets[q] = w.pockets[q] := by
    rw [Work.setPocket_pockets]
    exact Vector.getElem_set_ne p.isLt q.isLt (Fin.val_ne_of_ne (Ne.symm hq))
  unfold Work.endPurge
  dsimp only
  split
  next hn =>
    refine ⟨⟨hpocket, fun k hk => ?_⟩, hother, fun k hk => ?_, fun _ => ⟨by simp, by simp⟩, fun k hk => ?_, by simp, by simp,
      by simp, by simp, by simp⟩
    · rw [State.plant_pack, Work.pack_setPocket] at hk
      rw [(hp.1 p k).2 hk] at hn
      cases hn
    · rw [hn] at hk; cases hk
    · rw [hn] at hk; cases hk
  next k hk =>
    have hhoused := (hp.2 k).2 p ((hp.1 p k).1 hk)
    have hstate : (w.pack k).state = .restarting ∨ (w.pack k).state = .disposing := by
      rw [hs] at hhoused
      cases h : (w.pack k).state <;> rw [h] at hhoused <;> simp [PackState.housedBy] at hhoused ⊢
    have hunnamed {y : Work} {q : PackRec} (hy : y.plant = (w.plant.setPocket p r).setPack k q) (hq : q.pocket = none) :
        y.plant.Clear p r ∧ ∀ q, q ≠ p → y.pockets[q] = w.pockets[q] := by
      have hpockets := congrArg Plant.pocket hy
      refine ⟨⟨?_, fun j hj => ?_⟩, fun q hq => (congrFun hpockets q).trans (Plant.setPocket_pocket_ne _ hq)⟩
      · rw [hy]
        exact Plant.setPocket_pocket_self _ _
      · rw [hy] at hj
        by_cases e : j = k
        · rw [e, Plant.setPack_pack_self, hq] at hj; cases hj
        · rw [Plant.setPack_pack_ne _ e] at hj
          have h1 := (hp.1 p j).2 hj
          rw [hk] at h1
          exact e (Option.some.inj h1).symm
    have hself {j : Handle} (hj : w.pockets[p].pack = some j) : j = k := by rw [hk] at hj; exact (Option.some.inj hj).symm
    unfold Work.purgeEnded
    dsimp only
    rw [Work.pack_setPocket]
    rcases hstate with h | h <;> rw [h] <;> dsimp only
    · obtain ⟨hclear, helse⟩ := hunnamed (y := (w.setPocket p r).setPack k { w.pack k with state := .announced, pocket := none })
        (by rw [Work.setPack_plant, Work.setPocket_plant]) rfl
      refine ⟨hclear, helse, fun j hj hd => ?_, fun _ => ⟨by simp, by simp⟩, fun j hj _ => ?_, by simp, by simp, by simp,
        by simp, by simp⟩
      · rw [hself hj, h] at hd; cases hd
      · rw [hself hj, Work.pack_setPack, if_pos rfl]
    · obtain ⟨hstapler, hret, hnotices, hreport, hrun⟩ := (w.setPocket p r).freePack_keeps k
      obtain ⟨hclear, helse⟩ := hunnamed (y := (w.setPocket p r).freePack k) (q := PackRec.cleared)
        (by rw [Work.freePack_plant, Work.setPocket_plant]) rfl
      refine ⟨hclear, helse, fun j hj _ => ?_, fun hn => absurd h (hn k hk), fun j hj hr => ?_, ?_, ?_, ?_, ?_, ?_⟩
      · rw [hself hj, Work.freePack_pack_self, Work.freePack_markers, Work.freePack_drains]
        exact ⟨rfl, by simp, by simp⟩
      · rw [hself hj, h] at hr; cases hr
      · rw [hstapler]; simp
      · rw [hret]; simp
      · rw [hnotices]; simp
      · rw [hreport]; simp
      · rw [hrun]; simp

theorem Work.Purged.latch {w u : Work} {p : PocketId} {r : PocketRec} (h : w.Purged p r u) (c : Cause) :
    w.Purged p r (u.latch c) :=
  ⟨h.clear, h.elsewhere, h.disposed, h.kept, h.restarting, h.stapler, h.bins, h.notices, h.report, h.run⟩

section
variable {s : State} {p : PocketId} {r : PocketRec} {u : Work}

/-- With a purge over, some pocket is PURGING where another one was. -/
theorem Work.Purged.anyPurging (h : (Work.of s).Purged p r u) (hr : r.state ≠ .purging) :
    u.anyPurging = !allPockets.all fun q => decide (q = p) || decide (s.pockets[q].state ≠ .purging) := by
  rw [State.anyPurging, List.not_all_eq_any_not]
  refine congrArg (List.any allPockets) (funext fun q => ?_)
  by_cases hq : q = p
  · have hp : u.pockets[p] = r := h.clear.pocket
    rw [hq, hp]
    simp [hr]
  · rw [h.elsewhere q hq]
    rw [decide_eq_false hq, Bool.false_or, decide_not, Bool.not_not]
    rfl

/-- The Start Report and the run state of a step in which a purge ended. -/
theorem Work.Purged.starting (h : (Work.of s).Purged p r u) (hf : Work.From s u) (hr : r.state ≠ .purging) {kind : ResetKind}
    {b : Bool} (hs : s.run.state = .starting kind b) :
    (u.settle s).run.state = (if (allPockets.all fun q => decide (q = p) || decide (s.pockets[q].state ≠ .purging)) then
        s.startedState kind b else s.run.state)
      ∧ ((u.settle s).report.map Report.record).toList
        = if (allPockets.all fun q => decide (q = p) || decide (s.pockets[q].state ≠ .purging)) then
          [.startReport s.run.straps kind (runCodeOf (s.startedState kind b))] else [] := by
  have hrun : u.run = s.run := h.run
  obtain ⟨h1, h2⟩ := Work.settle_starting (w := u) (by rw [hrun]; exact hs) s
  have hstarted : u.startedState kind b = s.startedState kind b := by
    rw [State.startedState, State.startedState, hrun, hf.pins_eq]
  rw [h1, h2, h.anyPurging hr, hstarted, hrun, h.report]
  cases (allPockets.all fun q => decide (q = p) || decide (s.pockets[q].state ≠ .purging)) <;> exact ⟨rfl, rfl⟩

/-- The pack of a purge that ended is ANNOUNCED again, or opened in the same step in RUN. -/
theorem Work.Purged.announced (h : (Work.of s).Purged p r u) (hq : s.stapleQueueSound) {k : Handle}
    (hk : s.pockets[p].pack = some k) (hs : (s.pack k).state = .restarting) :
    (u.settle s).pack k = { s.pack k with state := .announced, pocket := none }
      ∨ (s.run.state = .run ∧ ((u.settle s).pack k).state = .opened ∧ ((u.settle s).pack k).gen = (s.pack k).gen) := by
  have hself : u.pack k = { s.pack k with state := .announced, pocket := none } := h.restarting k hk hs
  have hstarted := u.started_pack k
  rw [hself] at hstarted
  have hqueue : u.startPurges.endStartUp.stapler.queue = s.stapler.queue :=
    (Work.queue_of_core u.core_started).trans (congrArg Stapler.queue h.stapler)
  have hrest := Settles.rest s u
  have hrun := u.started_run
  obtain ⟨x, hx⟩ : ∃ x, x = u.startPurges.endStartUp := ⟨_, rfl⟩
  obtain ⟨v, hv⟩ : ∃ v, v = u.settle s := ⟨_, rfl⟩
  rw [← hx] at hstarted hqueue hrest hrun
  rw [← hv] at hrest ⊢
  have hnot : k ∉ x.stapler.queue := by
    rw [hqueue]
    exact hq.not_mem (by rw [hs]; exact nofun) (by rw [hs]; exact nofun)
  rcases hrest.waits k hnot (by rw [hstarted]) with hw | ⟨ho, hr⟩
  · exact .inl (hw.trans hstarted)
  · refine .inr ⟨?_, ho, ?_⟩
    · have := hrun hr
      rwa [h.run] at this
    · rw [(hrest.fixed k).2.1, hstarted]

end

end Sys2Proof.Machine

namespace Sys2Proof.Proofs

open Sys2Proof.Machine

/-- Settles O48: the purge leaves its pocket to no pack, and the settling may take the pocket and end a start-up. -/
theorem purgesEnd : Obligations.PurgesEnd := by
  unfold Obligations.PurgesEnd
  intro p s hq hp disposed last report ended running
  have hends {r : PocketRec} {u : Work} (h : (Work.of s).Purged p r u) (hf : Work.From s u) (hr : r.state ≠ .purging)
      (hreply : u.reply = none) : ended (u.settle s).finish := by
    have hstarts := fun kind b hs => h.starting hf hr (kind := kind) (b := b) hs
    have hagain := fun k => h.announced hq (k := k)
    have hpacks := Work.settle_keepsPacks s u
    have hdrains := (Work.settle_arb s u).2.2
    have hevolves := (Evolves.refl u).settle s
    have hfromV := hf.settle s
    have hnon : (u.settle s).nonNotices = [] := by rw [Work.nonNotices_settle, Work.nonNotices, h.notices]; rfl
    have hreplyV : (u.settle s).reply = none := by rw [Work.reply_of_frame (u.frame_settle s), hreply]
    have hreportV : ((u.settle s).report.map Report.record).toList = report := by
      cases hs : s.run.state with
      | starting kind b =>
        refine (hstarts kind b hs).2.trans ?_
        simp only [report, last, hs]
      | _ =>
        rw [Work.settle_report (by rw [State.starting_eq, h.run, Work.of_toState, hs]; rfl), h.report,
          show report = [] by simp only [report, hs]]
        rfl
    obtain ⟨v, hv⟩ : ∃ v, v = u.settle s := ⟨_, rfl⟩
    rw [← hv] at hstarts hagain hpacks hdrains hevolves hfromV hnon hreplyV hreportV ⊢
    obtain ⟨x, hx, htold⟩ := Work.finish_order hnon
    rw [hfromV.told_eq, hreplyV, hdrains, hreportV] at htold
    refine ⟨fun k hk => ?_, fun hk => ?_, fun k hk hs => ?_, fun kind b hs => ?_⟩
    · obtain ⟨h1, h2, h3⟩ := h.disposed k hk.1 hk.2
      rw [Work.finish_pack, Work.finish_reg]
      refine ⟨hevolves.cleared h1, hpacks.2.1.trans h2, x, hx, htold.trans ?_⟩
      rw [h3]
      simp [Work.of, State.drainsOf, finishedBy, Function.comp_def]
    · obtain ⟨h1, h2⟩ := h.kept fun k hk' hd => hk k ⟨hk', hd⟩
      rw [Work.finish_reg]
      refine ⟨hpacks.2.1.trans h1, x, hx, htold.trans ?_⟩
      rw [h2]
      simp [Work.of]
    · rw [Work.finish_pack]
      exact hagain k hk hs
    · rw [Work.finish_run]
      exact (hstarts kind b hs).1
  have hdone : (Instr.purgeDone p).effect (Work.of s) = ((Work.of s).endPurge p s.pockets[p].emptied).settle s := by
    rw [Instr.effect]; rfl
  have hfrom (r : PocketRec) : Work.From s ((Work.of s).endPurge p r) :=
    (Work.From.of s).evolves ((Evolves.refl _).endPurge p r) (Work.frame_endPurge _ _ _)
  have hreply (r : PocketRec) : ((Work.of s).endPurge p r).reply = none :=
    Work.reply_of_frame ((Work.of s).frame_endPurge p r)
  refine ⟨fun hn => ⟨exec_stays rfl (decide_eq_false hn), exec_stays rfl ?_⟩,
    fun hrunning => ⟨?_, fun hlt => exec_stays rfl ?_, fun hle => ?_⟩⟩
  · rw [Instr.comes, State.purgeRanOut, State.purgeRunning, decide_eq_false hn, Bool.false_and]
  · have hpurged := Work.endPurge_purged (w := Work.of s) hp hrunning.1 s.pockets[p].emptied
    have hf := hfrom s.pockets[p].emptied
    have hr := hreply s.pockets[p].emptied
    refine ⟨_, exec_comes (c := .purgeDone p) rfl (decide_eq_true hrunning), ?_⟩
    rw [hdone]
    obtain ⟨u, hu⟩ : ∃ u, u = (Work.of s).endPurge p s.pockets[p].emptied := ⟨_, rfl⟩
    rw [← hu] at hpurged hf hr ⊢
    refine ⟨(hf.settle s).surrounds, ((State.keepsBins_of_bins hpurged.bins []).settle s).finish, ?_,
      hends hpurged hf nofun hr⟩
    rw [Work.finish_pockets, Work.finish_run]
    exact (Work.settle_clear hpurged.clear nofun nofun s).imp_right And.right
  · rw [Instr.comes, State.purgeRanOut, State.ranOut, decide_eq_false (Int.not_le.2 hlt), Bool.and_false]
  · have hpurged := (Work.endPurge_purged (w := Work.of s) hp hrunning.1 s.pockets[p].timedOut).latch .mechFault
    have hf := (hfrom s.pockets[p].timedOut).evolves ((Evolves.refl _).latch .mechFault) (Work.frame_latch _ _)
    have hr : (((Work.of s).endPurge p s.pockets[p].timedOut).latch .mechFault).reply = none := hreply s.pockets[p].timedOut
    have hlatched := State.latched_latch_self ((Work.of s).endPurge p s.pockets[p].timedOut) .mechFault
    refine ⟨_, exec_comes (c := .purgeTimeout p) rfl ?_, ?_⟩
    · rw [Instr.comes, State.purgeRanOut, State.ranOut, decide_eq_true hle, Bool.and_true]
      exact decide_eq_true hrunning
    have heff : (Instr.purgeTimeout p).effect (Work.of s)
        = (((Work.of s).endPurge p s.pockets[p].timedOut).latch .mechFault).settle s := by rw [Instr.effect]; rfl
    rw [heff]
    obtain ⟨u, hu⟩ : ∃ u, u = ((Work.of s).endPurge p s.pockets[p].timedOut).latch .mechFault := ⟨_, rfl⟩
    rw [← hu] at hpurged hf hr hlatched ⊢
    refine ⟨(hf.settle s).surrounds, ((State.keepsBins_of_bins hpurged.bins []).settle s).finish, ?_,
      Work.finish_latched _ _ (((Evolves.refl u).settle s).latched _ hlatched), hends hpurged hf nofun hr⟩
    rw [Work.finish_pockets]
    rcases Work.settle_clear hpurged.clear nofun nofun s with h | ⟨h, -⟩
    · exact h
    · cases h

end Sys2Proof.Proofs
end

section
/-! SUPPORT. The Stapler as a step settles (`Work.settle_goesOn`): it takes up the head of its queue, and the pack and the
pocket of the volume it starts are left alone by what follows. -/

namespace Sys2Proof.Machine

/-! ### A pack and its pocket left alone -/

namespace Plant

/-- From `P` to `Q` pack `k` and its pocket are left alone, and every pack keeps the pocket it names. -/
structure Leaves (P : Plant) (k : Handle) (Q : Plant) : Prop where
  pack : Q.pack k = P.pack k
  pocket : ∀ p, (P.pack k).pocket = some p → Q.pocket p = P.pocket p
  names : ∀ j, (Q.pack j).pocket = (P.pack j).pocket

/-- No other pack names the pocket of pack `k`. -/
def Sole (P : Plant) (k : Handle) : Prop := ∀ j p, (P.pack k).pocket = some p → (P.pack j).pocket = some p → j = k

variable {P Q R : Plant} {k : Handle}

theorem Leaves.refl (P : Plant) (k : Handle) : P.Leaves k P := ⟨rfl, fun _ _ => rfl, fun _ => rfl⟩

theorem Leaves.trans (h : P.Leaves k Q) (g : Q.Leaves k R) : P.Leaves k R where
  pack := g.pack.trans h.pack
  pocket p hp := (g.pocket p ((h.names k).trans hp)).trans (h.pocket p hp)
  names j := (g.names j).trans (h.names j)

theorem Sole.of (h : P.Sole k) (hn : ∀ j, (Q.pack j).pocket = (P.pack j).pocket) : Q.Sole k :=
  fun j p hk hj => h j p ((hn k).symm.trans hk) ((hn j).symm.trans hj)

theorem Leaves.setPack_ne (h : P.Leaves k Q) {j : Handle} (hj : j ≠ k) {r : PackRec} (hr : r.pocket = (Q.pack j).pocket) :
    P.Leaves k (Q.setPack j r) := by
  refine h.trans ⟨setPack_pack_ne _ (Ne.symm hj), fun _ _ => rfl, fun i => ?_⟩
  by_cases e : i = j
  · rw [e, setPack_pack_self, hr]
  · rw [setPack_pack_ne _ e]

theorem Leaves.setStapler (h : P.Leaves k Q) (r : Stapler) : P.Leaves k (Q.setStapler r) := ⟨h.pack, h.pocket, h.names⟩

theorem Leaves.onPocket_ne (h : P.Leaves k Q) (hs : P.Sole k) {j : Handle} (hj : j ≠ k) {o : Option PocketId}
    (ho : o = (Q.pack j).pocket) (f : PocketRec → PocketRec) : P.Leaves k (Q.onPocket o f) := by
  subst ho
  have hpack : (Q.onPocket (Q.pack j).pocket f).pack = Q.pack := onPocket_pack ..
  refine ⟨by rw [hpack, h.pack], fun p hp => ?_, fun i => by rw [hpack, h.names i]⟩
  have hne : (Q.pack j).pocket ≠ some p := fun e => hj (hs j p hp ((h.names j).symm.trans e))
  cases hq : (Q.pack j).pocket with
  | none => exact h.pocket p hp
  | some q =>
    rw [hq] at hne
    exact (setPocket_pocket_ne _ fun e => hne (by rw [e])).trans (h.pocket p hp)

end Plant

section
variable {w : Work} {k : Handle}

theorem State.sole_of_agree {s : State} (h : s.pocketsAgree) (k : Handle) : s.plant.Sole k := fun j p hk hj => by
  have h1 := (h.1 p k).2 hk
  rw [(h.1 p j).2 hj] at h1
  exact Option.some.inj h1

/-- Volumes of other packs leave pack `k` and its pocket alone. -/
theorem Work.finishPack_leaves (hs : w.plant.Sole k) {j : Handle} (hj : j ≠ k) (f : PackFlags) :
    w.plant.Leaves k (w.finishPack j f).plant := by
  rw [Work.finishPack_plant]
  have hstapler := (Plant.Leaves.refl w.plant k).setStapler { w.stapler with
    queue := w.stapler.queue.filter fun i => decide (i ≠ j), state := .idle, work := none, command := none }
  refine Plant.Leaves.setPack_ne (hstapler.onPocket_ne hs hj rfl _) hj ?_
  rw [Plant.onPocket_pack]
  rfl

theorem Work.startVolume_leaves (hs : w.plant.Sole k) (m : WorkRec) (hm : m.handle ≠ k) :
    w.plant.Leaves k (w.startVolume m).plant := by
  by_cases hn : w.stapler.remaining < patternCount (w.pack m.handle).snap.pattern
  · rw [show w.startVolume m = w.shortVolume m from if_pos hn]
    unfold Work.shortVolume
    dsimp only
    split
    · exact (Plant.Leaves.refl w.plant k).setStapler _
    · exact Work.finishPack_leaves (w := w.latch .staplesOut) hs hm _
  · rw [w.startVolume_plant m (Nat.not_lt.1 hn)]
    refine ((Plant.Leaves.setPack_ne (.refl w.plant k) hm (by rfl)).onPocket_ne hs hm ?_ _).setStapler _
    rw [Plant.setPack_pack_self]

theorem Work.takeUp_leaves (hs : w.plant.Sole k) (hk : k ∉ w.stapler.queue) (n : Nat) :
    w.plant.Leaves k (Work.takeUp n w).plant ∧ k ∉ (Work.takeUp n w).stapler.queue := by
  induction n generalizing w with
  | zero => exact ⟨.refl _ k, hk⟩
  | succ n ih =>
    unfold Work.takeUp
    split
    · exact ⟨.refl _ k, hk⟩
    next j rest hq =>
      split
      next hc =>
        have hi := of_decide_eq_true (Bool.and_eq_true_iff.1 hc).1
        have hj : (w.workFor j).handle ∈ w.stapler.queue := by
          rw [State.workFor_handle, hq]
          exact List.mem_cons_self
        have hne : (w.workFor j).handle ≠ k := fun e => hk (e ▸ hj)
        have hleaves := w.startVolume_leaves hs (w.workFor j) hne
        have hqueue := ((Settles.refl w).startVolume (w.workFor j) hi hj).stapleQueue
        obtain ⟨h1, h2⟩ := ih (hs.of hleaves.names) fun h => hk (hqueue k h)
        exact ⟨hleaves.trans h1, h2⟩
      · exact ⟨.refl _ k, hk⟩

/-- A delivery starts for a READY pack: pack `k` and its pocket are left alone, or it is the one. -/
theorem Work.startDelivery_leaves (hs : w.plant.Sole k) : w.plant.Leaves k w.startDelivery.plant
    ∨ (w.pack k).state = .ready ∧ w.startDelivery.pack k = { w.pack k with state := .delivering }
      ∧ ∀ p, (w.pack k).pocket = some p → w.startDelivery.pockets[p] = { w.pockets[p] with state := .ejecting } := by
  unfold Work.startDelivery
  split
  · split
    · exact .inl (.refl _ k)
    next j hj =>
      split
      next q b hq hb =>
        have hready := State.eligible_ready (List.find?_some hj)
        have hpack (i : Handle) := w.beginDelivery_pack j q b i
        have hpocket := w.beginDelivery_pocket j q b
        by_cases e : j = k
        · rw [e] at hready hq hpack hpocket
          refine .inr ⟨hready, ?_, fun p hp => ?_⟩
          · rw [e, hpack, if_pos rfl]
          · rw [hq] at hp
            cases hp
            rw [e]
            exact (congrFun hpocket q).trans (Plant.setPocket_pocket_self _ _)
        · refine .inl ⟨?_, fun p hp => ?_, fun i => ?_⟩
          · rw [State.plant_pack, hpack, if_neg (Ne.symm e)]
            rfl
          · have hne : p ≠ q := fun e' => e (hs j p hp (hq.trans (by rw [e'])))
            rw [hpocket, Plant.setPocket_pocket_ne _ hne]
          · rw [State.plant_pack, hpack]
            split
            next h => rw [h]; rfl
            · rfl
      · exact .inl (.refl _ k)
  · exact .inl (.refl _ k)

/-- Release decisions leave a pack alone that is neither ANNOUNCED nor OPEN, and a pocket that is not EMPTY. -/
theorem Work.closed_leaves (w : Work) (b : State) (ha : (w.pack k).state ≠ .announced) (ho : (w.pack k).state ≠ .opened) :
    (w.decideReleases.closed b).pack k = w.pack k ∧ (w.decideReleases.closed b).stapler = w.stapler
      ∧ ∀ p : PocketId, w.pockets[p].state ≠ .empty → (w.decideReleases.closed b).pockets[p] = w.pockets[p] := by
  have hreleased := (Work.Released.refl w).decideReleases
  obtain ⟨d, hd⟩ : ∃ d, d = w.decideReleases := ⟨_, rfl⟩
  rw [← hd] at hreleased ⊢
  obtain ⟨bs, a, m, o, hc⟩ := d.closed_shape b
  have hreg : (d.closed b).reg = d.reg := by rw [hc]
  have hpockets : (d.closed b).pockets = d.pockets := by rw [hc]
  have hstapler : (d.closed b).stapler = d.stapler := by rw [hc]
  refine ⟨?_, hstapler.trans hreleased.stapler, fun p hp => ?_⟩
  · rw [State.pack, hreg]
    rcases hreleased.packs k with h | ⟨h | h, -⟩
    · exact h
    · exact absurd h ha
    · exact absurd h ho
  · rw [hpockets]
    rcases hreleased.pockets p with h | ⟨h, -⟩
    · exact h
    · exact absurd h hp

/-- What follows the Stapler's work in a step that settles. -/
def Work.rest (w : Work) (b : State) : Work := w.startDelivery.endStopping.decideReleases.closed b

theorem Work.settle_rest (w : Work) (b : State) : w.settle b = w.startPurges.endStartUp.judge.staple.rest b := by
  rw [Work.settle_closed, Work.goOn, Work.rest]

theorem Work.rest_stapler (w : Work) (b : State) : (w.rest b).stapler = w.stapler := by
  have hstop : w.startDelivery.endStopping.stapler = w.startDelivery.stapler :=
    congrArg Plant.stapler w.startDelivery.endStopping_plant
  obtain ⟨y, hy⟩ : ∃ y, y = w.startDelivery.endStopping := ⟨_, rfl⟩
  rw [Work.rest, ← hy]
  rw [← hy] at hstop
  have hreleased := (Work.Released.refl y).decideReleases.stapler
  obtain ⟨bs, a, m, o, hc⟩ := y.decideReleases.closed_shape b
  have hclosed : (y.decideReleases.closed b).stapler = y.decideReleases.stapler := by rw [hc]
  rw [hclosed, hreleased, hstop, w.startDelivery_stapler]

theorem Evolves.rest (w : Work) (b : State) : Evolves w (w.rest b) := by
  have h := (((Evolves.refl w).startDelivery.endStopping).decideReleases.timeWaits.timeBlock.judgeBinFull b).driveLamps
  exact h

/-- What follows the Stapler's work leaves a pack alone that is COMPLETE, STAPLING or READY, with its pocket, but that the
delivery of a READY one may start. -/
theorem Work.rest_leaves (hs : w.plant.Sole k) (b : State) (hk : (w.pack k).state = .complete ∨ (w.pack k).state = .stapling
      ∨ (w.pack k).state = .ready) (hp : ∀ p, (w.pack k).pocket = some p → w.pockets[p].state ≠ .empty) :
    ((w.rest b).pack k = w.pack k ∧ ∀ p, (w.pack k).pocket = some p → (w.rest b).pockets[p] = w.pockets[p])
      ∨ (w.pack k).state = .ready ∧ (w.rest b).pack k = { w.pack k with state := .delivering }
        ∧ ∀ p, (w.pack k).pocket = some p → (w.rest b).pockets[p] = { w.pockets[p] with state := .ejecting } := by
  have hplant := w.startDelivery.endStopping_plant
  have hdelivery := w.startDelivery_leaves hs
  have hclosed := w.startDelivery.endStopping.closed_leaves (k := k) b
  rw [← Work.rest] at hclosed
  obtain ⟨v, hv⟩ : ∃ v, v = w.rest b := ⟨_, rfl⟩
  obtain ⟨y, hy⟩ : ∃ y, y = w.startDelivery := ⟨_, rfl⟩
  rw [← hv, ← hy] at hclosed
  rw [← hy] at hplant hdelivery
  rw [← hv]
  obtain ⟨z, hz⟩ : ∃ z, z = y.endStopping := ⟨_, rfl⟩
  rw [← hz] at hplant hclosed
  have hpack : z.pack k = y.pack k := congrArg (fun P : Plant => P.pack k) hplant
  have hpocket (p : PocketId) : z.pockets[p] = y.pockets[p] := congrArg (fun P : Plant => P.pocket p) hplant
  rcases hdelivery with h | ⟨h1, h2, h3⟩
  · left
    have hsame : z.pack k = w.pack k := hpack.trans h.pack
    obtain ⟨a1, -, a3⟩ := hclosed (by rw [hsame]; rcases hk with e | e | e <;> rw [e] <;> exact nofun)
      (by rw [hsame]; rcases hk with e | e | e <;> rw [e] <;> exact nofun)
    refine ⟨a1.trans hsame, fun p hp' => ?_⟩
    have hsamep : z.pockets[p] = w.pockets[p] := (hpocket p).trans (h.pocket p hp')
    rw [a3 p (by rw [hsamep]; exact hp p hp'), hsamep]
  · right
    have hsame := hpack.trans h2
    obtain ⟨a1, -, a3⟩ := hclosed (by rw [hsame]; exact nofun) (by rw [hsame]; exact nofun)
    refine ⟨h1, a1.trans hsame, fun p hp' => ?_⟩
    have hsamep := (hpocket p).trans (h3 p hp')
    rw [a3 p (by rw [hsamep]; exact nofun), hsamep]

/-! ### The Stapler goes on (R97, R98) -/

theorem Work.startPurge_stapler (w : Work) (p : PocketId) : (w.startPurge p).stapler = w.stapler := by
  unfold Work.startPurge
  dsimp only
  split
  · rw [Work.setPocket_stapler]
  · rfl

theorem Work.startPurges_stapler (w : Work) : w.startPurges.stapler = w.stapler := by
  unfold Work.startPurges
  exact Work.each_same (fun x => x.stapler) _ Work.startPurge_stapler _ w

theorem Work.endStartUp_stays (h : w.starting = true → w.anyPurging = true) : w.endStartUp = w := by
  unfold Work.endStartUp
  split
  next hs => rw [if_pos (h (by rw [State.starting, hs]))]
  · rfl

/-- The pending purges started, no start-up ended, and the delivery queue judged: what the Stapler's work begins with. -/
theorem Work.before_staple (h : w.starting = true → w.anyPurging = true) :
    ∃ y : Work, w.startPurges.endStartUp.judge = y ∧ Evolves w y ∧ y.stapler = w.stapler ∧ y.run = w.run ∧ y.now = w.now
      ∧ y.tables.settings = w.tables.settings ∧ y.pack = w.pack
      ∧ ∀ p : PocketId, w.pockets[p].state ≠ .purging → y.pockets[p] = w.pockets[p] := by
  have hframe : w.startPurges.frame = w.frame := by simp
  have hpocket (p : PocketId) := w.startPurges_pocket (p := p)
  have hstarting := w.startPurges_starting
  have hany := w.startPurges_anyPurging
  have hstapler := w.startPurges_stapler
  have hrun := w.startPurges_run
  have hreg := congrArg Core.reg w.core_startPurges
  have hevolves := (Evolves.refl w).startPurges
  rw [Work.core_reg, Work.core_reg] at hreg
  obtain ⟨x, hx⟩ : ∃ x, x = w.startPurges := ⟨_, rfl⟩
  rw [← hx] at hframe hpocket hstarting hany hstapler hrun hreg hevolves
  refine ⟨x.judge, ?_, hevolves.judge, hstapler, hrun, Work.now_of_frame hframe,
    congrArg (fun f : Frame => f.tables.settings) hframe, ?_, fun p hp => hpocket p hp⟩
  · rw [← hx, Work.endStartUp_stays (by rw [hstarting, hany]; exact h)]
  · funext k
    rw [State.pack, State.pack, ← hreg]
    rfl

theorem Work.takeUp_once {n : Nat} {k : Handle} {q : List Handle} (hi : w.stapler.state = .idle) (hm : w.mayStart = true)
    (hq : w.stapler.queue = k :: q) : Work.takeUp (n + 1) w = Work.takeUp n (w.startVolume (w.workFor k)) := by
  rw [Work.takeUp]
  split
  next h => rw [hq] at h; cases h
  next h =>
    rw [hq] at h
    cases h
    rw [if_pos (Bool.and_eq_true_iff.2 ⟨decide_eq_true hi, hm⟩)]

/-- A volume that the staples suffice for is begun, and the Stapler has its hands full (R98). -/
theorem Work.startVolume_begins {m : WorkRec} (hn : patternCount (w.pack m.handle).snap.pattern ≤ w.stapler.remaining) :
    (w.startVolume m).stapler = {
        state := .stapling, queue := w.stapler.queue
        remaining := w.stapler.remaining - patternCount (w.pack m.handle).snap.pattern
        work := some { m with op := .inFlight, start := w.now, allowance := w.tables.settings.mechTimeout }
        command := (w.pack m.handle).pocket.map fun p => (p, patternCount (w.pack m.handle).snap.pattern) }
      ∧ (w.startVolume m).pack m.handle = { w.pack m.handle with
          state := if m.volume = 1 ∧ (w.pack m.handle).state = .complete then .stapling else (w.pack m.handle).state }
      ∧ (∀ j, ((w.startVolume m).pack j).pocket = (w.pack j).pocket)
      ∧ ∀ p, (w.pack m.handle).pocket = some p → (w.startVolume m).pockets[p] = w.pockets[p].presenting m.volume := by
  have h := w.startVolume_plant m hn
  obtain ⟨r, hr⟩ : ∃ r : PackRec, r = { w.pack m.handle with
    state := if m.volume = 1 ∧ (w.pack m.handle).state = .complete then .stapling else (w.pack m.handle).state } := ⟨_, rfl⟩
  rw [← hr] at h ⊢
  have hpack : (w.startVolume m).pack = (w.plant.setPack m.handle r).pack :=
    (congrArg Plant.pack h).trans (Plant.onPocket_pack ..)
  refine ⟨congrArg Plant.stapler h, ?_, fun j => ?_, fun p hp => ?_⟩
  · rw [hpack, Plant.setPack_pack_self]
  · rw [hpack]
    by_cases e : j = m.handle
    · rw [e, Plant.setPack_pack_self, hr]
    · rw [Plant.setPack_pack_ne _ e]
      rfl
  · have hpocket := congrArg (fun P : Plant => P.pocket p) h
    rw [hp] at hpocket
    exact hpocket.trans (Plant.setPocket_pocket_self _ _)

theorem Work.finishPack_done (w : Work) (k : Handle) (f : PackFlags) :
    k ∉ (w.finishPack k f).stapler.queue ∧ (w.finishPack k f).stapler.state = .idle
      ∧ (w.finishPack k f).pack k = { w.pack k with state := .ready, flags := f }
      ∧ (∀ j, ((w.finishPack k f).pack j).pocket = (w.pack j).pocket)
      ∧ ∀ p, (w.pack k).pocket = some p → (w.finishPack k f).pockets[p] = w.pockets[p].finished (w.pack k).volumes := by
  have h := w.finishPack_plant k f
  obtain ⟨P, hP⟩ : ∃ P, P = w.plant.setStapler { w.stapler with
    queue := w.stapler.queue.filter fun j => decide (j ≠ k), state := .idle, work := none, command := none } := ⟨_, rfl⟩
  rw [← hP] at h
  have hpackP : P.pack = w.pack := by rw [hP]; rfl
  have hstapler : (w.finishPack k f).stapler = P.stapler :=
    (congrArg Plant.stapler h).trans (Plant.onPocket_stapler ..)
  have hpack : (w.finishPack k f).pack = (P.setPack k { w.pack k with state := .ready, flags := f }).pack := by
    refine (congrArg Plant.pack h).trans ?_
    rw [Plant.setPack, Plant.setPack, Plant.onPocket_pack]
  refine ⟨?_, ?_, ?_, fun j => ?_, fun p hp => ?_⟩
  · rw [hstapler, hP]
    simp [Plant.setStapler]
  · rw [hstapler, hP]
    rfl
  · rw [hpack, Plant.setPack_pack_self]
  · rw [hpack]
    by_cases e : j = k
    · rw [e, Plant.setPack_pack_self]
    · rw [Plant.setPack_pack_ne _ e, hpackP]
  · have hpocket := congrArg (fun P : Plant => P.pocket p) h
    rw [hp] at hpocket
    refine hpocket.trans ((Plant.setPocket_pocket_self _ _).trans ?_)
    rw [hP]
    rfl

theorem Work.shortVolume_holds {m : WorkRec} (h : (w.pack m.handle).snap.staplesOut = .hold) :
    w.shortVolume m = (w.latch .staplesOut).setStapler .waitingCartridge (some { m with op := .none }) none := by
  rw [Work.shortVolume]
  dsimp only
  rw [h]

theorem Work.shortVolume_delivers {m : WorkRec} (h : (w.pack m.handle).snap.staplesOut = .deliverUnstapled) :
    w.shortVolume m = (w.latch .staplesOut).finishPack m.handle (if m.stapled = 0
      then { (w.pack m.handle).flags with unstapled := true }
      else { (w.pack m.handle).flags with partlyStapled := true }) := by
  rw [Work.shortVolume]
  dsimp only
  rw [h]

section
variable {m : WorkRec} {n : Nat} (b : State) (hs : w.plant.Sole m.handle)
  (hst : (w.pack m.handle).state = .complete ∨ (w.pack m.handle).state = .stapling)
  (hp : ∀ p, (w.pack m.handle).pocket = some p → w.pockets[p].state ≠ .empty)
include hs hst

/-- The volume that the staples suffice for is in hand as the step ends. -/
theorem Work.takeUp_begins (hn : patternCount (w.pack m.handle).snap.pattern ≤ w.stapler.remaining) :
    ((Work.takeUp n (w.startVolume m)).rest b).stapler = (w.startVolume m).stapler
      ∧ (((Work.takeUp n (w.startVolume m)).rest b).pack m.handle).state
        = (if m.volume = 1 ∧ (w.pack m.handle).state = .complete then .stapling else (w.pack m.handle).state)
      ∧ ∀ p, (w.pack m.handle).pocket = some p →
        ((Work.takeUp n (w.startVolume m)).rest b).pockets[p] = w.pockets[p].presenting m.volume := by
  obtain ⟨hstapler, hpack, hnames, hpocket⟩ := Work.startVolume_begins hn
  obtain ⟨x, hx⟩ : ∃ x, x = w.startVolume m := ⟨_, rfl⟩
  rw [← hx] at hstapler hpack hnames hpocket ⊢
  rw [Work.takeUp_of_not_idle n (.inl (by rw [hstapler]; exact nofun))]
  have hstate : (x.pack m.handle).state
      = if m.volume = 1 ∧ (w.pack m.handle).state = .complete then .stapling else (w.pack m.handle).state := by rw [hpack]
  have hbusy : (x.pack m.handle).state = .complete ∨ (x.pack m.handle).state = .stapling := by
    rw [hstate]
    split
    · exact .inr rfl
    · exact hst
  have hleaves := x.rest_leaves (hs.of hnames) b (hbusy.imp_right .inl) fun p hp => by
    rw [hpocket p ((hnames m.handle).symm.trans hp)]
    exact nofun
  refine ⟨x.rest_stapler b, ?_, fun p hp => ?_⟩
  · rcases hleaves with ⟨h, -⟩ | ⟨h, -⟩
    · rw [h, hstate]
    · rcases hbusy with e | e <;> rw [e] at h <;> cases h
  · rcases hleaves with ⟨-, h⟩ | ⟨h, -⟩
    · rw [h p ((hnames m.handle).trans hp), hpocket p hp]
    · rcases hbusy with e | e <;> rw [e] at h <;> cases h

include hp

/-- A short volume whose pack waits: the Stapler waits for a cartridge as the step ends (R102). -/
theorem Work.takeUp_holds (hn : w.stapler.remaining < patternCount (w.pack m.handle).snap.pattern)
    (hh : (w.pack m.handle).snap.staplesOut = .hold) :
    ((Work.takeUp n (w.startVolume m)).rest b).stapler = { w.stapler with
        state := .waitingCartridge, work := some { m with op := .none }, command := none }
      ∧ ((Work.takeUp n (w.startVolume m)).rest b).pack m.handle = w.pack m.handle
      ∧ ∀ p, (w.pack m.handle).pocket = some p → ((Work.takeUp n (w.startVolume m)).rest b).pockets[p] = w.pockets[p] := by
  obtain ⟨x, hx⟩ : ∃ x, x = w.startVolume m := ⟨_, rfl⟩
  have hshort : x = (w.latch .staplesOut).setStapler .waitingCartridge (some { m with op := .none }) none := by
    rw [hx, show w.startVolume m = w.shortVolume m from if_pos hn, Work.shortVolume_holds hh]
  have hstapler : x.stapler = { w.stapler with
      state := .waitingCartridge, work := some { m with op := .none }, command := none } := by rw [hshort]; rfl
  have hpack : x.pack = w.pack := by rw [hshort]; rfl
  have hpockets : x.pockets = w.pockets := by rw [hshort]; rfl
  rw [← hx, Work.takeUp_of_not_idle n (.inl (by rw [hstapler]; exact nofun))]
  have hleaves := x.rest_leaves (hs.of fun j => by rw [State.plant_pack, hpack]; rfl) b
    (by rw [hpack]; exact hst.imp_right .inl) fun p hp' => by rw [hpockets]; exact hp p (by rwa [hpack] at hp')
  rw [hpack, hpockets] at hleaves
  refine ⟨(x.rest_stapler b).trans hstapler, ?_⟩
  rcases hleaves with h | ⟨h, -⟩
  · exact h
  · rcases hst with e | e <;> rw [e] at h <;> cases h

omit hst hp in
/-- A pack finished goes READY and out of the staple queue, and its delivery may start as the step ends (R99, R103). -/
theorem Work.takeUp_finishes {f : PackFlags} :
    m.handle ∉ ((Work.takeUp n (w.finishPack m.handle f)).rest b).stapler.queue
      ∧ ((((Work.takeUp n (w.finishPack m.handle f)).rest b).pack m.handle).state = .ready
        ∨ (((Work.takeUp n (w.finishPack m.handle f)).rest b).pack m.handle).state = .delivering)
      ∧ (((Work.takeUp n (w.finishPack m.handle f)).rest b).pack m.handle).flags = f
      ∧ ∀ p, (w.pack m.handle).pocket = some p → ∃ st ∈ [PocketState.held, .ejecting],
        ((Work.takeUp n (w.finishPack m.handle f)).rest b).pockets[p]
          = { w.pockets[p] with state := st, volume := (w.pack m.handle).volumes, offset := false } := by
  obtain ⟨hqueue, -, hpack, hnames, hpocket⟩ := w.finishPack_done m.handle f
  obtain ⟨x, hx⟩ : ∃ x, x = w.finishPack m.handle f := ⟨_, rfl⟩
  rw [← hx] at hqueue hpack hnames hpocket ⊢
  obtain ⟨hkept, hout⟩ := Work.takeUp_leaves (hs.of hnames) hqueue n
  obtain ⟨y, hy⟩ : ∃ y, y = Work.takeUp n x := ⟨_, rfl⟩
  rw [← hy] at hkept hout ⊢
  have hself : y.pack m.handle = { w.pack m.handle with state := .ready, flags := f } := hkept.pack.trans hpack
  have hpocketY (p : PocketId) (hp : (w.pack m.handle).pocket = some p) :
      y.pockets[p] = w.pockets[p].finished (w.pack m.handle).volumes :=
    (hkept.pocket p ((hnames m.handle).trans hp)).trans (hpocket p hp)
  have hready : (y.pack m.handle).state = .ready := by rw [hself]
  have hnamesY : (y.pack m.handle).pocket = (w.pack m.handle).pocket := by rw [hself]
  have hleaves := y.rest_leaves ((hs.of hnames).of hkept.names) b (.inr (.inr hready)) fun p hp => by
    rw [hpocketY p (hnamesY.symm.trans hp)]
    exact nofun
  refine ⟨by rw [y.rest_stapler b]; exact hout, ?_⟩
  rw [hready, hself] at hleaves
  rcases hleaves with ⟨h1, h2⟩ | ⟨-, h1, h2⟩
  · rw [h1]
    exact ⟨.inl rfl, rfl, fun p hp => ⟨.held, by simp, (h2 p hp).trans (hpocketY p hp)⟩⟩
  · rw [h1]
    refine ⟨.inr rfl, rfl, fun p hp => ⟨.ejecting, by simp, (h2 p hp).trans ?_⟩⟩
    rw [hpocketY p hp]
    rfl

end

/-- An IDLE Stapler takes up the head of its queue as the step settles. -/
theorem Work.staple_takesUp (b : State) {k : Handle} {q : List Handle} (hi : w.stapler.state = .idle) (hm : w.mayStart = true)
    (hq : w.stapler.queue = k :: q) (hs : w.plant.Sole k)
    (hst : (w.pack k).state = .complete ∨ (w.pack k).state = .stapling)
    (hp : ∀ p, (w.pack k).pocket = some p → w.pockets[p].state ≠ .empty) :
    w.toState.takesUp (w.staple.rest b).toState (w.workFor k) w.stapler.remaining := by
  have hk := w.workFor_handle k
  have hstaple : w.staple = Work.takeUp w.stapler.queue.length (w.startVolume (w.workFor k)) := by
    rw [Work.staple, Work.takeUp_once hi hm hq]
  obtain ⟨m, hmk⟩ : ∃ m, m = w.workFor k := ⟨_, rfl⟩
  rw [hstaple, ← hmk]
  rw [← hmk] at hk
  rw [← hk] at hs hst hp
  unfold State.takesUp
  dsimp only
  refine ⟨fun hle => ?_, fun hlt => ⟨?_, fun hh => ?_, fun hd => ?_⟩⟩
  · obtain ⟨h1, h2, h3⟩ := Work.takeUp_begins (n := w.stapler.queue.length) b hs hst hle
    exact ⟨h1.trans (Work.startVolume_begins hle).1, h2, h3⟩
  · refine (Evolves.rest _ b).latched _ (((Evolves.refl _).takeUp _).latched _ ?_)
    rw [show w.startVolume m = w.shortVolume m from if_pos hlt]
    cases hd : (w.pack m.handle).snap.staplesOut with
    | hold =>
      rw [Work.shortVolume_holds hd]
      exact State.latched_latch_self w .staplesOut
    | deliverUnstapled =>
      have hpack : (w.latch .staplesOut).pack m.handle = w.pack m.handle := rfl
      rw [Work.shortVolume_delivers hd]
      refine ((Evolves.refl (w.latch .staplesOut)).finishPack _ _ ?_).latched _ (State.latched_latch_self w .staplesOut)
      rw [hpack]
      exact PackRec.not_cleared (by rcases hst with e | e <;> rw [e] <;> exact nofun)
  · obtain ⟨h1, h2, h3⟩ := Work.takeUp_holds (n := w.stapler.queue.length) b hs hst hp hlt hh
    exact ⟨h1, h2, h3⟩
  · rw [show w.startVolume m = w.shortVolume m from if_pos hlt, Work.shortVolume_delivers hd]
    obtain ⟨f, hf⟩ : ∃ f, f = if m.stapled = 0 then { (w.pack m.handle).flags with unstapled := true }
      else { (w.pack m.handle).flags with partlyStapled := true } := ⟨_, rfl⟩
    have hplant : (w.latch .staplesOut).plant = w.plant := rfl
    have hpack : (w.latch .staplesOut).pack = w.pack := rfl
    have hpockets : (w.latch .staplesOut).pockets = w.pockets := rfl
    rw [← hf]
    obtain ⟨x, hx⟩ : ∃ x, x = w.latch .staplesOut := ⟨_, rfl⟩
    rw [← hx] at hplant hpack hpockets ⊢
    obtain ⟨h1, h2, h3, h4⟩ := Work.takeUp_finishes (w := x) (n := w.stapler.queue.length) b (by rw [hplant]; exact hs) (f := f)
    rw [hpack, hpockets] at h4
    exact ⟨h1, h2, h3, h4⟩

/-- What a volume taken up is read from: the pack and its pocket, the staple queue, the time and the settings. -/
theorem State.takesUp_of {s s' t : State} {m : WorkRec} {left : Nat} (h : s'.takesUp t m left)
    (hpack : s'.pack m.handle = s.pack m.handle) (hqueue : s'.stapler.queue = s.stapler.queue) (hnow : s'.now = s.now)
    (hset : s'.tables.settings = s.tables.settings)
    (hpockets : ∀ p, (s.pack m.handle).pocket = some p → s'.pockets[p] = s.pockets[p]) : s.takesUp t m left := by
  unfold State.takesUp at h ⊢
  dsimp only at h ⊢
  rw [hpack, hqueue, hnow, hset] at h
  obtain ⟨hbegins, hshort⟩ := h
  refine ⟨fun hle => ?_, fun hlt => ?_⟩
  · obtain ⟨h1, h2, h3⟩ := hbegins hle
    exact ⟨h1, h2, fun p hp => (h3 p hp).trans (by rw [hpockets p hp])⟩
  · obtain ⟨h1, h2, h3⟩ := hshort hlt
    refine ⟨h1, fun hh => ?_, fun hd => ?_⟩
    · obtain ⟨a1, a2, a3⟩ := h2 hh
      exact ⟨a1, a2, fun p hp => (a3 p hp).trans (hpockets p hp)⟩
    · obtain ⟨a1, a2, a3, a4⟩ := h3 hd
      refine ⟨a1, a2, a3, fun p hp => ?_⟩
      obtain ⟨st, hst, e⟩ := a4 p hp
      exact ⟨st, hst, e.trans (by rw [hpockets p hp])⟩

theorem State.workFor_of {s s' : State} {k : Handle} (hw : s'.stapler.work = s.stapler.work) (hp : s'.pack k = s.pack k) :
    s'.workFor k = s.workFor k := by
  rw [State.workFor, State.workFor, State.freshWork, State.freshWork, hw, hp]

/-- Where the Stapler stands IDLE, it goes on as the step settles as R97 allows. -/
theorem Work.settle_goesOn (b : State) (hi : w.stapler.state = .idle) (hc : w.stapler.command = none)
    (hq : w.toState.stapleQueueSound) (hp : w.toState.pocketsAgree) (hs : w.starting = true → w.anyPurging = true) :
    w.toState.goesOn (w.settle b).toState w.stapler.work w.stapler.remaining := by
  obtain ⟨y, hy, -, hstapler, hrun, hnow, hsettings, hpack, hpockets⟩ := w.before_staple hs
  have hmay : y.mayStart = w.mayStart := by rw [State.mayStart, State.mayStart, State.halted, State.halted,
    State.starting, State.starting, hrun]
  have hrecord : w.stapler = { w.stapler with
      state := .idle, remaining := w.stapler.remaining, work := w.stapler.work, command := none } := by
    rw [← hi, ← hc]
  rw [w.settle_rest, hy]
  unfold State.goesOn
  dsimp only
  refine ⟨fun hno => ?_, fun k hmayk hk => ?_⟩
  · have hstaple : y.staple = y := by
      rcases hno with h | h
      · exact Work.takeUp_of_not_idle _ (.inr (hmay.trans h))
      · rw [Work.staple, Work.takeUp]
        split
        · rfl
        next h' => rw [hstapler, h] at h'; cases h'
    rw [hstaple, y.rest_stapler b, hstapler]
    exact hrecord
  · have hmem : k ∈ w.stapler.queue := List.mem_of_mem_head? hk
    have hstate : (w.pack k).state = .complete ∨ (w.pack k).state = .stapling := hq.2 k hmem
    obtain ⟨q, hqueue⟩ : ∃ q, w.stapler.queue = k :: q := by
      cases h : w.stapler.queue with
      | nil => rw [h] at hk; cases hk
      | cons j q => rw [h] at hk; exact ⟨q, by rw [Option.some.inj hk]⟩
    have hhoused (p : PocketId) (hkp : (w.pack k).pocket = some p) :
        w.pockets[p].state ≠ .purging ∧ w.pockets[p].state ≠ .empty := by
      have hhouse := (hp.2 k).2 p hkp
      constructor <;> intro e <;> rw [e] at hhouse <;>
        rcases hstate with e' | e' <;> rw [e'] at hhouse <;> simp [PackState.housedBy] at hhouse
    have htakes := Work.staple_takesUp (w := y) b (k := k) (q := q) (by rw [hstapler, hi]) (hmay.trans hmayk)
      (by rw [hstapler, hqueue]) ((State.sole_of_agree hp k).of fun j => by rw [State.plant_pack, hpack]; rfl)
      (by rw [hpack]; exact hstate) fun p hkp => by
        rw [hpack] at hkp
        rw [hpockets p (hhoused p hkp).1]
        exact (hhoused p hkp).2
    have hwork : y.workFor k = w.workFor k := State.workFor_of (by rw [hstapler]) (by rw [hpack])
    rw [hwork, hstapler] at htakes
    show w.toState.takesUp (y.staple.rest b).toState (w.toState.workFor k) w.stapler.remaining
    have hhandle := w.workFor_handle k
    exact State.takesUp_of htakes (by rw [hpack]) (by rw [hstapler]) hnow hsettings fun p hkp =>
      hpockets p (hhoused p (by rwa [hhandle] at hkp)).1

/-- Where no block may start work the Stapler stands as the step settles. -/
theorem Work.settle_stapler_stands (b : State) (hs : w.starting = true → w.anyPurging = true) (hm : w.mayStart = false) :
    (w.settle b).stapler = w.stapler := by
  obtain ⟨y, hy, -, hstapler, hrun, -⟩ := w.before_staple hs
  have hmay : y.mayStart = w.mayStart := by rw [State.mayStart, State.mayStart, State.halted, State.halted,
    State.starting, State.starting, hrun]
  rw [w.settle_rest, hy, Work.rest_stapler, Work.staple, Work.takeUp_of_not_idle _ (.inr (hmay.trans hm)), hstapler]

/-- A READY pack that the Stapler is done with keeps its record as the step settles, but that its delivery may start. -/
theorem Work.settle_ready (b : State) {k : Handle} (hs : w.plant.Sole k) (hk : k ∉ w.stapler.queue)
    (hr : (w.pack k).state = .ready) : k ∉ (w.settle b).stapler.queue
      ∧ ((w.settle b).pack k = w.pack k ∨ (w.settle b).pack k = { w.pack k with state := .delivering }) := by
  have hqueue := Work.queue_of_core w.core_started
  have hpack := w.started_pack
  rw [w.settle_rest]
  obtain ⟨x, hx⟩ : ∃ x, x = w.startPurges.endStartUp := ⟨_, rfl⟩
  rw [← hx] at hqueue hpack ⊢
  have hsole : x.judge.plant.Sole k := hs.of fun j => by
    rw [Work.judge_plant, State.plant_pack, hpack]
    rfl
  obtain ⟨hleaves, hout⟩ := Work.takeUp_leaves hsole (show k ∉ x.judge.stapler.queue from hqueue ▸ hk)
    (x.judge.stapler.queue.length + 1)
  rw [← Work.staple] at hleaves hout
  have hjudge : x.judge.pack k = w.pack k := hpack k
  obtain ⟨y, hy⟩ : ∃ y, y = x.judge.staple := ⟨_, rfl⟩
  rw [← hy] at hleaves hout ⊢
  have hself : y.pack k = w.pack k := hleaves.pack.trans hjudge
  refine ⟨by rw [y.rest_stapler b]; exact hout, ?_⟩
  rcases y.startDelivery_leaves (hsole.of hleaves.names) with h | ⟨-, h, -⟩
  · refine .inl ?_
    have hsame : y.startDelivery.endStopping.pack k = w.pack k :=
      (congrArg (fun P : Plant => P.pack k) y.startDelivery.endStopping_plant).trans (h.pack.trans hself)
    rw [Work.rest, (Work.closed_leaves _ b (by rw [hsame, hr]; exact nofun) (by rw [hsame, hr]; exact nofun)).1, hsame]
  · refine .inr ?_
    have hsame : y.startDelivery.endStopping.pack k = { w.pack k with state := .delivering } :=
      (congrArg (fun P : Plant => P.pack k) y.startDelivery.endStopping_plant).trans (h.trans (by rw [hself]))
    rw [Work.rest, (Work.closed_leaves _ b (by rw [hsame]; exact nofun) (by rw [hsame]; exact nofun)).1, hsame]

end

end Sys2Proof.Machine
end

section
/-! SUPPORT. A step whose own effect is on the Stapler (`Work.Restapled`): the settling of `Obligations.VolumeOperationsEnd`
and `Obligations.CartridgeAndClearStapler`. -/

namespace Sys2Proof.Machine

/-- The Stapler's goings-on are read from the pack and pocket records, the staple queue, the time and the settings. -/
theorem State.goesOn_of {s u t : State} {work : Option WorkRec} {left : Nat}
    (h : u.goesOn t u.stapler.work u.stapler.remaining)
    (hstapler : u.stapler = { s.stapler with state := .idle, remaining := left, work := work, command := none })
    (hpack : u.pack = s.pack) (hmay : u.mayStart = s.mayStart) (hnow : u.now = s.now)
    (hset : u.tables.settings = s.tables.settings) (hpockets : u.pockets = s.pockets) : s.goesOn t work left := by
  obtain ⟨hstands, htakes⟩ := h
  have hleft : u.stapler.remaining = left := by rw [hstapler]
  have hwork : u.stapler.work = work := by rw [hstapler]
  have hqueue : u.stapler.queue = s.stapler.queue := by rw [hstapler]
  refine ⟨fun hno => ?_, fun k hm hk => ?_⟩
  · rw [hstands (by rw [hmay, hqueue]; exact hno), hleft, hwork]
    dsimp only
    rw [hqueue]
  · have htake := htakes k (hmay.trans hm) (by rw [hqueue]; exact hk)
    rw [hleft] at htake
    have hsame : State.workFor { s with stapler :=
          { s.stapler with state := .idle, remaining := left, work := work, command := none } } k
        = State.workFor { u with stapler :=
          { u.stapler with state := .idle, remaining := left, work := u.stapler.work, command := none } } k :=
      State.workFor_of hwork.symm (congrFun hpack k).symm
    rw [hsame]
    exact State.takesUp_of htake (congrFun hpack _) hqueue hnow hset fun p _ => by rw [hpockets]

/-- What a volume taken up comes to is read off the Stapler's, the pack and pocket records and a latch, which the end of a
step keeps. -/
theorem State.takesUp.finish {s : State} {w : Work} {m : WorkRec} {left : Nat} (h : s.takesUp w.toState m left) :
    s.takesUp w.finish m left := by
  have hpack : w.finish.pack = w.pack := funext w.finish_pack
  unfold State.takesUp at h ⊢
  rw [Work.finish_stapler, hpack, Work.finish_pockets]
  exact ⟨h.1, fun hlt => ⟨w.finish_latched _ (h.2 hlt).1, (h.2 hlt).2⟩⟩

theorem State.goesOn.finish {s : State} {w : Work} {work : Option WorkRec} {left : Nat} (h : s.goesOn w.toState work left) :
    s.goesOn w.finish work left := by
  unfold State.goesOn at h ⊢
  rw [Work.finish_stapler]
  exact ⟨h.1, fun k hm hk => (h.2 k hm hk).finish⟩

/-- The work differs from state `s`, in which it began, in the Stapler's record `r` and the latches alone. -/
structure Work.Restapled (s : State) (r : Stapler) (u : Work) : Prop where
  begun : Work.From s u
  stapler : u.stapler = r
  reg : u.reg = s.reg
  pockets : u.pockets = s.pockets
  ret : u.ret = s.ret
  run : u.run = s.run

namespace Work.Restapled

variable {s : State} {r : Stapler} {u : Work} (h : Work.Restapled s r u)
include h

theorem pack : u.pack = s.pack := by
  funext k
  rw [State.pack, State.pack, h.reg]

theorem keeps (b : State) : s.surrounds (u.settle b).finish ∧ s.keepsPacks (u.settle b).finish
    ∧ s.keepsBins (u.settle b).finish [] :=
  ⟨(h.begun.settle b).surrounds, ((State.keepsPacks_of_reg h.reg).settle b).finish,
    ((State.keepsBins_of_bins (by rw [h.ret]) []).settle b).finish⟩

theorem starting : u.starting = s.starting := by rw [State.starting, State.starting, h.run]

theorem mayStart : u.mayStart = s.mayStart := by
  rw [State.mayStart, State.mayStart, h.starting, State.halted, State.halted, h.run]

theorem anyPurging : u.anyPurging = s.anyPurging := by rw [State.anyPurging, State.anyPurging, h.pockets]

theorem stands (hs : s.starting = true → s.anyPurging = true) (hm : s.mayStart = false) (b : State) :
    (u.settle b).finish.stapler = r := by
  rw [Work.finish_stapler, Work.settle_stapler_stands b (by rw [h.starting, h.anyPurging]; exact hs)
    (h.mayStart.trans hm), h.stapler]

theorem busy (hs : s.starting = false) (hr : r.state ≠ .idle) (b : State) : (u.settle b).finish.stapler = r := by
  rw [Work.finish_stapler, (Settles.settle b u (h.starting.trans hs)).staplerBusy (by rw [h.stapler]; exact hr), h.stapler]

theorem goesOn {work : Option WorkRec} {left : Nat}
    (hr : r = { s.stapler with state := .idle, remaining := left, work := work, command := none })
    (hq : s.stapleQueueSound) (hp : s.pocketsAgree) (hs : s.starting = true → s.anyPurging = true) (b : State) :
    s.goesOn (u.settle b).toState work left := by
  have hstapler := h.stapler.trans hr
  have hqueue : u.toState.stapleQueueSound := by
    rw [State.stapleQueueSound, hstapler, h.pack]
    exact hq
  have hagree : u.toState.pocketsAgree := by
    rw [State.pocketsAgree, h.pockets, h.pack]
    exact hp
  have hgoes := Work.settle_goesOn (w := u) b (by rw [hstapler]) (by rw [hstapler]) hqueue hagree
    (by rw [h.starting, h.anyPurging]; exact hs)
  exact State.goesOn_of hgoes hstapler h.pack h.mayStart h.begun.now_eq h.begun.settings_eq h.pockets

end Work.Restapled

/-! ### Staples remaining (R104) -/

section
variable {w : Work}

theorem Work.setRemaining_shape (w : Work) (n : Nat) : ∃ m a, w.setRemaining n =
    { w with stapler := { w.stapler with remaining := n }, tables := { w.tables with mark := m }, attn := a } := by
  obtain ⟨m, h⟩ := (w.setStaplerRec { w.stapler with remaining := n }).touchIf_shape
    (decide (n ≠ w.stapler.remaining)) .settings
  unfold Work.setRemaining Work.judgeStaples
  dsimp only
  rw [h]
  split
  · exact ⟨m, _, rfl⟩
  · exact ⟨m, _, rfl⟩

theorem Work.setRemaining_low {n : Nat} (hn : n ≤ w.tables.settings.staplesLow) :
    (w.setRemaining n).latched .staplesLow = true := by
  obtain ⟨m, h⟩ := (w.setStaplerRec { w.stapler with remaining := n }).touchIf_shape
    (decide (n ≠ w.stapler.remaining)) .settings
  unfold Work.setRemaining Work.judgeStaples
  dsimp only
  rw [h]
  exact (congrArg (fun x : Work => x.latched .staplesLow) (if_pos hn)).trans (State.latched_latch_self _ _)

theorem Work.remaining_of_core {v : Work} (h : v.core = w.core) : v.stapler.remaining = w.stapler.remaining :=
  congrArg Core.remaining h

/-- The settling takes staples and brings none. -/
theorem Work.settle_remaining (w : Work) (b : State) : (w.settle b).stapler.remaining ≤ w.stapler.remaining := by
  rw [← Work.remaining_of_core w.core_started]
  exact (Settles.rest b w).remaining

theorem Work.fitCartridge_shape (w : Work) : ∃ m a, w.fitCartridge = { w with
    stapler := { w.stapler with
      remaining := w.tables.settings.cartridgeSize
      state := if w.stapler.state = .waitingCartridge then .idle else w.stapler.state }
    tables := { w.tables with mark := m }
    attn := a } := by
  obtain ⟨m, a, h⟩ := w.setRemaining_shape w.tables.settings.cartridgeSize
  refine ⟨m, a, ?_⟩
  unfold Work.fitCartridge
  dsimp only
  rw [h]
  by_cases hw : w.stapler.state = .waitingCartridge
  · simp only [if_pos hw]
    rfl
  · simp only [if_neg hw]

/-- A cartridge fitted sets staples remaining, and a Stapler that waited for it is IDLE (R104, R105). -/
theorem Work.fitCartridge_restaples (s : State) : Work.Restapled s { s.stapler with
      remaining := s.tables.settings.cartridgeSize
      state := if s.stapler.state = .waitingCartridge then .idle else s.stapler.state } (Work.of s).fitCartridge := by
  obtain ⟨m, a, h⟩ := (Work.of s).fitCartridge_shape
  exact ⟨(Work.From.of s).evolves (Evolves.refl _).fitCartridge (Work.frame_fitCartridge _), by rw [h]; rfl, by rw [h]; rfl,
    by rw [h]; rfl, by rw [h]; rfl, by rw [h]; rfl⟩

theorem Work.fitCartridge_low (h : w.tables.settings.cartridgeSize ≤ w.tables.settings.staplesLow) :
    w.fitCartridge.latched .staplesLow = true := by
  have hlow : (w.setRemaining w.tables.settings.cartridgeSize).latched .staplesLow = true := Work.setRemaining_low h
  unfold Work.fitCartridge
  dsimp only
  split <;> exact hlow

end

end Sys2Proof.Machine

namespace Sys2Proof.Proofs

open Sys2Proof.Machine

/-- Settles O50: the Stapler's record alone changes, and where it is IDLE it goes on as the step settles. -/
theorem cartridgeAndClearStapler : Obligations.CartridgeAndClearStapler := by
  unfold Obligations.CartridgeAndClearStapler
  refine ⟨fun s hq hp => ?_, fun a s ht => ⟨fun hs hf => exec_answers ht hf ?_, fun hs hq hp => ?_⟩⟩
  · have heff : Instr.cartridgeFitted.effect (Work.of s) = (Work.of s).fitCartridge.settle s := by rw [Instr.effect]; rfl
    have h := Work.fitCartridge_restaples s
    have hlow := Work.fitCartridge_low (w := Work.of s)
    refine ⟨_, exec_comes (c := .cartridgeFitted) rfl rfl, ?_⟩
    rw [heff]
    obtain ⟨u, hu⟩ : ∃ u, u = (Work.of s).fitCartridge := ⟨_, rfl⟩
    rw [← hu] at h hlow ⊢
    obtain ⟨h1, h2, h3⟩ := h.keeps s
    refine ⟨h1, h2, h3, ?_, fun hle => ?_, fun hst hb => ?_, fun hh hw => ?_, fun hiw hc hst => ?_⟩
    · rw [Work.finish_stapler]
      exact (u.settle_remaining s).trans (by rw [h.stapler])
    · exact Work.finish_latched _ _ (((Evolves.refl u).settle s).latched _ (hlow hle))
    · have hne : s.stapler.state ≠ .waitingCartridge := by rcases hb with e | e <;> rw [e] <;> exact nofun
      rw [h.busy hst (by rw [if_neg hne]; rcases hb with e | e <;> rw [e] <;> exact nofun) s, if_neg hne]
    · have hnot : s.starting = false := by
        rw [State.starting_eq]
        rw [State.halted_eq] at hh
        cases hr : s.run.state <;> rw [hr] at hh <;> first | rfl | cases hh
      rw [h.stands (by rw [hnot]; exact nofun) (by rw [State.mayStart, hh]; rfl) s, if_pos hw]
    · refine (h.goesOn ?_ hq hp hst s).finish
      rw [← hc]
      rcases hiw with e | e <;> rw [e] <;> rfl
  · rw [Instr.effect, Work.clearStapler, if_neg]
    rw [Work.of_toState]
    obtain ⟨l, hl, -⟩ := s.takenFor_link (.clearStapler false a)
    rw [hl]
    exact hs
  · obtain ⟨l, hl, -⟩ := s.takenFor_link (.clearStapler false a)
    obtain ⟨T, hT⟩ : ∃ T, T = s.takenFor (.clearStapler false a) := ⟨_, rfl⟩
    have hsame : T = { s with link := l } := hT.trans hl
    have hfaulted : T.stapler.state = .faulted := by rw [hsame]; exact hs
    have hstarting : T.starting = false := by
      rw [State.starting, hT, State.takenFor_run]
      exact State.starting_of_takesCommand ht
    have h : Work.Restapled T { T.stapler with state := .idle, command := none }
        ((Work.of T).setStapler .idle T.stapler.work none) :=
      ⟨(Work.From.of T).evolves ((Evolves.refl _).setStapler _ _ _) (Work.frame_setStapler _ _ _ _), rfl, rfl, rfl, rfl, rfl⟩
    have heff : (Instr.clearStapler false a).effect (Work.of T)
        = ((((Work.of T).setStapler .idle T.stapler.work none)).settle T).answer kindControl .accepted := by
      rw [Instr.effect, Work.clearStapler]
      exact if_pos hfaulted
    obtain ⟨u, hu⟩ : ∃ u, u = (Work.of T).setStapler .idle T.stapler.work none := ⟨_, rfl⟩
    rw [← hu] at h heff
    have hfromV := h.begun.settle T
    have hset := Settles.settle T u (h.starting.trans hstarting)
    have hgoes := h.goesOn rfl (by rw [hsame]; exact hq) (by rw [hsame]; exact hp) (by rw [hstarting]; exact nofun) T
    obtain ⟨-, hpacks, hbins⟩ := h.keeps T
    refine ⟨_, exec_taken ht, ?_⟩
    rw [← hT, heff]
    obtain ⟨v, hv⟩ : ∃ v, v = u.settle T := ⟨_, rfl⟩
    rw [← hv] at hfromV hset hgoes ⊢
    have hreg : u.reg = s.reg := h.reg.trans (by rw [hsame])
    have hret : u.ret = s.ret := h.ret.trans (by rw [hsame])
    refine ⟨(hfromV.answer _ _ _ _).surrounds, by rw [hv]; exact ((State.keepsPacks_of_reg hreg).settle T).answer.finish,
      by rw [hv]; exact ((State.keepsBins_of_bins (by rw [hret]) []).settle T).answer.finish, hfromV.tells_taken hT, ?_, ?_⟩
    · rw [Work.finish_stapler]
      exact hset.staplerSound (by rw [h.stapler]; exact nofun)
    · rw [hsame] at hgoes
      exact State.goesOn.finish (w := v.answer kindControl .accepted) hgoes

end Sys2Proof.Proofs
end

section
/-! SUPPORT. The pack that the Stapler finishes, and the end of a volume operation (`Obligations.VolumeOperationsEnd`). -/

namespace Sys2Proof.Machine

section
variable {w : Work} {k : Handle}

theorem Work.finishPack_others (w : Work) {j : Handle} (hj : j ≠ k) (f : PackFlags) : (w.finishPack k f).pack j = w.pack j := by
  have h := congrArg (fun P : Plant => P.pack j) (w.finishPack_plant k f)
  refine h.trans ((Plant.setPack_pack_ne _ hj).trans ?_)
  rw [Plant.onPocket_pack]
  rfl

theorem Work.finishPack_queues (w : Work) (k : Handle) (f : PackFlags) : (w.finishPack k f).reg.queues = w.reg.queues
    ∧ (w.finishPack k f).reg.markers = w.reg.markers ∧ (w.finishPack k f).reg.serial = w.reg.serial := by
  unfold Work.finishPack Work.goReady
  dsimp only
  split <;> simp [Work.judge, Work.holdPocket]

/-- A pack finished changes its state and its flags alone. -/
theorem Work.finishPack_keepsPacks (w : Work) (k : Handle) (f : PackFlags) : w.toState.keepsPacks (w.finishPack k f).toState := by
  obtain ⟨hqueues, hmarkers, hserial⟩ := w.finishPack_queues k f
  refine ⟨hqueues, hmarkers, hserial, fun j => ?_⟩
  by_cases e : j = k
  · rw [e, (w.finishPack_done k f).2.2.1]
    exact ⟨rfl, rfl, rfl⟩
  · rw [w.finishPack_others e f]
    exact ⟨rfl, rfl, rfl⟩

theorem Work.finishPack_bins (w : Work) (k : Handle) (f : PackFlags) : (w.finishPack k f).ret.bins = w.ret.bins := by
  obtain ⟨x, h, hret, -⟩ := w.finishPack_ret k f
  rw [h, x.judge_ret_keeps.1, hret]

/-! ### The end of a volume operation (R99, R100) -/

theorem Work.volumeDone_next {m : WorkRec} (h : w.stillStapling m = true) (hv : m.volume < (w.pack m.handle).volumes) :
    w.volumeDone m = w.setStapler .idle (some { m with stapled := m.stapled + 1, volume := m.volume + 1, op := .none }) none := by
  unfold Work.volumeDone
  dsimp only
  rw [if_pos h, if_pos hv]

theorem Work.volumeDone_last {m : WorkRec} (h : w.stillStapling m = true) (hv : (w.pack m.handle).volumes ≤ m.volume) :
    w.volumeDone m = w.finishPack m.handle (w.pack m.handle).flags := by
  unfold Work.volumeDone
  dsimp only
  rw [if_pos h, if_neg (Nat.not_lt.2 hv)]

theorem Work.volumeDone_dropped {m : WorkRec} (h : w.stillStapling m = false) : w.volumeDone m = w.setStapler .idle none none := by
  unfold Work.volumeDone
  rw [if_neg (by rw [h]; exact nofun)]

/-- The Stapler's state, work record and command change, and nothing else. -/
theorem Work.setStapler_restaples (s : State) (st : StaplerState) (o : Option WorkRec) (c : Option (PocketId × Nat)) :
    Work.Restapled s { s.stapler with state := st, work := o, command := c } ((Work.of s).setStapler st o c) :=
  ⟨(Work.From.of s).evolves ((Evolves.refl _).setStapler _ _ _) (Work.frame_setStapler _ _ _ _), rfl, rfl, rfl, rfl, rfl⟩

/-- An operation that ends moves no sheet, whatever it does to its pack. -/
theorem Work.volumeDone_keeps (s : State) (m : WorkRec) : Work.From s ((Work.of s).volumeDone m)
    ∧ s.keepsPacks ((Work.of s).volumeDone m).toState ∧ s.keepsBins ((Work.of s).volumeDone m).toState [] := by
  refine ⟨(Work.From.of s).evolves ((Evolves.refl _).volumeDone m) (Work.frame_volumeDone _ _), ?_⟩
  by_cases hs : (Work.of s).stillStapling m = true
  · by_cases hv : m.volume < ((Work.of s).pack m.handle).volumes
    · rw [Work.volumeDone_next hs hv]
      exact ⟨State.keepsPacks_of_reg rfl, State.keepsBins_of_bins rfl _⟩
    · rw [Work.volumeDone_last hs (Nat.not_lt.1 hv)]
      exact ⟨Work.finishPack_keepsPacks _ _ _, State.keepsBins_of_bins (Work.finishPack_bins _ _ _) _⟩
  · rw [Work.volumeDone_dropped (by simpa using hs)]
    exact ⟨State.keepsPacks_of_reg rfl, State.keepsBins_of_bins rfl _⟩

theorem State.lateVolume_of {s : State} {m : WorkRec} (hk : s.volumeInFlight = some m) :
    s.lateVolume = if s.ranOut m.start m.allowance then some m else none := by
  unfold State.lateVolume
  rw [hk]

end

end Sys2Proof.Machine

namespace Sys2Proof.Proofs

open Sys2Proof.Machine

/-- Settles O49: the next volume and the next pack are taken up as the step settles, and a finished pack is left alone but
for its delivery. -/
theorem volumeOperationsEnd : Obligations.VolumeOperationsEnd := by
  unfold Obligations.VolumeOperationsEnd
  intro s hq hp
  refine ⟨fun hn => ⟨exec_stays rfl (by rw [Instr.comes, hn]; rfl), exec_stays rfl ?_⟩, fun k hk => ⟨?_, fun hlt => ?_, fun hle hs => ?_⟩⟩
  · rw [Instr.comes, State.lateVolume, hn]
    rfl
  · have heff : Instr.stapleDone.effect (Work.of s) = ((Work.of s).volumeDone k).settle s := by
      simp only [Instr.effect, Work.whenSome, Work.of_toState, hk]
    obtain ⟨hfrom, hpacks, hbins⟩ := Work.volumeDone_keeps s k
    refine ⟨_, exec_comes (c := .stapleDone) rfl (by rw [Instr.comes, hk]; rfl), ?_⟩
    rw [heff]
    refine ⟨(hfrom.settle s).surrounds, (hpacks.settle s).finish, (hbins.settle s).finish, fun hst hv hrun => ?_,
      fun hst hv => ?_, fun hst hrun => ?_⟩
    · rw [Work.volumeDone_next hst hv]
      exact ((Work.setStapler_restaples s _ _ _).goesOn rfl hq hp hrun s).finish
    · have hlast : (Work.of s).volumeDone k = (Work.of s).finishPack k.handle (s.pack k.handle).flags :=
        Work.volumeDone_last hst hv
      obtain ⟨hqueue, -, hpack, hnames, -⟩ := (Work.of s).finishPack_done k.handle (s.pack k.handle).flags
      have hsole : (Work.of s).plant.Sole k.handle := State.sole_of_agree hp k.handle
      rw [← hlast] at hqueue hpack hnames
      obtain ⟨u, hu⟩ : ∃ u, u = (Work.of s).volumeDone k := ⟨_, rfl⟩
      rw [← hu] at hqueue hpack hnames ⊢
      have hready : (u.pack k.handle).state = .ready := by rw [hpack]
      have hflags : (u.pack k.handle).flags = (s.pack k.handle).flags := by rw [hpack]
      obtain ⟨hout, hself⟩ := Work.settle_ready s (hsole.of hnames) hqueue hready
      rw [Work.finish_pack, Work.finish_stapler]
      rcases hself with h | h <;> rw [h]
      · exact ⟨.inl hready, hflags, hout⟩
      · exact ⟨.inr rfl, hflags, hout⟩
    · rw [Work.volumeDone_dropped hst]
      exact ((Work.setStapler_restaples s _ _ _).goesOn rfl hq hp hrun s).finish
  · refine exec_stays rfl ?_
    rw [Instr.comes, State.lateVolume_of hk, if_neg]
    · rfl
    · simpa [State.ranOut] using hlt
  · have hlate : s.lateVolume = some k := by
      rw [State.lateVolume_of hk]
      exact if_pos (by simpa [State.ranOut] using hle)
    have heff : Instr.stapleTimeout.effect (Work.of s) = ((Work.of s).volumeTimedOut k).settle s := by
      simp only [Instr.effect, Work.whenSome, Work.of_toState, hlate]
    have h : Work.Restapled s { s.stapler with
        state := .faulted, work := if s.stillStapling k then some { k with op := .none } else none, command := none }
        ((Work.of s).volumeTimedOut k) :=
      ⟨(Work.From.of s).evolves ((Evolves.refl _).volumeTimedOut k) (Work.frame_volumeTimedOut _ _), rfl, rfl, rfl, rfl, rfl⟩
    have hlatch : ((Work.of s).volumeTimedOut k).latched .mechFault = true := State.latched_latch_self _ _
    refine ⟨_, exec_comes (c := .stapleTimeout) rfl (by rw [Instr.comes, hlate]; rfl), ?_⟩
    rw [heff]
    obtain ⟨u, hu⟩ : ∃ u, u = (Work.of s).volumeTimedOut k := ⟨_, rfl⟩
    rw [← hu] at h hlatch ⊢
    obtain ⟨h1, h2, h3⟩ := h.keeps s
    exact ⟨h1, h2, h3, Work.finish_latched _ _ (((Evolves.refl u).settle s).latched _ hlatch), h.busy hs nofun s⟩

end Sys2Proof.Proofs
end

section
/-! SUPPORT. What a step that settles leaves alone in any run state, STARTING included (`Work.settle_begins`), and a pack
and its pocket as it settles (`Work.settle_housed`). -/

namespace Sys2Proof.Machine

/-! ### The pending purges start, and a start-up ends -/

/-- A pocket record but for its purge and its offset output. -/
def PocketRec.stack (r : PocketRec) : PocketRec :=
  { r with purge := .none, purgeStart := 0, purgeAllowance := 0, offset := false }

section
variable {w : Work} {k : Handle} {p : PocketId}

theorem Work.startPurge_stack (w : Work) (q p : PocketId) :
    ((w.startPurge q).plant.pocket p).stack = (w.plant.pocket p).stack := by
  unfold Work.startPurge
  dsimp only
  split
  · rw [Work.setPocket_plant]
    by_cases h : p = q
    · rw [h, Plant.setPocket_pocket_self]
      rfl
    · rw [Plant.setPocket_pocket_ne _ h]
  · rfl

/-- The end of a start-up cuts off the operations where it enters HALT, and else leaves Stapler and pockets alone. -/
theorem Work.endStartUp_plant (w : Work) : (w.endStartUp.plant.halted = true
      ∧ w.endStartUp.plant.pocket = (fun q => w.pockets[q].purgeCutOff)) ∨ w.endStartUp.plant.stapler = w.stapler
      ∧ w.endStartUp.plant.pocket = w.plant.pocket := by
  unfold Work.endStartUp
  split
  · split
    · exact .inr ⟨rfl, rfl⟩
    · unfold Work.leaveStarting
      dsimp only
      rw [Work.setReport_plant]
      split
      · obtain ⟨o, -, h⟩ := w.halt_plant .stop (startTarget _ w.run.straps.start)
        rw [h]
        exact .inl ⟨rfl, rfl⟩
      · rw [Work.enterTarget_plant]
        exact .inr ⟨rfl, rfl⟩
  · exact .inr ⟨rfl, rfl⟩

theorem PocketRec.stack_eq {r r' : PocketRec} (h : r.stack = r'.stack) :
    r.state = r'.state ∧ r.sheets = r'.sheets ∧ r.thickness = r'.thickness := by
  have h1 : r.stack.state = r'.stack.state ∧ r.stack.sheets = r'.stack.sheets ∧ r.stack.thickness = r'.stack.thickness := by
    rw [h]
    exact ⟨rfl, rfl, rfl⟩
  exact h1

theorem PocketRec.purgeCutOff_stack (r : PocketRec) : r.purgeCutOff.stack = r.stack := by
  unfold PocketRec.purgeCutOff
  split <;> rfl

theorem Work.started_stack (w : Work) (p : PocketId) : w.startPurges.endStartUp.pockets[p].stack = w.pockets[p].stack := by
  have hstart : (w.startPurges.plant.pocket p).stack = (w.plant.pocket p).stack := by
    unfold Work.startPurges
    exact Work.each_same (fun x => (x.plant.pocket p).stack) _ (fun x q => x.startPurge_stack q p) _ w
  refine Eq.trans ?_ hstart
  rcases w.startPurges.endStartUp_plant with ⟨-, h⟩ | ⟨-, h⟩
  · exact (congrArg PocketRec.stack (congrFun h p)).trans (PocketRec.purgeCutOff_stack _)
  · exact congrArg PocketRec.stack (congrFun h p)

theorem Work.started_pocket (hs : w.pockets[p].state ≠ .purging) (hr : w.pockets[p].purge ≠ .running) :
    w.startPurges.endStartUp.pockets[p] = w.pockets[p] := by
  have h : w.startPurges.plant.pocket p = w.plant.pocket p := w.startPurges_pocket hs
  exact (w.startPurges.endStartUp_pocket (by rw [h]; exact hr)).trans h

/-- The Stapler's record stands as a start-up ends, or the run state is then HALT. -/
theorem Work.started_stapler (w : Work) : w.startPurges.endStartUp.stapler = w.stapler
    ∨ w.startPurges.endStartUp.mayStart = false := by
  have hstapler := w.startPurges_stapler
  have hplant := w.startPurges.endStartUp_plant
  obtain ⟨x, hx⟩ : ∃ x, x = w.startPurges.endStartUp := ⟨_, rfl⟩
  rw [← hx] at hplant ⊢
  rcases hplant with ⟨h, -⟩ | ⟨h, -⟩
  · exact .inr (by rw [State.mayStart, show x.halted = true from h]; rfl)
  · exact .inl (h.trans hstapler)

theorem Work.started_feed (w : Work) (f : FeedId) : w.startPurges.endStartUp.feeds[f].state = w.feeds[f].state := by
  have h : w.startPurges.feeds = w.feeds := Work.feeds_of_merge w.merge_startPurges
  rcases w.startPurges.endStartUp_merge with hm | hm
  · rw [Work.feeds_of_merge hm, h]
  · rw [hm.2.2.1 f, h]
    rfl

/-- What a settling work begins with: the purges started, and a start-up ended. -/
theorem Work.settle_begins (w : Work) (b : State) : ∃ x : Work, w.settle b = x.judge.staple.rest b ∧ Settles x (w.settle b)
    ∧ Evolves w x ∧ Evolves x (w.settle b) ∧ x.reg = w.reg ∧ x.stapler.queue = w.stapler.queue
    ∧ (x.stapler = w.stapler ∨ x.mayStart = false) ∧ (∀ p : PocketId, x.pockets[p].stack = w.pockets[p].stack)
    ∧ (∀ p : PocketId, w.pockets[p].state ≠ .purging → w.pockets[p].purge ≠ .running → x.pockets[p] = w.pockets[p])
    ∧ ∀ f : FeedId, x.feeds[f].state = w.feeds[f].state := by
  have hreg := congrArg Core.reg w.core_started
  rw [Work.core_reg, Work.core_reg] at hreg
  refine ⟨w.startPurges.endStartUp, w.settle_rest b, Settles.rest b w, (Evolves.refl w).startPurges.endStartUp, ?_, hreg,
    Work.queue_of_core w.core_started, w.started_stapler, w.started_stack, fun p hs hr => Work.started_pocket hs hr,
    w.started_feed⟩
  rw [w.settle_rest]
  exact ((Evolves.refl w.startPurges.endStartUp).judge.staple).trans (Evolves.rest _ b)

/-! ### Packs and their pockets as a step settles -/

theorem Work.pack_of_reg {v : Work} (h : v.reg = w.reg) (k : Handle) : v.pack k = w.pack k := by
  rw [State.pack, State.pack, h]

/-- A pack that waits for no volume stays OPEN as the step settles. -/
theorem Work.settle_opened (b : State) (hq : k ∉ w.stapler.queue) (hk : (w.pack k).state = .opened) :
    ((w.settle b).pack k).state = .opened := by
  obtain ⟨x, -, hset, -, -, hreg, hqueue, -⟩ := w.settle_begins b
  exact hset.opened k (by rw [hqueue]; exact hq) (by rw [Work.pack_of_reg hreg]; exact hk)

/-- A READY pack stays READY as the step settles, or its delivery starts. -/
theorem Work.settle_finished (b : State) (hq : k ∉ w.stapler.queue) (hk : (w.pack k).state = .ready) :
    ((w.settle b).pack k).state = .ready ∨ ((w.settle b).pack k).state = .delivering := by
  obtain ⟨x, -, hset, -, -, hreg, hqueue, -⟩ := w.settle_begins b
  exact hset.ready k (by rw [hqueue]; exact hq) (by rw [Work.pack_of_reg hreg]; exact hk)

/-- The sheets of a stack stand as the step settles. -/
theorem Work.settle_stack (b : State) (hp : w.pockets[p].state ≠ .empty) :
    (w.settle b).pockets[p].sheets = w.pockets[p].sheets ∧ (w.settle b).pockets[p].thickness = w.pockets[p].thickness := by
  obtain ⟨x, -, hset, -, -, -, -, -, hstack, -⟩ := w.settle_begins b
  obtain ⟨hstate, hsheets, hthickness⟩ := PocketRec.stack_eq (hstack p)
  obtain ⟨-, h1, h2, -⟩ := hset.pockets p (by rw [hstate]; exact hp)
  exact ⟨h1.trans hsheets, h2.trans hthickness⟩

theorem Work.settle_feedState (b : State) (f : FeedId) : (w.settle b).feeds[f].state = w.feeds[f].state := by
  obtain ⟨x, -, hset, -, -, -, -, -, -, -, hfeed⟩ := w.settle_begins b
  exact (hset.feeds f).1.trans (hfeed f)

/-- A pack remade stands remade where its record stands, no queue takes it and no latch is cleared. -/
theorem State.Remade.of {s : State} {v : Work} (h : s.Remade k w) (hpack : v.pack k = w.pack k)
    (hqueue : k ∈ v.stapler.queue → k ∈ w.stapler.queue) (hclass : ∀ c, k ∈ v.classQueue c → k ∈ w.classQueue c)
    (hlatched : ∀ c, w.latched c = true → v.latched c = true) : s.Remade k v := by
  obtain ⟨hout, h⟩ := h
  refine ⟨fun hk => hout (hqueue hk), ?_⟩
  rw [hpack]
  split at h
  next hlt =>
    rw [if_pos hlt]
    exact ⟨h.1, hlatched _ h.2⟩
  next hlt =>
    rw [if_neg hlt]
    exact ⟨h.1, h.2.1, fun hk => h.2.2.1 (hclass _ hk), hlatched _ h.2.2.2⟩

/-- A pack remade stands remade once the step has settled, in any run state. -/
theorem State.Remade.remakes {s : State} (h : s.Remade k w) (b : State) : s.remakes (w.settle b).finish k := by
  obtain ⟨x, -, hset, hfirst, hthen, hreg, hqueue, -⟩ := w.settle_begins b
  have hbegun : s.Remade k x := h.of (Work.pack_of_reg hreg k) (by rw [hqueue]; exact id)
    (fun c => by rw [State.classQueue, hreg]; exact id) fun c => hfirst.latched c
  exact hbegun.settles hset hthen

/-- A Stapler that is not IDLE takes up nothing as the step settles. -/
theorem Work.settle_busy (b : State) (h : w.stapler.state ≠ .idle) : ∃ x : Work, w.settle b = x.rest b ∧ x.reg = w.reg
    ∧ x.stapler.queue = w.stapler.queue
    ∧ ∀ p : PocketId, w.pockets[p].state ≠ .purging → w.pockets[p].purge ≠ .running → x.pockets[p] = w.pockets[p] := by
  obtain ⟨x, hx, -, -, -, hreg, hqueue, hstapler, -, hpocket, -⟩ := w.settle_begins b
  refine ⟨x.judge, ?_, hreg, hqueue, hpocket⟩
  rw [hx, Work.staple, Work.takeUp_of_not_idle]
  exact hstapler.imp_left fun e => by
    rw [show x.judge.stapler = x.stapler from rfl, e]
    exact h

/-- What follows the Stapler's work leaves a pack alone that is neither ANNOUNCED, OPEN nor READY. -/
theorem Work.rest_pack (b : State) (ha : (w.pack k).state ≠ .announced) (ho : (w.pack k).state ≠ .opened)
    (hr : (w.pack k).state ≠ .ready) : (w.rest b).pack k = w.pack k := by
  have hdelivery : w.startDelivery.pack k = w.pack k := by
    unfold Work.startDelivery
    split
    · split
      · rfl
      next j hj =>
        split
        next q c hq hc =>
          rw [w.beginDelivery_pack j q c k, if_neg]
          intro e
          exact hr (e ▸ State.eligible_ready (List.find?_some hj))
        · rfl
    · rfl
  have hstop : w.startDelivery.endStopping.pack k = w.pack k :=
    (congrArg (fun P : Plant => P.pack k) w.startDelivery.endStopping_plant).trans hdelivery
  obtain ⟨y, hy⟩ : ∃ y, y = w.startDelivery.endStopping := ⟨_, rfl⟩
  rw [Work.rest, ← hy]
  rw [← hy] at hstop
  rw [(y.closed_leaves b (by rw [hstop]; exact ha) (by rw [hstop]; exact ho)).1, hstop]

/-- What follows the Stapler's work leaves the pocket of a pack alone, but that the delivery of a READY one may start. -/
theorem Work.rest_pocket (hs : w.plant.Sole k) (b : State) (hp : (w.pack k).pocket = some p) (he : w.pockets[p].state ≠ .empty) :
    (w.rest b).pockets[p] = w.pockets[p]
      ∨ (w.pack k).state = .ready ∧ (w.rest b).pockets[p] = { w.pockets[p] with state := .ejecting } := by
  have hstop (q : PocketId) : w.startDelivery.endStopping.pockets[q] = w.startDelivery.pockets[q] :=
    congrArg (fun P : Plant => P.pocket q) w.startDelivery.endStopping_plant
  have hdelivery := w.startDelivery_leaves hs
  have hreleased := (Work.Released.refl w.startDelivery.endStopping).decideReleases
  obtain ⟨bs, a, m, o, hc⟩ := w.startDelivery.endStopping.decideReleases.closed_shape b
  have hclosed : (w.rest b).pockets = w.startDelivery.endStopping.decideReleases.pockets := by rw [Work.rest, hc]
  obtain ⟨d, hd⟩ : ∃ d, d = w.startDelivery.endStopping.decideReleases := ⟨_, rfl⟩
  rw [← hd] at hreleased hclosed
  obtain ⟨z, hz⟩ : ∃ z, z = w.startDelivery.endStopping := ⟨_, rfl⟩
  rw [← hz] at hstop hreleased
  rw [hclosed]
  have hkeeps (h : z.pockets[p].state ≠ .empty) : d.pockets[p] = z.pockets[p] := by
    rcases hreleased.pockets p with e | ⟨e, -⟩
    · exact e
    · exact absurd e h
  rcases hdelivery with h | ⟨h1, -, h3⟩
  · have hsame : z.pockets[p] = w.pockets[p] := (hstop p).trans (h.pocket p hp)
    exact .inl ((hkeeps (by rw [hsame]; exact he)).trans hsame)
  · have hsame : z.pockets[p] = { w.pockets[p] with state := .ejecting } := (hstop p).trans (h3 p hp)
    exact .inr ⟨h1, (hkeeps (by rw [hsame]; exact nofun)).trans hsame⟩

/-- The pocket of a pack that waits for no volume stands as the step settles, but that the delivery of a READY one may
start. -/
theorem Work.settle_housed (hs : w.plant.Sole k) (b : State) (hq : k ∉ w.stapler.queue) (hp : (w.pack k).pocket = some p)
    (he : w.pockets[p].state ≠ .empty) (hg : w.pockets[p].state ≠ .purging) (hr : w.pockets[p].purge ≠ .running) :
    (w.settle b).pockets[p] = w.pockets[p]
      ∨ (w.pack k).state = .ready ∧ (w.settle b).pockets[p] = { w.pockets[p] with state := .ejecting } := by
  obtain ⟨x, hx, -, -, -, hreg, hqueue, -, -, hpocket, -⟩ := w.settle_begins b
  have hsame := hpocket p hg hr
  have hpack (j : Handle) : x.judge.pack j = w.pack j := Work.pack_of_reg hreg j
  have hsole : x.judge.plant.Sole k := hs.of fun j => by
    rw [State.plant_pack, hpack]
    rfl
  obtain ⟨hleaves, -⟩ := Work.takeUp_leaves hsole (show k ∉ x.judge.stapler.queue from hqueue ▸ hq)
    (x.judge.stapler.queue.length + 1)
  rw [← Work.staple] at hleaves
  obtain ⟨y, hy⟩ : ∃ y, y = x.judge.staple := ⟨_, rfl⟩
  rw [hx, ← hy]
  rw [← hy] at hleaves
  have hself : y.pack k = w.pack k := hleaves.pack.trans (hpack k)
  have hown : y.pockets[p] = w.pockets[p] :=
    (hleaves.pocket p (by rw [State.plant_pack, hpack]; exact hp)).trans hsame
  have h := y.rest_pocket (hsole.of hleaves.names) b (by rw [hself]; exact hp) (by rw [hown]; exact he)
  rwa [hself, hown] at h

end

end Sys2Proof.Machine
end

section
/-! SUPPORT. A sheet that is gated and admitted (`State.Admits`): the settling of `Obligations.ArrivalOfTheHeadIsTaken`. -/

namespace Sys2Proof.Machine

/-! ### A sheet admitted (R75 to R77) -/

/-- The pack record once a sheet is admitted: the last page makes it READY or COMPLETE (R11). -/
def PackRec.grown (r : PackRec) : PackRec :=
  { r with
    received := r.received + 1
    state := if r.received + 1 = r.pages then (if r.snap.plan.stapled then .complete else .ready) else r.state }

/-- A sheet has been admitted to pack `k` and its pocket `p`, and nothing else has changed but what a marked entry, an
occasion and the delivery queue follow with. -/
structure State.Admits (w : State) (k : Handle) (p : PocketId) (v : Work) : Prop where
  reg : v.reg = { w.reg with packs := Sparse.put PackRec.cleared w.reg.packs k (w.pack k).grown }
  pockets : v.pockets = w.pockets.set p (w.pockets[p].admitted (w.pack k))
  stapler : v.stapler = if (w.pack k).received + 1 = (w.pack k).pages ∧ (w.pack k).snap.plan.stapled = true
    then { w.stapler with queue := w.stapler.queue ++ [k] } else w.stapler
  feeds : v.feeds = w.feeds
  run : v.run = w.run
  bins : v.ret.bins = w.ret.bins

section
variable {w : Work} {k : Handle} {p : PocketId}

theorem Work.admitSheet_ignored (h : (w.pack k).released ≤ (w.pack k).received) (p : PocketId) : w.admitSheet k p = w := if_pos h

theorem Work.admitSheet_admits (h : (w.pack k).received < (w.pack k).released) (p : PocketId) :
    w.toState.Admits k p (w.admitSheet k p) := by
  unfold Work.admitSheet
  dsimp only
  rw [if_neg (Nat.not_le.2 h)]
  split
  next hlast =>
    split
    next hs =>
      have hgrown : (w.pack k).grown = { w.pack k with received := (w.pack k).received + 1, state := .complete } := by
        rw [PackRec.grown, if_pos hlast, if_pos hs]
      constructor <;> (try rw [hgrown]) <;> simp [Work.setStaplerRec, hlast, hs]
    next hs =>
      have hgrown : (w.pack k).grown = { w.pack k with received := (w.pack k).received + 1, state := .ready } := by
        rw [PackRec.grown, if_pos hlast, if_neg hs]
      constructor <;> (try rw [hgrown]) <;> simp [Work.judge, hlast, hs]
  next hlast =>
    have hgrown : (w.pack k).grown = { w.pack k with received := (w.pack k).received + 1 } := by
      rw [PackRec.grown, if_neg hlast]
    constructor <;> (try rw [hgrown]) <;> simp [hlast]

theorem Work.admitSheet_keeps (w : Work) (k : Handle) (p : PocketId) : (w.admitSheet k p).arb = w.arb
    ∧ (w.admitSheet k p).notices = w.notices := by
  unfold Work.admitSheet
  dsimp only
  split
  · exact ⟨rfl, rfl⟩
  · split
    · split <;> simp [Work.setStaplerRec, Work.judge]
    · simp

theorem State.pack_of_put {s t : State} {r : PackRec}
    (h : t.reg = { s.reg with packs := Sparse.put PackRec.cleared s.reg.packs k r }) (j : Handle) :
    t.pack j = if j = k then r else s.pack j := by
  have hset := (Work.of s).pack_setPack k j r
  rw [Work.of_toState] at hset
  rw [← hset, State.pack, State.pack, h, Work.setPack_reg]
  rfl

end

namespace State.Admits

variable {w : State} {v : Work} {k : Handle} {p : PocketId}

variable (h : w.Admits k p v)
include h

theorem self : v.pack k = (w.pack k).grown := by rw [State.pack_of_put h.reg, if_pos rfl]

theorem others {j : Handle} (hj : j ≠ k) : v.pack j = w.pack j := by rw [State.pack_of_put h.reg, if_neg hj]

theorem pocket : v.pockets[p] = w.pockets[p].admitted (w.pack k) := by
  rw [h.pockets]
  exact Vector.getElem_set_self p.isLt

theorem pocket_ne {q : PocketId} (hq : q ≠ p) : v.pockets[q] = w.pockets[q] := by
  rw [h.pockets]
  exact Vector.getElem_set_ne p.isLt q.isLt (Fin.val_ne_of_ne (Ne.symm hq))

end State.Admits

section
variable {w : Work} {k : Handle} {p : PocketId} {e : InFlight}

/-! ### The head's sheet (R56, R69) -/

theorem Work.takeHead_discard (h : e.disp = .discard) : w.takeHead e = w.dropHead.setGate .reject := by
  unfold Work.takeHead
  rw [h]

theorem Work.takeHead_pass (h : e.disp = .pass) : w.takeHead e = w.dropHead.setGate .passThrough := by
  unfold Work.takeHead
  rw [h]

theorem Work.takeHead_rejects (h : e.disp = .collate) (hk : e.handle = some k)
    (hn : ¬((w.pack k).state = .opened ∧ (w.pack k).gen = e.gen)) : w.takeHead e = w.dropHead.setGate .reject := by
  unfold Work.takeHead
  rw [h, hk]
  dsimp only
  split
  · exact if_neg hn
  · rfl

theorem Work.takeHead_collates (h : e.disp = .collate) (hk : e.handle = some k) (ho : (w.pack k).state = .opened)
    (hg : (w.pack k).gen = e.gen) (hp : (w.pack k).pocket = some p) :
    w.takeHead e = (w.dropHead.setGate (.pocket p)).admitSheet k p := by
  unfold Work.takeHead
  rw [h, hk]
  dsimp only
  have hpack : w.dropHead.pack k = w.pack k := rfl
  rw [hpack, hp]
  exact if_pos ⟨ho, hg⟩

/-- The head's sheet is gated and goes no further, or it is admitted to its pack. -/
theorem Work.takeHead_is (w : Work) (e : InFlight) : (∃ g, w.takeHead e = w.dropHead.setGate g)
    ∨ ∃ k p, e.handle = some k ∧ (w.pack k).state = .opened
      ∧ w.toState.Admits k p (w.takeHead e) ∧ w.takeHead e = (w.dropHead.setGate (.pocket p)).admitSheet k p := by
  cases hd : e.disp with
  | discard => exact .inl ⟨_, Work.takeHead_discard hd⟩
  | pass => exact .inl ⟨_, Work.takeHead_pass hd⟩
  | collate =>
    cases hk : e.handle with
    | none => exact .inl ⟨.reject, by unfold Work.takeHead; rw [hd, hk]⟩
    | some k =>
      by_cases ho : (w.pack k).state = .opened ∧ (w.pack k).gen = e.gen
      · cases hp : (w.pack k).pocket with
        | none =>
          refine .inl ⟨.reject, ?_⟩
          unfold Work.takeHead
          rw [hd, hk]
          dsimp only
          rw [show w.dropHead.pack k = w.pack k from rfl, hp]
        | some p =>
          rw [Work.takeHead_collates hd hk ho.1 ho.2 hp]
          by_cases hr : (w.pack k).received < (w.pack k).released
          · obtain ⟨h1, h2, h3, h4, h5, h6⟩ := Work.admitSheet_admits (w := w.dropHead.setGate (.pocket p)) hr p
            exact .inr ⟨k, p, rfl, ho.1, ⟨h1, h2, h3, h4, h5, h6⟩, rfl⟩
          · exact .inl ⟨_, Work.admitSheet_ignored (w := w.dropHead.setGate (.pocket p)) (Nat.not_lt.1 hr) p⟩
      · exact .inl ⟨_, Work.takeHead_rejects hd hk ho⟩

theorem Work.takeHead_keeps (w : Work) (e : InFlight) : (w.takeHead e).arb.inFlight = w.arb.inFlight.tail
    ∧ (w.takeHead e).feeds = w.feeds ∧ (w.takeHead e).run = w.run ∧ (w.takeHead e).notices = w.notices
    ∧ (w.takeHead e).ret.bins = w.ret.bins ∧ (w.takeHead e).reg.queues = w.reg.queues := by
  rcases w.takeHead_is e with ⟨g, h⟩ | ⟨k, p, -, -, h, heq⟩
  · rw [h]
    exact ⟨rfl, rfl, rfl, rfl, rfl, rfl⟩
  · obtain ⟨harb, hnotices⟩ := (w.dropHead.setGate (.pocket p)).admitSheet_keeps k p
    rw [← heq] at harb hnotices
    exact ⟨by rw [harb]; rfl, h.feeds, h.run, hnotices, h.bins, by rw [h.reg]⟩

end

/-! ### The pack that a sheet joins -/

section
variable {w : State} {v : Work} {k : Handle} {p : PocketId}

theorem State.Admits.sound (h : w.Admits k p v) (hq : w.stapleQueueSound) (ho : (w.pack k).state = .opened) :
    v.toState.stapleQueueSound := by
  have hk : k ∉ w.stapler.queue := hq.not_mem (by rw [ho]; exact nofun) (by rw [ho]; exact nofun)
  rw [State.stapleQueueSound, h.stapler]
  split
  next hlast =>
    refine ⟨List.nodup_append.2 ⟨hq.1, List.nodup_singleton k, fun a ha b hb => ?_⟩, fun j hj => ?_⟩
    · rw [List.mem_singleton.1 hb]
      exact fun e => hk (e ▸ ha)
    · by_cases e : j = k
      · rw [e, h.self, PackRec.grown, if_pos hlast.1, if_pos hlast.2]
        exact .inl rfl
      · rw [h.others e]
        rcases List.mem_append.1 hj with hj | hj
        · exact hq.2 j hj
        · exact absurd (List.mem_singleton.1 hj) e
  · refine ⟨hq.1, fun j hj => ?_⟩
    rw [h.others fun e => hk (e ▸ hj)]
    exact hq.2 j hj

theorem PocketRec.admitted_pack (r : PocketRec) (x : PackRec) : (r.admitted x).pack = r.pack
    ∧ ((r.admitted x).state = r.state ∨ (r.admitted x).state = .held)
    ∧ (r.admitted x).purge = r.purge ∧ (r.admitted x).sheets = r.sheets + 1
    ∧ (r.admitted x).thickness = r.thickness + (if r.sheets = 0 then x.snap.cover else x.snap.body) := by
  have hcover : (if r.sheets + 1 = 1 then x.snap.cover else x.snap.body) = if r.sheets = 0 then x.snap.cover else x.snap.body := by
    simp
  unfold PocketRec.admitted
  dsimp only
  rw [hcover]
  split
  · exact ⟨rfl, .inr rfl, rfl, rfl, rfl⟩
  · split <;> exact ⟨rfl, .inl rfl, rfl, rfl, rfl⟩

theorem State.Admits.named (h : w.Admits k p v) (j : Handle) : (v.pack j).pocket = (w.pack j).pocket := by
  by_cases e : j = k
  · rw [e, h.self]
    rfl
  · rw [h.others e]

theorem State.Admits.agree (h : w.Admits k p v) (hp : w.pocketsAgree) (ho : (w.pack k).state = .opened)
    (hkp : (w.pack k).pocket = some p) : v.toState.pocketsAgree := by
  have hpocket (q : PocketId) : v.pockets[q].pack = w.pockets[q].pack
      ∧ (v.pockets[q].state = w.pockets[q].state ∨ q = p ∧ v.pockets[q].state = .held) := by
    by_cases e : q = p
    · rw [e, h.pocket]
      obtain ⟨h1, h2, -⟩ := w.pockets[p].admitted_pack (w.pack k)
      exact ⟨h1, h2.imp_right fun e => ⟨rfl, e⟩⟩
    · rw [h.pocket_ne e]
      exact ⟨rfl, .inl rfl⟩
  refine ⟨fun q j => ?_, fun j => ?_⟩
  · rw [(hpocket q).1, h.named j]
    exact hp.1 q j
  · by_cases e : j = k
    · rw [e, h.self]
      have hhoused : (w.pack k).grown.state.housedBy = [.collating, .held, .stapling] := by
        rw [PackRec.grown]
        dsimp only
        split
        · split <;> rfl
        · rw [ho]
          rfl
      have hold := (hp.2 k).2
      rw [ho] at hold
      refine ⟨fun hn => ?_, fun q hq => ?_⟩
      · rw [show (w.pack k).grown.pocket = (w.pack k).pocket from rfl, hkp] at hn
        cases hn
      · rw [hhoused]
        rcases (hpocket q).2 with hs | ⟨-, hs⟩
        · rw [hs]
          exact hold q hq
        · rw [hs]
          simp
    · rw [h.others e]
      refine ⟨(hp.2 j).1, fun q hq => ?_⟩
      rcases (hpocket q).2 with hs | ⟨hqp, -⟩
      · rw [hs]
        exact (hp.2 j).2 q hq
      · rw [hqp] at hq
        exact absurd (State.sole_of_agree hp k j p hkp hq) e

end

end Sys2Proof.Machine
end

section
/-! SUPPORT. The step of an admitted sheet settled (`State.Admits`), and the settling of
`Obligations.ArrivalOfTheHeadIsTaken`. -/

namespace Sys2Proof.Machine

namespace State.Admits

variable {s : State} {u : Work} {k : Handle} {p : PocketId} (h : s.Admits k p u)
include h

/-- The pack's counts as the step ends, and those of every other pack. -/
theorem counts (b : State) : ((u.settle b).finish.pack k).fixed = (s.pack k).fixed
    ∧ ((u.settle b).finish.pack k).gen = (s.pack k).gen
    ∧ ((u.settle b).finish.pack k).received = (s.pack k).received + 1
    ∧ (∀ j : Handle, j ≠ k → ((u.settle b).finish.pack j).fixed = (s.pack j).fixed
        ∧ ((u.settle b).finish.pack j).gen = (s.pack j).gen
        ∧ ((u.settle b).finish.pack j).received = (s.pack j).received)
    ∧ (u.settle b).finish.reg.queues = s.reg.queues := by
  obtain ⟨hqueues, -, -, hpacks⟩ := Work.settle_keepsPacks b u
  have hself := hpacks k
  rw [h.self] at hself
  obtain ⟨h1, h2, h3⟩ := hself
  rw [Work.finish_pack, Work.finish_reg]
  refine ⟨h1, h2, h3, fun j hj => ?_, hqueues.trans (by rw [h.reg])⟩
  have hother := hpacks j
  rw [h.others hj] at hother
  rw [Work.finish_pack]
  exact hother

theorem stack (b : State) (he : s.pockets[p].state ≠ .empty) :
    (u.settle b).finish.pockets[p].sheets = s.pockets[p].sheets + 1
      ∧ (u.settle b).finish.pockets[p].thickness = s.pockets[p].thickness
          + (if s.pockets[p].sheets = 0 then (s.pack k).snap.cover else (s.pack k).snap.body) := by
  obtain ⟨-, hstate, -, hsheets, hthickness⟩ := s.pockets[p].admitted_pack (s.pack k)
  obtain ⟨h1, h2⟩ := Work.settle_stack b (w := u) (p := p) (by
    rw [h.pocket]
    rcases hstate with e | e <;> rw [e]
    · exact he
    · exact nofun)
  rw [Work.finish_pockets, h1, h2, h.pocket]
  exact ⟨hsheets, hthickness⟩

section
variable (hq : s.stapleQueueSound) (ho : (s.pack k).state = .opened)
include hq ho

omit h in
theorem notQueued : k ∉ s.stapler.queue := hq.not_mem (by rw [ho]; exact nofun) (by rw [ho]; exact nofun)

theorem queue_of_not (hn : ¬((s.pack k).received + 1 = (s.pack k).pages ∧ (s.pack k).snap.plan.stapled = true)) :
    k ∉ u.stapler.queue := by
  rw [h.stapler, if_neg hn]
  exact State.Admits.notQueued hq ho

omit hq in
theorem state_midway (hk : (s.pack k).received + 1 ≠ (s.pack k).pages) : (u.pack k).state = .opened := by
  rw [h.self, PackRec.grown, if_neg hk]
  exact ho

theorem midway (b : State) (hk : (s.pack k).received + 1 ≠ (s.pack k).pages) :
    ((u.settle b).finish.pack k).state = .opened := by
  rw [Work.finish_pack]
  exact Work.settle_opened b (h.queue_of_not hq ho fun e => hk e.1) (h.state_midway ho hk)

omit hq ho in
theorem state_unstapled (hk : (s.pack k).received + 1 = (s.pack k).pages) (hs : (s.pack k).snap.plan.stapled = false) :
    (u.pack k).state = .ready := by
  rw [h.self, PackRec.grown, if_pos hk, if_neg (by rw [hs]; exact nofun)]

theorem unstapled (b : State) (hk : (s.pack k).received + 1 = (s.pack k).pages) (hs : (s.pack k).snap.plan.stapled = false) :
    ((u.settle b).finish.pack k).state = .ready ∨ ((u.settle b).finish.pack k).state = .delivering := by
  rw [Work.finish_pack]
  exact Work.settle_finished b (h.queue_of_not hq ho fun e => by rw [hs] at e; cases e.2) (h.state_unstapled hk hs)

omit hq ho in
theorem state_stapled (hk : (s.pack k).received + 1 = (s.pack k).pages) (hs : (s.pack k).snap.plan.stapled = true) :
    (u.pack k).state = .complete ∧ u.stapler = { s.stapler with queue := s.stapler.queue ++ [k] } := by
  rw [h.self, PackRec.grown, if_pos hk, if_pos hs, h.stapler, if_pos ⟨hk, hs⟩]
  exact ⟨rfl, rfl⟩

omit hq ho in
/-- A Stapler that is not IDLE leaves the COMPLETE pack at the tail of its queue. -/
theorem stapled (b : State) (hk : (s.pack k).received + 1 = (s.pack k).pages) (hs : (s.pack k).snap.plan.stapled = true)
    (hi : s.stapler.state ≠ .idle) : ((u.settle b).finish.pack k).state = .complete
      ∧ (u.settle b).finish.stapler.queue = s.stapler.queue ++ [k] := by
  obtain ⟨hstate, hstapler⟩ := h.state_stapled hk hs
  obtain ⟨x, hx, hreg, hqueue, -⟩ := Work.settle_busy b (w := u) (by rw [hstapler]; exact hi)
  have hpack : x.pack k = u.pack k := Work.pack_of_reg hreg k
  rw [Work.finish_pack, Work.finish_stapler, hx, x.rest_stapler, hqueue, hstapler,
    Work.rest_pack b (by rw [hpack, hstate]; exact nofun) (by rw [hpack, hstate]; exact nofun)
      (by rw [hpack, hstate]; exact nofun), hpack]
  exact ⟨hstate, rfl⟩

end

/-! ### The pocket that a sheet joins (R75 to R77) -/

/-- The pocket once the sheet has joined its stack, sheets held standing at the pages received. -/
theorem pocket_midway (hsheets : s.pockets[p].sheets = (s.pack k).received)
    (hk : (s.pack k).received + 1 ≠ (s.pack k).pages) :
    u.pockets[p] = if s.pockets[p].volume < (s.pack k).snap.plan.ends.length
          ∧ (s.pack k).snap.plan.ends[s.pockets[p].volume - 1]? = some ((s.pack k).received + 1)
        then { s.pockets[p] with
          sheets := (s.pack k).received + 1
          thickness := s.pockets[p].thickness
            + (if (s.pack k).received + 1 = 1 then (s.pack k).snap.cover else (s.pack k).snap.body)
          volume := s.pockets[p].volume + 1, offset := decide ((s.pockets[p].volume + 1) % 2 = 0) }
        else { s.pockets[p] with
          sheets := (s.pack k).received + 1
          thickness := s.pockets[p].thickness
            + (if (s.pack k).received + 1 = 1 then (s.pack k).snap.cover else (s.pack k).snap.body) } := by
  rw [h.pocket]
  unfold PocketRec.admitted
  dsimp only
  rw [hsheets, if_neg hk]
  rfl

theorem pocket_last (hsheets : s.pockets[p].sheets = (s.pack k).received)
    (hk : (s.pack k).received + 1 = (s.pack k).pages) :
    u.pockets[p] = { s.pockets[p] with
      sheets := (s.pack k).received + 1
      thickness := s.pockets[p].thickness
        + (if (s.pack k).received + 1 = 1 then (s.pack k).snap.cover else (s.pack k).snap.body)
      state := .held, volume := (s.pack k).snap.plan.ends.length, offset := false } := by
  rw [h.pocket]
  unfold PocketRec.admitted
  dsimp only
  rw [hsheets, if_pos hk]

section
variable (hp : s.pocketsAgree) (hs : s.stacksSound) (ho : (s.pack k).state = .opened) (hkp : (s.pack k).pocket = some p)
include hp hs ho hkp

omit h hp in
/-- The pocket of an OPEN pack is COLLATING, with no purge and the pages received in it. -/
theorem housed : s.pockets[p].state = .collating ∧ s.pockets[p].purge = .none ∧ s.pockets[p].sheets = (s.pack k).received := by
  obtain ⟨hstate, -, -, hsheets⟩ := hs.2 k p hkp
  have hcollating := hstate ho
  exact ⟨hcollating, (hs.1 p).1.2 (by rw [hcollating]; exact nofun),
    hsheets (by rw [ho]; exact nofun) (by rw [ho]; exact nofun)⟩

/-- What the settling does to the pocket: nothing, but that the delivery of a READY pack may start. -/
theorem settles_pocket (b : State) (hn : k ∉ u.stapler.queue) : (u.settle b).pockets[p] = u.pockets[p]
    ∨ (u.pack k).state = .ready ∧ (u.settle b).pockets[p] = { u.pockets[p] with state := .ejecting } := by
  obtain ⟨hstate, hpurge, -⟩ := State.Admits.housed hs ho hkp
  obtain ⟨-, hstate', hpurge', -⟩ := s.pockets[p].admitted_pack (s.pack k)
  rw [← h.pocket, hstate] at hstate'
  rw [← h.pocket, hpurge] at hpurge'
  exact Work.settle_housed (State.sole_of_agree (h.agree hp ho hkp) k) b hn ((h.named k).trans hkp)
    (by rcases hstate' with e | e <;> rw [e] <;> exact nofun) (by rcases hstate' with e | e <;> rw [e] <;> exact nofun)
    (by rw [hpurge']; exact nofun)

theorem midway_pocket (hq : s.stapleQueueSound) (b : State) (hk : (s.pack k).received + 1 ≠ (s.pack k).pages) :
    (u.settle b).finish.pockets[p] = u.pockets[p] := by
  rw [Work.finish_pockets]
  rcases h.settles_pocket hp hs ho hkp b (h.queue_of_not hq ho fun e => hk e.1) with e | ⟨e, -⟩
  · exact e
  · rw [h.state_midway ho hk] at e
    cases e

theorem unstapled_pocket (hq : s.stapleQueueSound) (b : State) (hn : (s.pack k).snap.plan.stapled = false) :
    (u.settle b).finish.pockets[p] = u.pockets[p]
      ∨ (u.settle b).finish.pockets[p] = { u.pockets[p] with state := .ejecting } := by
  rw [Work.finish_pockets]
  exact (h.settles_pocket hp hs ho hkp b (h.queue_of_not hq ho fun e => by rw [hn] at e; cases e.2)).imp_right And.right

theorem stapled_pocket (b : State) (hk : (s.pack k).received + 1 = (s.pack k).pages)
    (hc : (s.pack k).snap.plan.stapled = true) (hi : s.stapler.state ≠ .idle) :
    (u.settle b).finish.pockets[p] = u.pockets[p] := by
  obtain ⟨hstate, hstapler⟩ := h.state_stapled hk hc
  obtain ⟨-, hpurge, hsheets⟩ := State.Admits.housed hs ho hkp
  have hheld := h.pocket_last hsheets hk
  have hplace : u.pockets[p].state = .held ∧ u.pockets[p].purge = .none := by
    rw [hheld]
    exact ⟨rfl, hpurge⟩
  obtain ⟨x, hx, hreg, -, hpocket⟩ := Work.settle_busy b (w := u) (by rw [hstapler]; exact hi)
  have hsame := hpocket p (by rw [hplace.1]; exact nofun) (by rw [hplace.2]; exact nofun)
  have hpack (j : Handle) : x.pack j = u.pack j := Work.pack_of_reg hreg j
  have hsole : x.plant.Sole k := (State.sole_of_agree (h.agree hp ho hkp) k).of fun j => by
    rw [State.plant_pack, hpack]
    rfl
  rw [Work.finish_pockets, hx]
  rcases x.rest_pocket hsole b (by rw [hpack, h.named, hkp]) (by rw [hsame, hplace.1]; exact nofun) with e | ⟨e, -⟩
  · rw [e, hsame]
  · rw [hpack, hstate] at e
    cases e

/-- An IDLE Stapler goes on with the COMPLETE pack at the tail of its queue (R97). -/
theorem goesOn (hq : s.stapleQueueSound) (b : State) (hk : (s.pack k).received + 1 = (s.pack k).pages)
    (hc : (s.pack k).snap.plan.stapled = true) (hi : s.stapler.state = .idle) (hcommand : s.stapler.command = none)
    (hst : s.starting = true → s.anyPurging = true) (hnow : u.now = s.now)
    (hset : u.tables.settings = s.tables.settings) {full : PackRec} (hfull : full = (s.pack k).grown)
    {held : PocketRec} (hheld : held = u.pockets[p]) {x : State} (hx : x = { s with
      reg := { s.reg with packs := Sparse.put PackRec.cleared s.reg.packs k full }
      pockets := s.pockets.set p held
      stapler := { s.stapler with queue := s.stapler.queue ++ [k] } }) :
    x.goesOn (u.settle b).finish s.stapler.work s.stapler.remaining := by
  obtain ⟨-, hstapler⟩ := h.state_stapled hk hc
  obtain ⟨hcollating, -, hsheets⟩ := State.Admits.housed hs ho hkp
  have hreg := h.reg
  rw [← hfull] at hreg
  have hpockets := h.pockets
  rw [← h.pocket, ← hheld] at hpockets
  have hpurging : u.anyPurging = s.anyPurging := by
    rw [State.anyPurging, State.anyPurging]
    congr 1
    funext q
    by_cases e : q = p
    · rw [e, h.pocket_last hsheets hk, hcollating]
      rfl
    · rw [h.pocket_ne e]
  have hstarting : u.starting = s.starting := by rw [State.starting, State.starting, h.run]
  have hgoes := Work.settle_goesOn (w := u) b (by rw [hstapler]; exact hi) (by rw [hstapler]; exact hcommand)
    (h.sound hq ho) (h.agree hp ho hkp) (by rw [hstarting, hpurging]; exact hst)
  have hpack : u.pack = x.pack := by
    funext j
    rw [State.pack, State.pack, hreg, hx]
  have hmay : u.mayStart = x.mayStart := by
    rw [State.mayStart, State.mayStart, State.halted, State.halted, State.starting, State.starting, h.run, hx]
  refine (State.goesOn_of hgoes ?_ hpack hmay (by rw [hx]; exact hnow) (by rw [hx]; exact hset)
    (by rw [hx]; exact hpockets)).finish
  rw [hstapler, hx, ← hi, ← hcommand]

end

end State.Admits

theorem Work.takeArrival_taken {w : Work} {tag : Option TagNum} (h : w.halted = false) :
    w.takeArrival tag = ((w.matchArrival tag).occasionIf true).settle w.toState := if_neg (by rw [h]; exact nofun)

/-- The command of an arrival outside HALT. -/
theorem exec_arrival (tag : Option TagNum) {s : State} (hh : s.halted = false) :
    exec (.arrival tag) s = .next ((((Work.of s).matchArrival tag).occasionIf true).settle s).finish := by
  rw [exec_comes (c := .arrival tag) rfl rfl, Instr.effect]
  show Host.Outcome.next ((Work.of s).takeArrival tag).finish = _
  rw [Work.takeArrival_taken (by rw [Work.of_toState]; exact hh), Work.of_toState]

theorem Work.matchArrival_head {w : Work} {e : InFlight} {rest : List InFlight} {tag : Option TagNum}
    (hq : w.arb.inFlight = e :: rest) (hm : e.meets tag = true) : w.matchArrival tag = w.restartTimer.takeHead e := by
  unfold Work.matchArrival
  rw [hq]
  exact if_pos hm

end Sys2Proof.Machine

namespace Sys2Proof.Proofs

open Sys2Proof.Machine

/-- Settles O42: the head is gated, and an admitted sheet changes its pack, its pocket and the staple queue alone, which
the settling then goes on from. -/
theorem arrivalOfTheHeadIsTaken : Obligations.ArrivalOfTheHeadIsTaken := by
  unfold Obligations.ArrivalOfTheHeadIsTaken
  intro tag s e rest hh hlist hq hmeets
  have hm : e.meets tag = true := by
    unfold InFlight.meets
    rcases hmeets with h | h | h | ⟨n, hn, h⟩
    · rw [h]; rfl
    · rw [h]; simp
    · rw [h]; simp
    · rw [h, hn]; simp
  obtain ⟨w, hw⟩ : ∃ w, w = (Work.of s).restartTimer := ⟨_, rfl⟩
  have hstate : w.toState = s := by rw [hw]; rfl
  have hfrom : Work.From s w := hw ▸ (Work.From.of s).evolves (Evolves.refl _).restartTimer (Work.frame_restartTimer _)
  have heff := exec_arrival tag hh
  rw [Work.matchArrival_head (w := Work.of s) hlist hm, ← hw] at heff
  obtain ⟨hflight, -, -, -, hbins, -⟩ := w.takeHead_keeps e
  have htail : (w.takeHead e).arb.inFlight = rest := by rw [hflight, hstate, hlist]; rfl
  have hfromU : Work.From s ((w.takeHead e).occasionIf true) :=
    (hfrom.evolves ((Evolves.refl _).takeHead e) (Work.frame_takeHead _ _)).evolves ((Evolves.refl _).occasionIf _) rfl
  have hgate (g : Gate) (h : (w.takeHead e).arb.gate = g) :
      ((((w.takeHead e).occasionIf true).settle s).finish).arb.gate = g := by
    rw [Work.finish_arb, (Work.settle_arb s _).1]
    exact h
  have hkeeps (h : (w.takeHead e).reg = s.reg) : s.keepsPacks (((w.takeHead e).occasionIf true).settle s).finish :=
    ((State.keepsPacks_of_reg (t := ((w.takeHead e).occasionIf true).toState) h).settle s).finish
  refine ⟨_, heff, (hfromU.settle s).surrounds, ?_, ?_, fun hd => ?_, fun hd => ?_, fun k hd hk => ⟨fun hn => ?_, fun p ho hg hp => ?_⟩⟩
  · refine ((State.keepsBins_of_bins (t := ((w.takeHead e).occasionIf true).toState) ?_ []).settle s).finish
    exact hbins.trans (by rw [hstate])
  · rw [Work.finish_arb, ← htail]
    exact (Work.settle_arb s ((w.takeHead e).occasionIf true)).2.1
  · exact ⟨hgate _ (by rw [Work.takeHead_discard hd]; rfl), hkeeps (by rw [Work.takeHead_discard hd, ← hstate]; rfl)⟩
  · exact ⟨hgate _ (by rw [Work.takeHead_pass hd]; rfl), hkeeps (by rw [Work.takeHead_pass hd, ← hstate]; rfl)⟩
  · have hrejects := Work.takeHead_rejects (w := w) hd hk (by rw [hstate]; exact hn)
    exact ⟨hgate _ (by rw [hrejects]; rfl), hkeeps (by rw [hrejects, ← hstate]; rfl)⟩
  · have hcollates : w.takeHead e = (w.dropHead.setGate (.pocket p)).admitSheet k p :=
      Work.takeHead_collates hd hk (by rw [hstate]; exact ho) (by rw [hstate]; exact hg) (by rw [hstate]; exact hp)
    have harb := ((w.dropHead.setGate (.pocket p)).admitSheet_keeps k p).1
    rw [← hcollates] at harb
    refine ⟨hgate _ (by rw [harb]; rfl), fun hle => hkeeps ?_, fun hlt => ?_⟩
    · rw [hcollates, Work.admitSheet_ignored (w := w.dropHead.setGate (.pocket p)) (by rw [← hstate] at hle; exact hle), ← hstate]
      rfl
    have hadm : s.Admits k p ((w.takeHead e).occasionIf true) := by
      rw [← hstate] at hlt
      obtain ⟨h1, h2, h3, h4, h5, h6⟩ := Work.admitSheet_admits (w := w.dropHead.setGate (.pocket p)) hlt p
      rw [← hcollates] at h1 h2 h3 h4 h5 h6
      rw [← hstate]
      exact ⟨h1, h2, h3, h4, h5, h6⟩
    obtain ⟨u, hu⟩ : ∃ u, u = (w.takeHead e).occasionIf true := ⟨_, rfl⟩
    rw [← hu] at hadm hfromU ⊢
    obtain ⟨h1, h2, h3, h4, h5⟩ := hadm.counts s
    refine ⟨h1, h2, h3, h4, h5, hadm.stack s, hadm.midway hq ho s, hadm.unstapled hq ho s, hadm.stapled s, fun hag hst => ?_⟩
    obtain ⟨-, -, hsheets⟩ := State.Admits.housed hst ho hp
    intro n ends v grown held
    refine ⟨fun hn => ?_, fun hn hs => ?_, fun hn hs => ⟨fun hi => ?_, fun hi hc hpurge => ?_⟩⟩
    · exact (hadm.midway_pocket hag hst ho hp hq s hn).trans (hadm.pocket_midway hsheets hn)
    · have h := hadm.unstapled_pocket hag hst ho hp hq s hs
      rw [hadm.pocket_last hsheets hn] at h
      exact h
    · exact (hadm.stapled_pocket hag hst ho hp s hn hs hi).trans (hadm.pocket_last hsheets hn)
    · intro full x
      exact hadm.goesOn hag hst ho hp hq s hn hs hi hc hpurge hfromU.now_eq hfromU.settings_eq
        (by rw [PackRec.grown, if_pos hn, if_pos hs]) (hadm.pocket_last hsheets hn).symm rfl

end Sys2Proof.Proofs
end

section
/-! SUPPORT. The restart request for a COLLATE entry (`Work.requestFor`), and the settling of
`Obligations.ArrivalOfAnotherSheetIsRejected`. -/

namespace Sys2Proof.Machine

section
variable {s : State} {w u : Work} {e : InFlight} {k : Handle} {c : RestartCause}

/-! ### The restart request for a COLLATE entry (R61, R128) -/

theorem Work.requestFor_collate (hd : e.disp = .collate) (hk : e.handle = some k) :
    w.requestFor e c = w.requestRestart k e.gen c := by
  unfold Work.requestFor
  rw [hd, hk]

theorem State.takesRestart_of_reg {s t : State} (h : t.reg = s.reg) (k : Handle) (g : Nat) :
    t.takesRestart k g = s.takesRestart k g := by
  rw [State.takesRestart, State.takesRestart, State.pack, State.pack, h]

theorem Work.requestFor_none (h : ∀ k, e.disp = .collate → e.handle = some k → w.takesRestart k e.gen = false) :
    w.requestFor e c = w := by
  unfold Work.requestFor
  split
  next k hd hk => exact if_neg (by rw [h k hd hk]; exact nofun)
  · rfl

/-- A request leaves the packs alone that it does not name. -/
theorem Work.requestFor_others (h : e.handle ≠ some k) : (w.requestFor e c).pack k = w.pack k := by
  unfold Work.requestFor
  split
  next j _ hj =>
    have hne : k ≠ j := fun e' => h (hj.trans (by rw [e']))
    unfold Work.requestRestart
    split
    · split
      · refine (congrArg (fun P : Plant => P.pack k) (w.restartPack_plant j c)).trans ?_
        rw [Plant.onPocket_pack]
        exact Plant.setPack_pack_ne _ hne
      · cases hp : (w.pack j).pocket with
        | none =>
          exact (congrArg (fun P : Plant => P.pack k) (w.abandonPack_plant_free c hp)).trans (Plant.setPack_pack_ne _ hne)
        | some p =>
          refine (congrArg (fun P : Plant => P.pack k) (w.abandonPack_plant_held c (k := j) (by rw [hp]; exact nofun))).trans ?_
          rw [Plant.onPocket_pack]
          exact Plant.setPack_pack_ne _ hne
    · rfl
  · rfl

/-- A request that is taken remakes the pack, and its notice is the first where none was formed before. -/
theorem Work.requestFor_remade (hreg : w.reg = s.reg) (hset : w.tables.settings = s.tables.settings) (hn : w.notices = [])
    (hd : e.disp = .collate) (hk : e.handle = some k) (ht : s.takesRestart k e.gen = true) :
    s.Remade k (w.requestFor e c) ∧ (w.requestFor e c).notices = [s.restartNotice k c] := by
  rw [Work.requestFor_collate hd hk]
  obtain ⟨h1, h2⟩ := Work.requestRestart_remade (w := w) (by rw [State.takesRestart_of_reg hreg]; exact ht)
    (Work.pack_of_reg (w := Work.of s) hreg k) hset c
  exact ⟨h1, h2.trans (by rw [hn]; rfl)⟩

/-- A pack remade stands remade as the step ends, and its notice is told. -/
theorem State.Remade.restarts (h : s.Remade k u) (hn : u.notices = [s.restartNotice k c]) (hfrom : Work.From s u) (b : State) :
    s.restarts (u.settle b).finish k c := by
  obtain ⟨post, hpost⟩ := ((Evolves.refl u).settle b).notices
  rw [hn, List.singleton_append] at hpost
  exact ⟨h.remakes b, (hfrom.settle b).notifies hpost.symm⟩

theorem State.Remade.not_open (h : s.Remade k u) : (u.pack k).state ≠ .opened := by
  obtain ⟨-, h⟩ := h
  split at h
  · rw [h.1, PackRec.restarted]
    dsimp only
    split <;> exact nofun
  · obtain ⟨h1, h2, -⟩ := h
    cases hp : (s.pack k).pocket with
    | none =>
      rw [h2 hp]
      exact nofun
    | some p =>
      rw [h1 (by rw [hp]; rfl)]
      exact nofun

/-- The sheet of a pack that is OPEN leaves a pack alone that has been remade. -/
theorem State.Remade.takeHead (h : s.Remade k u) (e : InFlight) : s.Remade k (u.takeHead e) := by
  have hopen := h.not_open
  have hevolves := (Evolves.refl u).takeHead e
  obtain ⟨-, -, -, -, -, hqueues⟩ := u.takeHead_keeps e
  have hsame : (u.takeHead e).pack k = u.pack k ∧ (k ∈ (u.takeHead e).stapler.queue → k ∈ u.stapler.queue) := by
    rcases u.takeHead_is e with ⟨g, hg⟩ | ⟨j, p, -, ho, hadm, -⟩
    · rw [hg]
      exact ⟨rfl, id⟩
    · have hne : k ≠ j := fun e' => hopen (e' ▸ ho)
      refine ⟨hadm.others hne, fun hk => ?_⟩
      rw [hadm.stapler] at hk
      split at hk
      · exact (List.mem_append.1 hk).resolve_right fun h => hne (List.mem_singleton.1 h)
      · exact hk
  exact h.of hsame.1 hsame.2 (fun c => by rw [State.classQueue, hqueues]; exact id) fun c => hevolves.latched c

/-! ### The cases of an arrival (R55 to R59) -/

section
variable {tag : Option TagNum} {rest : List InFlight}

theorem Work.matchArrival_stray (h : w.arb.inFlight = []) : w.matchArrival tag = (w.setGate .reject).latch .stray := by
  unfold Work.matchArrival
  rw [h]

/-- The head's sheet is lost where the arrival is neither its own nor the next entry's (R58). -/
theorem Work.matchArrival_mismatch (h : w.arb.inFlight = e :: rest) (hm : e.meets tag = false)
    (hn : ∀ x ∈ rest.head?, InFlight.isNumbered x tag = false) : w.matchArrival tag
      = (((w.restartTimer.setGate .reject).dropHead).latch .mismatch).requestFor e .mismatch := by
  unfold Work.matchArrival
  rw [h]
  dsimp only
  rw [if_neg (by rw [hm]; exact nofun)]
  cases rest with
  | nil => rfl
  | cons x _ => exact if_neg (by rw [hn x rfl]; exact nofun)

/-- The work as the head's sheet is found missing, the next one not yet taken (R57). -/
def Work.missed (w : Work) (e : InFlight) : Work :=
  ((w.restartTimer.dropHead.faultFeed e.feed).latch .mismatch).requestFor e .missingSheet

theorem Work.matchArrival_second (h : w.arb.inFlight = e :: rest) (hm : e.meets tag = false) {x : InFlight}
    (hx : rest.head? = some x) (hn : x.isNumbered tag = true) : w.matchArrival tag = (w.missed e).takeHead x := by
  unfold Work.matchArrival
  rw [h]
  dsimp only
  rw [if_neg (by rw [hm]; exact nofun)]
  cases rest with
  | nil => cases hx
  | cons y _ =>
    cases hx
    exact if_pos hn

theorem Work.missed_keeps (w : Work) (e : InFlight) : (w.missed e).latched .mismatch = true
    ∧ (w.missed e).arb.inFlight = w.arb.inFlight.tail ∧ (w.missed e).feeds[e.feed].state = .faulted
    ∧ (w.missed e).ret.bins = w.ret.bins := by
  obtain ⟨x, hx⟩ : ∃ x, x = w.restartTimer.dropHead.faultFeed e.feed := ⟨_, rfl⟩
  have hlatch : (x.latch .mismatch).latched .mismatch = true := State.latched_latch_self x .mismatch
  have harb : x.arb = w.dropHead.arb := by
    rw [hx, Work.faultFeed, Work.setFeed_arb]
    rfl
  have hret : x.ret = w.ret := by
    rw [hx, Work.faultFeed, Work.setFeed_ret]
    rfl
  have hfeed : x.feeds[e.feed].state = .faulted := by
    rw [hx, Work.faultFeed, Work.setFeed_feeds]
    exact congrArg FeedRec.state (Vector.getElem_set_self e.feed.isLt)
  have hspares := (Work.Spares.refl (x.latch .mismatch)).requestFor e .missingSheet
  have hevolves := (Evolves.refl (x.latch .mismatch)).requestFor e .missingSheet
  rw [Work.missed, ← hx]
  exact ⟨hevolves.latched _ hlatch, by rw [hspares.arb]; exact congrArg MergeArbiter.inFlight harb,
    by rw [hspares.feeds]; exact hfeed, by rw [hspares.ret, ← hret]; rfl⟩

theorem Work.missed_others (w : Work) {e : InFlight} (h : e.handle ≠ some k) : (w.missed e).pack k = w.pack k := by
  rw [Work.missed, Work.requestFor_others h, Work.pack_latch, State.pack, Work.faultFeed, Work.setFeed_reg]
  rfl

theorem Work.missed_remade (w : Work) {e : InFlight} (hn : w.notices = []) (hd : e.disp = .collate) (hk : e.handle = some k)
    (ht : w.takesRestart k e.gen = true) : w.toState.Remade k (w.missed e)
      ∧ (w.missed e).notices = [w.restartNotice k .missingSheet] := by
  refine Work.requestFor_remade ?_ ?_ ?_ hd hk ht
  · show (w.restartTimer.dropHead.faultFeed e.feed).reg = w.reg
    rw [Work.faultFeed, Work.setFeed_reg]
    rfl
  · exact congrArg (fun f : Frame => f.tables.settings) (Work.frame_faultFeed w.restartTimer.dropHead e.feed)
  · show (w.restartTimer.dropHead.faultFeed e.feed).notices = []
    rw [Work.faultFeed, Work.setFeed_notices]
    exact hn

/-- In HALT a decision bounds the age of A_last and drops a break pick alone (R54, R65). -/
theorem Work.takeArrival_halted (h : w.halted = true) (tag : Option TagNum) : w.takeArrival tag = { w with
    arb := { w.arb with gate := .reject, pick := none, aLast := boundedALast w.now w.arb.aLast }, occasion := true } := by
  have hnot : w.releasing = false := by
    rw [State.halted_eq] at h
    cases hr : w.run.state <;> rw [hr] at h <;> first | (rw [State.releasing, hr]; rfl) | cases h
  have heq : w.takeArrival tag = ((w.setGate .reject).occasionIf true).decideReleases := if_pos h
  obtain ⟨x, hx⟩ : ∃ x, x = (w.setGate .reject).occasionIf true := ⟨_, rfl⟩
  have hx' : x = { w with arb := { w.arb with gate := .reject }, occasion := true } := by
    rw [hx]
    show { w with arb := { w.arb with gate := .reject }, occasion := w.occasion || true } = _
    rw [Bool.or_true]
  have hrel : x.releasing = false := by rw [hx']; exact hnot
  have hpick : x.keptPick = none := by
    rw [State.keptPick, Option.filter_eq_none_iff]
    intro y _ hstands
    rw [(State.pickStands_iff.1 hstands).1] at hrel
    cases hrel
  rw [heq, ← hx]
  rcases x.decideReleases_is with ⟨-, hd⟩ | ⟨ho, -⟩
  · rw [hd.idle hrel, x.poised_eq, hpick, hx']
  · rw [hx'] at ho
    cases ho

end

end

/-- The head's sheet is missing, and the second entry's sheet is taken (R57). -/
theorem exec_arrival_second {tag : Option TagNum} {s : State} {e x : InFlight} {rest : List InFlight} (hh : s.halted = false)
    (hlist : s.arb.inFlight = e :: rest) (hm : e.meets tag = false) (hhead : rest.head? = some x)
    (hnum : x.isNumbered tag = true) : ∃ t, exec (.arrival tag) s = .next t ∧ s.surrounds t ∧ s.keepsBins t []
      ∧ t.latched .mismatch = true ∧ t.feeds[e.feed].state = .faulted ∧ rest.tail <+: t.arb.inFlight
      ∧ (∀ k, e.disp = .collate → e.handle = some k → s.takesRestart k e.gen = true → s.restarts t k .missingSheet)
      ∧ (x.disp = .discard → t.arb.gate = .reject)
      ∧ ∀ k p, x.disp = .collate → x.handle = some k → e.handle ≠ some k → (s.pack k).state = .opened →
        (s.pack k).gen = x.gen → (s.pack k).pocket = some p → t.arb.gate = .pocket p
          ∧ ((s.pack k).received < (s.pack k).released → (t.pack k).received = (s.pack k).received + 1) := by
  have heff := exec_arrival tag hh
  have hfrom : Work.From s (((Work.of s).matchArrival tag).occasionIf true) :=
    ((Work.From.of s).evolves ((Evolves.refl _).matchArrival tag) (Work.frame_matchArrival _ _)).evolves
      ((Evolves.refl _).occasionIf _) rfl
  have hmatch := Work.matchArrival_second (w := Work.of s) hlist hm hhead hnum
  obtain ⟨y, hy⟩ : ∃ y, y = (Work.of s).missed e := ⟨_, rfl⟩
  rw [hmatch, ← hy] at heff hfrom
  obtain ⟨hlatch, hflight, hfeed, hbins⟩ := (Work.of s).missed_keeps e
  have hremade (k : Handle) := (Work.of s).missed_remade (e := e) (k := k) rfl
  have hothers (k : Handle) := (Work.of s).missed_others (e := e) (k := k)
  rw [← hy] at hlatch hflight hfeed hbins hremade hothers
  obtain ⟨hflight', hfeeds', -, hnotices', hbins', -⟩ := y.takeHead_keeps x
  have hgate (g : Gate) (h : (y.takeHead x).arb.gate = g) :
      ((((y.takeHead x).occasionIf true).settle s).finish).arb.gate = g := by
    rw [Work.finish_arb, (Work.settle_arb s _).1]
    exact h
  refine ⟨_, heff, (hfrom.settle s).surrounds,
    ((State.keepsBins_of_bins (t := ((y.takeHead x).occasionIf true).toState) (hbins'.trans hbins) []).settle s).finish,
    Work.finish_latched _ _ (((Evolves.refl y).takeHead x |>.occasionIf true |>.settle s).latched _ hlatch), ?_, ?_,
    fun k hd hk ht => ?_, fun hd => hgate _ (by rw [Work.takeHead_discard hd]; rfl), fun k p hd hk hne ho hg hp => ?_⟩
  · rw [Work.finish_feeds, Work.settle_feedState, Work.occasionIf_feeds, hfeeds']
    exact hfeed
  · have htail : (y.takeHead x).arb.inFlight = rest.tail := by rw [hflight', hflight, Work.of_toState, hlist]; rfl
    rw [Work.finish_arb, ← htail]
    exact (Work.settle_arb s ((y.takeHead x).occasionIf true)).2.1
  · obtain ⟨h1, h2⟩ := hremade k hd hk ht
    exact State.Remade.restarts (u := (y.takeHead x).occasionIf true) (h1.takeHead x) (hnotices'.trans h2) hfrom s
  · have hsame : y.pack k = s.pack k := hothers k hne
    have hcollates : y.takeHead x = (y.dropHead.setGate (.pocket p)).admitSheet k p :=
      Work.takeHead_collates hd hk (by rw [hsame]; exact ho) (by rw [hsame]; exact hg) (by rw [hsame]; exact hp)
    have harb := ((y.dropHead.setGate (.pocket p)).admitSheet_keeps k p).1
    rw [← hcollates] at harb
    refine ⟨hgate _ (by rw [harb]; rfl), fun hlt => ?_⟩
    rw [← hsame] at hlt ⊢
    obtain ⟨h1, h2, h3, h4, h5, h6⟩ := Work.admitSheet_admits (w := y.dropHead.setGate (.pocket p)) hlt p
    rw [← hcollates] at h1 h2 h3 h4 h5 h6
    have hadm : y.toState.Admits k p ((y.takeHead x).occasionIf true) := ⟨h1, h2, h3, h4, h5, h6⟩
    exact (hadm.counts s).2.2.1

/-- The arrival is nobody's sheet, and the head's sheet is lost (R58). -/
theorem exec_arrival_mismatch {tag : Option TagNum} {s : State} {e : InFlight} {rest : List InFlight} (hh : s.halted = false)
    (hlist : s.arb.inFlight = e :: rest) (hm : e.meets tag = false)
    (hno : ∀ x ∈ rest.head?, InFlight.isNumbered x tag = false) :
    ∃ t, exec (.arrival tag) s = .next t ∧ s.surrounds t ∧ s.keepsBins t [] ∧ t.latched .mismatch = true
      ∧ t.arb.gate = .reject ∧ rest <+: t.arb.inFlight
      ∧ (∀ k, e.disp = .collate → e.handle = some k → s.takesRestart k e.gen = true → s.restarts t k .mismatch)
      ∧ ((∀ k, e.disp = .collate → e.handle = some k → s.takesRestart k e.gen = false) → s.keepsPacks t) := by
  have heff := exec_arrival tag hh
  have hfrom : Work.From s (((Work.of s).matchArrival tag).occasionIf true) :=
    ((Work.From.of s).evolves ((Evolves.refl _).matchArrival tag) (Work.frame_matchArrival _ _)).evolves
      ((Evolves.refl _).occasionIf _) rfl
  have hmatch := Work.matchArrival_mismatch (w := Work.of s) hlist hm hno
  obtain ⟨x, hw⟩ : ∃ x, x = (((Work.of s).restartTimer.setGate .reject).dropHead).latch .mismatch := ⟨_, rfl⟩
  rw [← hw] at hmatch
  have hspares := (Work.Spares.refl x).requestFor e .mismatch
  have hlatch : x.latched .mismatch = true := by
    rw [hw]
    exact State.latched_latch_self ((Work.of s).restartTimer.setGate .reject).dropHead .mismatch
  have hreg : x.reg = s.reg := by rw [hw]; rfl
  have hset : x.tables.settings = s.tables.settings := by rw [hw]; rfl
  have hnotices : x.notices = [] := by rw [hw]; rfl
  have hbins : x.ret.bins = s.ret.bins := by rw [hw]; rfl
  have harb : x.arb.inFlight = rest ∧ x.arb.gate = .reject := by
    rw [hw]
    exact ⟨congrArg List.tail hlist, rfl⟩
  have hnone := Work.requestFor_none (w := x) (e := e) (c := .mismatch)
  have hremade (k : Handle) := Work.requestFor_remade (e := e) (k := k) (c := .mismatch) hreg hset hnotices
  obtain ⟨y, hy⟩ : ∃ y, y = x.requestFor e .mismatch := ⟨_, rfl⟩
  rw [hmatch, ← hy] at heff hfrom
  rw [← hy] at hspares hnone hremade
  have hevolves : Evolves x y := hy ▸ (Evolves.refl x).requestFor e .mismatch
  have hkept : y.ret.bins = s.ret.bins := by rw [hspares.ret, ← hbins]
  refine ⟨_, heff, (hfrom.settle s).surrounds,
    ((State.keepsBins_of_bins (t := (y.occasionIf true).toState) hkept []).settle s).finish,
    Work.finish_latched _ _ ((hevolves.occasionIf true |>.settle s).latched _ hlatch),
    ?_, ?_, fun k hd hk ht => ?_, fun hfree => ?_⟩
  · rw [Work.finish_arb, (Work.settle_arb s (y.occasionIf true)).1, Work.occasionIf_arb, hspares.arb]
    exact harb.2
  · have hrest : y.arb.inFlight = rest := by rw [hspares.arb, harb.1]
    rw [Work.finish_arb, ← hrest]
    exact (Work.settle_arb s (y.occasionIf true)).2.1
  · obtain ⟨h1, h2⟩ := hremade k hd hk ht
    exact State.Remade.restarts (u := y.occasionIf true) h1 h2 hfrom s
  · have hsame : y = x := hnone fun k hd hk => by
      rw [State.takesRestart_of_reg hreg]
      exact hfree k hd hk
    have hkept : (y.occasionIf true).toState.reg = s.reg := by
      rw [hsame]
      exact hreg
    exact ((State.keepsPacks_of_reg hkept).settle s).finish

end Sys2Proof.Machine

namespace Sys2Proof.Proofs

open Sys2Proof.Machine

/-- Settles O43: a lost sheet's pack is remade before the arrival's own sheet is gated, and the settling keeps both. -/
theorem arrivalOfAnotherSheetIsRejected : Obligations.ArrivalOfAnotherSheetIsRejected := by
  unfold Obligations.ArrivalOfAnotherSheetIsRejected
  intro tag s
  refine ⟨fun hh hf => ?_, fun hh hlist => ?_, fun e rest hh hlist hm => ?_⟩
  · rw [exec_comes (c := .arrival tag) rfl rfl, Instr.effect]
    show Host.Outcome.next ((Work.of s).takeArrival tag).finish = _
    rw [Work.takeArrival_halted (w := Work.of s) hh tag, Work.finish_silent rfl rfl rfl rfl hf]
    rfl
  · have heff := exec_arrival tag hh
    rw [Work.matchArrival_stray (w := Work.of s) hlist] at heff
    obtain ⟨u, hu⟩ : ∃ u, u = (((Work.of s).setGate .reject).latch .stray).occasionIf true := ⟨_, rfl⟩
    have hfrom : Work.From s u := hu ▸ (Work.From.of s).evolves ((((Evolves.refl _).setGate _).latch _).occasionIf _) rfl
    have hreg : u.reg = s.reg := by rw [hu]; rfl
    have hret : u.ret = s.ret := by rw [hu]; rfl
    have hgate : u.arb.gate = .reject := by rw [hu]; rfl
    have hlatch : u.latched .stray = true := by
      rw [hu]
      exact State.latched_latch_self ((Work.of s).setGate .reject) .stray
    rw [← hu] at heff
    refine ⟨_, heff, (hfrom.settle s).surrounds, ((State.keepsPacks_of_reg hreg).settle s).finish,
      ((State.keepsBins_of_bins (by rw [hret]) []).settle s).finish, ?_,
      Work.finish_latched _ _ (((Evolves.refl u).settle s).latched _ hlatch)⟩
    rw [Work.finish_arb, (Work.settle_arb s u).1]
    exact hgate
  · by_cases hx : ∃ x, rest.head? = some x ∧ x.isNumbered tag = true
    · obtain ⟨x, hhead, hnum⟩ := hx
      obtain ⟨t, h1, h2, h3, h4, h5⟩ := exec_arrival_second hh hlist hm hhead hnum
      refine ⟨t, h1, h2, h3, h4, fun hno => ?_, fun y hy _ => ?_⟩
      · rw [hno x hhead] at hnum
        cases hnum
      · rw [hhead] at hy
        cases hy
        exact h5
    · have hno (x : InFlight) (hx' : x ∈ rest.head?) : x.isNumbered tag = false := by
        by_contra h
        exact hx ⟨x, hx', by simpa using h⟩
      obtain ⟨t, h1, h2, h3, h4, h5⟩ := exec_arrival_mismatch hh hlist hm hno
      exact ⟨t, h1, h2, h3, h4, fun _ => h5, fun y hy hn => absurd ⟨y, hy, hn⟩ hx⟩

end Sys2Proof.Proofs
end

section
/-! SUPPORT. The entry to HALT and a step that settles in HALT (`Work.settle_halted`), and the settling of
`Obligations.DeadlineExpiryJams`. -/

namespace Sys2Proof.Machine

section
variable {s : State} {w : Work} {e : InFlight} {k : Handle} {c : RestartCause}

/-! ### The entry to HALT (R90, R108, R126) -/

/-- The Return Unit's record as HALT cuts its operation off (R126). -/
def State.cutOffReturn (s : State) : ReturnUnit :=
  match s.deliveryInFlight with
  | none => s.ret
  | some d => { s.ret with delivery := some { d with op := .cutOff }, command := none }

theorem State.cutOffReturn_is (s : State) : s.cutOffReturn.state = s.ret.state
    ∧ s.cutOffReturn.delivery = (match s.deliveryInFlight with
      | none => s.ret.delivery
      | some d => some { d with op := .cutOff })
    ∧ ∀ d ∈ s.deliveryInFlight, s.cutOffReturn.command = none := by
  unfold State.cutOffReturn
  cases s.deliveryInFlight with
  | none => exact ⟨rfl, rfl, nofun⟩
  | some d => exact ⟨rfl, rfl, fun _ _ => rfl⟩

theorem Stapler.cutOff_queue (r : Stapler) : r.cutOff.queue = r.queue := by
  unfold Stapler.cutOff
  split
  · split <;> rfl
  · rfl

theorem Work.cutOffDelivery_ret (w : Work) : w.cutOffDelivery.ret = w.cutOffReturn := by
  unfold Work.cutOffDelivery State.cutOffReturn
  cases w.deliveryInFlight with
  | none => rfl
  | some d => rfl

theorem State.deliveryInFlight_of_ret {s t : State} (h : t.ret = s.ret) : t.deliveryInFlight = s.deliveryInFlight := by
  rw [State.deliveryInFlight, State.deliveryInFlight, h]

theorem Work.halt_ret (w : Work) (c : HaltCause) (t : ResumeTarget) : (w.halt c t).ret = w.cutOffReturn := by
  have hvolume : (w.setRunState (.halt c t)).cutOffVolume.ret = w.ret := by
    unfold Work.cutOffVolume
    split <;> rfl
  have hpurge (x : Work) (p : PocketId) : (x.cutOffPurge p).ret = x.ret := by
    unfold Work.cutOffPurge
    dsimp only
    split
    · exact x.setPocket_ret p _
    · rfl
  unfold Work.halt
  rw [Work.each_same (fun x => x.ret) _ hpurge, Work.cutOffDelivery_ret, State.cutOffReturn, State.cutOffReturn, hvolume,
    State.deliveryInFlight_of_ret hvolume]

theorem Work.settings_of_frame {v : Work} (h : v.frame = w.frame) : v.tables.settings = w.tables.settings :=
  congrArg (fun f : Frame => f.tables.settings) h

/-- What the entry to HALT leaves alone, and what it cuts off. -/
theorem Work.halt_cutsOff (w : Work) (c : HaltCause) (t : ResumeTarget) : (w.halt c t).reg = w.reg
    ∧ (w.halt c t).merge = w.merge ∧ (w.halt c t).tables.settings = w.tables.settings
    ∧ (w.halt c t).stapler = w.stapler.cutOff ∧ ∀ p : PocketId, (w.halt c t).pockets[p] = w.pockets[p].purgeCutOff := by
  obtain ⟨o, -, h⟩ := w.halt_plant c t
  have hreg := congrArg Core.reg (w.core_halt c t)
  have hmerge := w.merge_halt c t
  have hset := Work.settings_of_frame (w.frame_halt c t)
  rw [Work.core_reg, Work.core_reg] at hreg
  obtain ⟨x, hx⟩ : ∃ x, x = w.halt c t := ⟨_, rfl⟩
  rw [← hx] at h hreg hmerge hset ⊢
  exact ⟨hreg, hmerge, hset, congrArg Plant.stapler h, fun p => congrArg (fun P : Plant => P.pocket p) h⟩

theorem Stapler.cutOff_eq (s : State) : s.stapler.cutOff = match s.volumeInFlight with
    | none => s.stapler
    | some k => { s.stapler with state := .idle, work := some { k with op := .cutOff }, command := none } := by
  have h := congrArg Plant.stapler (Work.of s).cutOffVolume_plant
  refine h.symm.trans ?_
  show (Work.of s).cutOffVolume.stapler = _
  unfold Work.cutOffVolume
  cases hk : s.volumeInFlight with
  | none => simp only [Work.of_toState, hk]
  | some k =>
    simp only [Work.of_toState, hk]
    rfl

/-! ### A step that settles in HALT -/

theorem Work.goOn_halted (h : w.halted = true) : w.goOn = w.judge := by
  have hstart (x : Work) (hx : x.halted = true) (p : PocketId) : x.startPurge p = x := by
    unfold Work.startPurge
    dsimp only
    rw [hx]
    simp
  have heach (l : List PocketId) : w.each Work.startPurge l = w := by
    induction l with
    | nil => rfl
    | cons p l ih =>
      rw [show w.each Work.startPurge (p :: l) = (w.startPurge p).each Work.startPurge l from rfl, hstart w h p, ih]
  have hpurges : w.startPurges = w := heach allPockets
  have hstarting : w.starting = false := by
    rw [State.starting_eq]
    rw [State.halted_eq] at h
    cases hr : w.run.state <;> rw [hr] at h <;> first | rfl | cases h
  have hmay : w.judge.mayStart = false := by
    rw [State.mayStart, show w.judge.halted = true from h]
    rfl
  have hstop : w.judge.endStopping = w.judge := by
    rcases w.judge.endStopping_shape with ⟨hs, -⟩ | ⟨⟨o, ho⟩, -⟩
    · exact hs
    · rw [State.halted_eq, show w.run.state = .stopping o from ho] at h
      cases h
  rw [Work.goOn, hpurges, Work.endStartUp_of_running hstarting, Work.staple, Work.takeUp_of_not_idle _ (.inr hmay),
    Work.startDelivery_of_mayNot hmay, hstop]

/-- A step that settles in HALT judges what it has to judge, and starts nothing. -/
theorem Work.settle_halted (h : w.halted = true) (b : State) : (w.settle b).reg = w.reg ∧ (w.settle b).run = w.run
    ∧ (w.settle b).stapler = w.stapler ∧ (w.settle b).pockets = w.pockets ∧ (w.settle b).ret.state = w.ret.state
    ∧ (w.settle b).ret.delivery = w.ret.delivery ∧ (w.settle b).ret.command = w.ret.command
    ∧ (w.settle b).arb.inFlight = w.arb.inFlight := by
  have hnot : w.judge.releasing = false := by
    rw [State.halted_eq] at h
    show w.releasing = false
    cases hr : w.run.state <;> rw [hr] at h <;> first | (rw [State.releasing, hr]; rfl) | cases h
  rw [Work.settle_closed, Work.goOn_halted h]
  obtain ⟨a, p, hd⟩ := Work.decideReleases_idle hnot
  rw [hd]
  obtain ⟨y, hy⟩ : ∃ y, y = { w.judge with arb := { w.judge.arb with aLast := a, pick := p } } := ⟨_, rfl⟩
  obtain ⟨bs, at', m, o, hc⟩ := y.closed_shape b
  obtain ⟨fs, m', o', hw⟩ := y.timeWaits_shape
  have harb : y.timeWaits.arb = y.arb := by rw [hw]
  rw [← hy, hc, harb, hy]
  exact ⟨rfl, rfl, rfl, rfl, rfl, rfl, rfl, rfl⟩

/-! ### The plant as a restart request is taken -/

theorem Plant.leaveQueue_pocket (P : Plant) (k : Handle) : (P.leaveQueue k).pocket = P.pocket := rfl

/-- A request taken purges the pocket of its pack, and takes the pack from the staple queue (R130, R135). -/
theorem Work.requestFor_plant (hd : e.disp = .collate) (hk : e.handle = some k) (ht : w.takesRestart k e.gen = true) :
    (w.requestFor e c).stapler = w.stapler.without k
      ∧ ∀ p : PocketId, (w.requestFor e c).pockets[p]
        = if (w.pack k).pocket = some p then w.pockets[p].purgeAsked else w.pockets[p] := by
  have hon (P : Plant) (hP : P.pocket = w.plant.pocket) (o : Option PocketId) (p : PocketId) :
      (P.onPocket o PocketRec.purgeAsked).pocket p = if o = some p then w.pockets[p].purgeAsked else w.pockets[p] := by
    cases o with
    | none => exact congrFun hP p
    | some q =>
      by_cases e' : q = p
      · rw [e', if_pos rfl]
        refine (Plant.setPocket_pocket_self _ _).trans ?_
        rw [hP]
        rfl
      · rw [if_neg fun h => e' (Option.some.inj h)]
        exact (Plant.setPocket_pocket_ne _ (Ne.symm e')).trans (congrFun hP p)
  rw [Work.requestFor_collate hd hk, Work.requestRestart, if_pos ht]
  split
  · have h := w.restartPack_plant k c
    refine ⟨(w.restartPack_pack (k := k) (c := c)).2, fun p => ?_⟩
    refine (congrArg (fun P : Plant => P.pocket p) h).trans (hon _ ?_ _ p)
    rfl
  · refine ⟨(w.abandonPack_pack (k := k) (c := c)).1, fun p => ?_⟩
    cases hp : (w.pack k).pocket with
    | none => exact (congrArg (fun P : Plant => P.pocket p) (w.abandonPack_plant_free c hp)).trans rfl
    | some q =>
      rw [← hp]
      refine (congrArg (fun P : Plant => P.pocket p)
        (w.abandonPack_plant_held c (k := k) (by rw [hp]; exact nofun))).trans (hon _ ?_ _ p)
      rfl

end

end Sys2Proof.Machine

namespace Sys2Proof.Machine

section
variable {s : State} {e : InFlight} {rest : List InFlight}

theorem State.watchesDeadlines_iff : s.watchesDeadlines = true ↔ s.run.state = .run ∨ s.run.state = .pause
    ∨ s.run.state = .bypass ∨ ∃ origin, s.run.state = .stopping origin := by
  unfold State.watchesDeadlines
  cases s.run.state <;> simp

theorem State.lateHead_of (hl : s.arb.inFlight = e :: rest) :
    s.lateHead = if s.watchesDeadlines && !isBefore s.now e.deadline then some e else none := by
  unfold State.lateHead
  rw [hl]

/-- The work once a deadline has expired: halted and cut off, the feed FAULTED, the restart not yet requested (R61). -/
def Work.jammed (w : Work) (e : InFlight) : Work := ((w.dropHead.requestHalt .jam).latch .jam).faultFeed e.feed

theorem Work.frame_jammed (w : Work) (e : InFlight) : (w.jammed e).frame = w.frame := by simp [Work.jammed]

/-- What a deadline's expiry brings before its restart request. -/
theorem Work.jammed_is {w : Work} {target : ResumeTarget} (ht : resumeTargetOf w.run.state = some target) (e : InFlight) :
    (w.jammed e).reg = w.reg ∧ (w.jammed e).tables.settings = w.tables.settings ∧ (w.jammed e).notices = w.notices
      ∧ (w.jammed e).run.state = .halt .jam target ∧ (w.jammed e).latched .jam = true
      ∧ (w.jammed e).feeds[e.feed].state = .faulted ∧ (w.jammed e).arb.inFlight = w.arb.inFlight.tail
      ∧ (w.jammed e).ret = w.cutOffReturn ∧ (w.jammed e).stapler = w.stapler.cutOff
      ∧ ∀ p : PocketId, (w.jammed e).pockets[p] = w.pockets[p].purgeCutOff := by
  have hhalt : w.dropHead.requestHalt .jam = w.dropHead.halt .jam target := by
    unfold Work.requestHalt
    split
    next h => rw [show w.run.state = _ from h] at ht; cases ht
    · rw [show resumeTargetOf w.dropHead.run.state = some target from ht]
  obtain ⟨hreg, hmerge, hset, hstapler, hpockets⟩ := w.dropHead.halt_cutsOff .jam target
  have hret := w.dropHead.halt_ret .jam target
  have hrun := w.dropHead.runState_halt .jam target
  obtain ⟨x, hx⟩ : ∃ x, x = w.dropHead.halt .jam target := ⟨_, rfl⟩
  rw [← hx] at hhalt hreg hmerge hset hstapler hpockets hret hrun
  have hframe := Work.settings_of_frame (Work.frame_faultFeed (x.latch .jam) e.feed)
  have hlatch : (x.latch .jam).latched .jam = true := State.latched_latch_self x .jam
  rw [Work.jammed, hhalt]
  obtain ⟨y, hy⟩ : ∃ y, y = x.latch .jam := ⟨_, rfl⟩
  have hy' : y.reg = x.reg ∧ y.merge = x.merge ∧ y.run = x.run ∧ y.ret = x.ret ∧ y.stapler = x.stapler
      ∧ y.pockets = x.pockets ∧ y.tables = x.tables := by
    rw [hy]
    exact ⟨rfl, rfl, rfl, rfl, rfl, rfl, rfl⟩
  rw [← hy] at hframe hlatch ⊢
  obtain ⟨h1, h2, h3, h4, h5, h6, h7⟩ := hy'
  have hnotices : y.notices = w.notices := congrArg Merge.notices (h2.trans hmerge)
  have harb : y.arb = w.dropHead.arb := congrArg Merge.arb (h2.trans hmerge)
  refine ⟨?_, ?_, ?_, ?_, ?_, ?_, ?_, ?_, ?_, fun p => ?_⟩
  · rw [Work.faultFeed, Work.setFeed_reg, h1, hreg]
    rfl
  · rw [hframe, h7, hset]
    rfl
  · rw [Work.faultFeed, Work.setFeed_notices, hnotices]
  · rw [Work.faultFeed, Work.setFeed_run, h3, hrun]
  · rw [Work.faultFeed, State.latched, Work.setFeed_attn]
    exact hlatch
  · rw [Work.faultFeed, Work.setFeed_feeds]
    exact congrArg FeedRec.state (Vector.getElem_set_self e.feed.isLt)
  · rw [Work.faultFeed, Work.setFeed_arb, harb]
    rfl
  · rw [Work.faultFeed, Work.setFeed_ret, h4, hret]
    rfl
  · rw [Work.faultFeed, Work.setFeed_stapler, h5, hstapler]
    rfl
  · rw [Work.faultFeed, Work.setFeed_pockets, h6, hpockets]
    rfl

theorem PocketRec.purgeCutOff_of_none {r : PocketRec} (h : r.purge = .none) : r.purgeCutOff = r :=
  if_neg (by rw [h]; exact nofun)

theorem Work.expireDeadline_eq (w : Work) (e : InFlight) :
    w.expireDeadline e = ((w.jammed e).requestFor e .missingSheet).settle w.toState := rfl

end

end Sys2Proof.Machine

namespace Sys2Proof.Proofs

open Sys2Proof.Machine

/-- Settles O44: the halt cuts the operations off, and the request then remakes its pack and purges its pocket alone. -/
theorem deadlineExpiryJams : Obligations.DeadlineExpiryJams := by
  unfold Obligations.DeadlineExpiryJams
  intro s
  refine ⟨_, exec_event (c := .deadlineExpiry) rfl s, State.watchesDeadlines_iff, fun k g => ?_, fun hno => ?_,
    fun e rest hw hl => ⟨fun hb => ?_, fun hb => ?_⟩⟩
  · rw [State.takesRestart_iff, not_and, not_not]
  · refine if_neg ?_
    rw [Instr.comes, State.lateHead]
    rcases hno with h | h
    · split
      · exact nofun
      · rw [h]
        exact nofun
    · rw [h]
      exact nofun
  · refine if_neg ?_
    rw [Instr.comes, State.lateHead_of hl, hb, Bool.not_true, Bool.and_false]
    exact nofun
  · have hlate : s.lateHead = some e := by
      rw [State.lateHead_of hl, hw, hb]
      rfl
    obtain ⟨target, htarget⟩ : ∃ target, resumeTargetOf s.run.state = some target := by
      rcases State.watchesDeadlines_iff.1 hw with h | h | h | ⟨o, h⟩ <;> rw [h] <;> exact ⟨_, rfl⟩
    obtain ⟨x, hx⟩ : ∃ x, x = (Work.of s).jammed e := ⟨_, rfl⟩
    obtain ⟨hreg, hset, hnotices, hrun, hlatch, hfeed, hflight, hret, hstapler, hpockets⟩ :=
      Work.jammed_is (w := Work.of s) htarget e
    rw [← hx] at hreg hset hnotices hrun hlatch hfeed hflight hret hstapler hpockets
    have hfromX : Work.From s x := hx ▸ (Work.From.of s).evolves
      (((((Evolves.refl _).dropHead).requestHalt _).latch _).faultFeed _) ((Work.of s).frame_jammed e)
    have hevolves : Evolves x (x.requestFor e .missingSheet) := (Evolves.refl x).requestFor e .missingSheet
    have hfrom : Work.From s (x.requestFor e .missingSheet) := hfromX.evolves hevolves (Work.frame_requestFor _ _ _)
    have hspares := (Work.Spares.refl x).requestFor e .missingSheet
    have hnone := Work.requestFor_none (w := x) (e := e) (c := .missingSheet)
    have hremade (k : Handle) := Work.requestFor_remade (e := e) (k := k) (c := .missingSheet) hreg hset hnotices
    have hplant (k : Handle) := Work.requestFor_plant (w := x) (e := e) (k := k) (c := .missingSheet)
    have heff : Instr.deadlineExpiry.effect (Work.of s) = (x.requestFor e .missingSheet).settle s := by
      rw [hx]
      simp only [Instr.effect, Work.whenSome, Work.of_toState, hlate, Work.expireDeadline_eq]
    rw [if_pos (by rw [Instr.comes, hlate]; rfl), heff]
    obtain ⟨u, hu⟩ : ∃ u, u = x.requestFor e .missingSheet := ⟨_, rfl⟩
    rw [← hu] at hevolves hfrom hspares hnone hremade hplant ⊢
    have hhalted : u.halted = true := by
      rw [State.halted_eq, hspares.run, hrun]
      rfl
    obtain ⟨-, hrunV, hstaplerV, hpocketsV, hstateV, hdeliveryV, hcommandV, hflightV⟩ := Work.settle_halted hhalted s
    have hbins : u.ret.bins = s.ret.bins := by
      rw [hspares.ret, hret, State.cutOffReturn]
      split <;> rfl
    have htakes (k : Handle) : x.takesRestart k e.gen = s.takesRestart k e.gen := State.takesRestart_of_reg hreg k e.gen
    have hreturn : (u.settle s).ret.state = s.cutOffReturn.state ∧ (u.settle s).ret.delivery = s.cutOffReturn.delivery
        ∧ (u.settle s).ret.command = s.cutOffReturn.command := by
      rw [hstateV, hdeliveryV, hcommandV, hspares.ret, hret]
      exact ⟨rfl, rfl, rfl⟩
    refine ⟨(hfrom.settle s).surrounds, ((State.keepsBins_of_bins hbins []).settle s).finish, ?_, ⟨target, htarget, ?_⟩,
      Work.finish_latched _ _ ((hevolves.settle s).latched _ hlatch), ?_, fun k hd hk ht => ?_, fun hfree => ?_, ?_⟩
    · rw [Work.finish_arb, hflightV, hspares.arb, hflight]
      exact congrArg List.tail hl
    · rw [Work.finish_run, hrunV, hspares.run, hrun]
    · rw [Work.finish_feeds, Work.settle_feedState, hspares.feeds]
      exact hfeed
    · obtain ⟨h1, h2⟩ := hremade k hd hk ht
      exact h1.restarts h2 hfrom s
    · have hsame : u = x := hnone fun k hd hk => (htakes k).trans (hfree k hd hk)
      exact ((State.keepsPacks_of_reg (by rw [hsame]; exact hreg)).settle s).finish
    · intro restarted hq hp hst hopen
      have hstands (p : PocketId) (k : Handle) (hk : restarted k) (hkp : (s.pack k).pocket = some p) :
          s.pockets[p].state = .collating ∧ s.pockets[p].purgeCutOff = s.pockets[p] := by
        obtain ⟨h1, h2, -⟩ := State.Admits.housed hst (hopen k hk) hkp
        exact ⟨h1, PocketRec.purgeCutOff_of_none h2⟩
      have hpack (k : Handle) : x.pack k = s.pack k := Work.pack_of_reg (w := Work.of s) hreg k
      obtain ⟨h1, h2, h3⟩ := s.cutOffReturn_is
      rw [Work.finish_stapler, hstaplerV, Work.finish_ret, hreturn.1, hreturn.2.1, hreturn.2.2, Work.finish_pockets,
        hpocketsV]
      refine ⟨?_, h1, h2, h3, fun k p hk hkp => ?_, fun p hno => ?_⟩
      · refine Eq.trans ?_ (hstapler.trans (Stapler.cutOff_eq s))
        by_cases hr : ∃ k, restarted k
        · obtain ⟨k, hd, hk, ht⟩ := hr
          rw [(hplant k hd hk ((htakes k).trans ht)).1]
          refine Stapler.without_of_not_mem ?_
          rw [hstapler, Work.of_toState, s.stapler.cutOff_queue]
          have hopened := hopen k ⟨hd, hk, ht⟩
          exact hq.not_mem (by rw [hopened]; exact nofun) (by rw [hopened]; exact nofun)
        · rw [hnone fun k hd hk => by
            rw [htakes]
            by_contra h
            exact hr ⟨k, hd, hk, by simpa using h⟩]
      · obtain ⟨hcollating, hcut⟩ := hstands p k hk hkp
        obtain ⟨hd, hk, ht⟩ := hk
        rw [(hplant k hd hk ((htakes k).trans ht)).2 p, hpack, if_pos hkp, hpockets, Work.of_toState, hcut,
          PocketRec.purgeAsked, hcollating]
      · refine Eq.trans ?_ (hpockets p)
        by_cases hr : ∃ k, restarted k
        · obtain ⟨k, hd, hk, ht⟩ := hr
          rw [(hplant k hd hk ((htakes k).trans ht)).2 p, hpack, if_neg (hno k ⟨hd, hk, ht⟩)]
        · rw [hnone fun k hd hk => by
            rw [htakes]
            by_contra h
            exact hr ⟨k, hd, hk, by simpa using h⟩]

end Sys2Proof.Proofs
end

section
/-! SUPPORT. The in-flight list and A_last over a whole command (`Work.Does.spaced`): what an operation takes from the list,
and how the releases of a settling follow one another. -/

namespace Sys2Proof.Machine

/-! ### The entry that a release appends (R45, R52) -/

/-- Entry `x` of feed `f` has joined the tail of the list, and A_last is its predicted arrival. -/
structure State.Appends (s : State) (f : FeedId) (x : InFlight) (r : MergeArbiter) : Prop where
  inFlight : r.inFlight = s.arb.inFlight ++ [x]
  feed : x.feed = f
  arrival : x.arrival = later s.now s.tables.travel[x.feed]
  deadline : x.deadline = later x.arrival s.tables.settings.lateTol
  aLast : r.aLast = x.arrival

section
variable {w v : Work} {f : FeedId}

theorem Work.releaseBare_appends (w : Work) (f : FeedId) (t : EntryTag) (d : Disposition) :
    ∃ x, w.toState.Appends f x (w.releaseBare f t d).arb := by
  obtain ⟨m, o, h⟩ := w.setFeed_shape f { w.feeds[f] with shelf := .clearing, discard := false }
  unfold Work.releaseBare
  rw [h]
  exact ⟨_, rfl, rfl, rfl, rfl, rfl⟩

theorem Work.releaseHead_appends (w : Work) (f : FeedId) (e : StagingEntry) (d : Disposition) :
    ∃ x, w.toState.Appends f x (w.releaseHead f e d).arb := by
  obtain ⟨m, o, h⟩ := w.setFeed_shape f { w.feeds[f] with shelf := .clearing, queue := w.feeds[f].queue.tail }
  unfold Work.releaseHead
  dsimp only
  rw [h]
  exact ⟨_, rfl, rfl, rfl, rfl, rfl⟩

theorem Work.openPack_aLast (w : Work) (k : Handle) (p : PocketId) : (w.openPack k p).arb.aLast = w.arb.aLast := by
  unfold Work.openPack Work.openPocket
  dsimp only
  split <;> simp

theorem State.Appends.of {s : State} {x : InFlight} {r r' : MergeArbiter} (h : s.Appends f x r)
    (hi : r'.inFlight = r.inFlight) (ha : r'.aLast = r.aLast) : s.Appends f x r' :=
  ⟨hi.trans h.inFlight, h.feed, h.arrival, h.deadline, ha.trans h.aLast⟩

theorem Work.Release.appends (h : w.Release f v) : ∃ x, w.toState.Appends f x v.arb := by
  have hpulsed {x : InFlight} {r : MergeArbiter} (h : (w.pulsed f).toState.Appends f x r) : w.toState.Appends f x r :=
    ⟨h.inFlight, h.feed, h.arrival, h.deadline, h.aLast⟩
  cases h with
  | pass =>
    obtain ⟨x, hx⟩ := (w.pulsed f).releaseBare_appends f .untagged .pass
    exact ⟨x, hpulsed hx⟩
  | unannounced =>
    obtain ⟨x, hx⟩ := (w.pulsed f).releaseBare_appends f .any .discard
    exact ⟨x, hpulsed hx⟩
  | unwanted e =>
    obtain ⟨x, hx⟩ := (w.pulsed f).releaseHead_appends f e .discard
    exact ⟨x, hpulsed hx⟩
  | opens e q p =>
    obtain ⟨x, hx⟩ := (w.pulsed f).releaseHead_appends f e .collate
    exact ⟨x, (hpulsed hx).of (Work.openPack_inFlight _ _ _) (Work.openPack_aLast _ _ _)⟩
  | nextPage e q =>
    obtain ⟨x, hx⟩ := (w.pulsed f).releaseHead_appends f e .collate
    exact ⟨x, (hpulsed hx).of (by rw [Work.pageReleased, Work.setPack_arb]) (by rw [Work.pageReleased, Work.setPack_arb])⟩

/-- A feed is due where its sheet would arrive PITCH or more after A_last (R53). -/
theorem State.due_iff {s : State} : s.due f = true
    ↔ isBefore (later s.now s.tables.travel[f]) (later s.arb.aLast s.tables.settings.pitch) = false := by
  rw [State.due, State.earliest, Bool.not_eq_true', isBefore, isBefore,
    show s.now - (later s.arb.aLast s.tables.settings.pitch - BitVec.ofNat 32 s.tables.travel[f])
      = later s.now s.tables.travel[f] - later s.arb.aLast s.tables.settings.pitch by simp only [later]; bv_omega]

/-! ### The releases of one step -/

/-- The entries `new`, released one after the other in `s` from A_last `last` on, leave A_last at the arrival of the last
of them (R52, R53). -/
structure State.Spaced (s : State) (last : Time) (new : List InFlight) (final : Time) : Prop where
  each : ∀ x ∈ new, x.arrival = later s.now s.tables.travel[x.feed]
    ∧ x.deadline = later x.arrival s.tables.settings.lateTol
  head : ∀ x ∈ new.head?, isBefore x.arrival (later last s.tables.settings.pitch) = false
  chain : new.IsChain fun a b => isBefore b.arrival (later a.arrival s.tables.settings.pitch) = false
  last : ∀ x, new.getLast? = some x → final = x.arrival

theorem State.Spaced.nil (s : State) (last final : Time) : s.Spaced last [] final := ⟨nofun, nofun, .nil, nofun⟩

/-- An arrival to come is no age (R54). -/
theorem boundedALast_later (n : Time) {ms : Nat} (h : ms ≤ 65535) : boundedALast n (later n ms) = later n ms := by
  refine if_neg ?_
  rw [elapsed, show n - later n ms = -BitVec.ofNat 32 ms by simp only [later]; bv_omega,
    show (Config.aLastBound : Int) = 65536 from rfl, BitVec.toInt_neg, BitVec.toInt_ofNat']
  simp only [Int.bmod_def]
  omega

theorem Work.banks_of_frame {w v : Work} (h : v.frame = w.frame) : v.tables.banks = w.tables.banks :=
  TableStore.banks_of_unmarked (congrArg Frame.tables h)

/-- Feeds' travel times stand in their range (R149). -/
def State.TravelBounded (s : State) : Prop := ∀ f : FeedId, s.tables.travel[f] ≤ 65535

theorem State.travelBounded_of_inRange {s : State} (h : s.inRange) : s.TravelBounded := fun f => by
  have hclamp := h.2.2.1 f
  unfold clamp at hclamp
  split at hclamp
  · omega
  · split at hclamp <;> omega

/-- The decisions of one occasion release sheet after sheet. -/
theorem Work.Decides.spaced (h : w.Decides v) (ht : w.TravelBounded) : ∃ new, v.arb.inFlight = w.arb.inFlight ++ new
    ∧ w.toState.Spaced (boundedALast w.now w.arb.aLast) new v.arb.aLast
    ∧ (new = [] → v.arb.aLast = boundedALast w.now w.arb.aLast) := by
  induction h with
  | @done w hc =>
    rw [w.poised_eq]
    exact ⟨[], (List.append_nil _).symm, .nil _ _ _, fun _ => rfl⟩
  | @next w v f hc hd ih =>
    obtain ⟨x, hx⟩ := (Work.release_is hc).appends
    have hrel := (Work.Released.refl w.poised).release f
    have hdue := State.due_iff.1 (State.choose_due hc)
    obtain ⟨y, hy⟩ : ∃ y, y = w.poised.release f := ⟨_, rfl⟩
    obtain ⟨z, hz, hzi, hza, hzn, hzt⟩ : ∃ z : Work, z = w.poised ∧ z.arb.inFlight = w.arb.inFlight
        ∧ z.arb.aLast = boundedALast w.now w.arb.aLast ∧ z.now = w.now ∧ z.tables = w.tables :=
      ⟨_, rfl, by rw [w.poised_eq], by rw [w.poised_eq], by rw [w.poised_eq], by rw [w.poised_eq]⟩
    rw [← hz] at hx hdue hrel ih
    rw [hzn, hza, hzt] at hdue
    obtain ⟨y, hy⟩ : ∃ y, y = z.release f := ⟨_, rfl⟩
    have hnow : y.now = w.now := by rw [hy, hrel.now, hzn]
    have hbanks : y.tables.banks = w.tables.banks := by rw [hy, hrel.banks, hzt]
    have hset : y.tables.settings = w.tables.settings := (TableStore.settings_of_banks hbanks).1
    have htravel : y.tables.travel = w.tables.travel := (TableStore.settings_of_banks hbanks).2.2.1
    rw [← hy] at ih
    obtain ⟨new, hnew, hspaced, hnone⟩ := ih fun g => by rw [htravel]; exact ht g
    obtain ⟨hflight, rfl, harrival, hdeadline, halast⟩ := hx
    rw [← hy, hzi] at hflight
    rw [← hy] at halast
    rw [hzn, hzt] at harrival
    rw [hzt] at hdeadline
    have hbound : boundedALast y.now y.arb.aLast = x.arrival := by
      rw [halast, harrival, hnow]
      exact boundedALast_later _ (ht _)
    rw [hbound] at hspaced hnone
    refine ⟨x :: new, by rw [hnew, hflight, List.append_assoc]; rfl, ⟨fun z hz => ?_, fun z hz => ?_, ?_, fun z hz => ?_⟩,
      nofun⟩
    · rcases List.mem_cons.1 hz with e | hz
      · rw [e]
        exact ⟨harrival, hdeadline⟩
      · have h := hspaced.each z hz
        rwa [hnow, htravel, hset] at h
    · cases hz
      rw [harrival]
      exact hdue
    · have hhead := hspaced.head
      have hchain := hspaced.chain
      rw [hset] at hhead hchain
      exact List.isChain_cons.2 ⟨hhead, hchain⟩
    · cases new with
      | nil =>
        cases hz
        exact hnone rfl
      | cons z' new => exact hspaced.last z (by rwa [List.getLast?_cons_cons] at hz)

theorem Work.closed_arb (w : Work) (b : State) : (w.closed b).arb.inFlight = w.arb.inFlight
    ∧ (w.closed b).arb.aLast = w.arb.aLast := by
  obtain ⟨fs, m', o', h1⟩ := w.timeWaits_shape
  have harb : w.timeWaits.arb = w.arb := by rw [h1]
  obtain ⟨bs, a, m, o, h⟩ := w.closed_shape b
  rw [h, harb]
  exact ⟨rfl, rfl⟩

theorem Work.goOn_arb (w : Work) : w.goOn.arb = w.arb := by
  rcases w.goOn_merge with h | h
  · exact Work.arb_of_merge h
  · exact h.2.2.2.1

/-- The releases of a settling follow one another from A_last on. -/
theorem Work.settle_spaced (ht : w.TravelBounded) (b : State) : ∃ new, (w.settle b).arb.inFlight = w.arb.inFlight ++ new
    ∧ w.toState.Spaced (boundedALast w.now w.arb.aLast) new (w.settle b).arb.aLast := by
  have harb := w.goOn_arb
  have hnow := w.goOn_now
  have htables : w.goOn.tables.banks = w.tables.banks := Work.banks_of_frame w.frame_goOn
  rw [Work.settle_closed]
  obtain ⟨y, hy⟩ : ∃ y, y = w.goOn := ⟨_, rfl⟩
  rw [← hy] at harb hnow htables ⊢
  have hset : y.tables.settings = w.tables.settings := (TableStore.settings_of_banks htables).1
  have htravel : y.tables.travel = w.tables.travel := (TableStore.settings_of_banks htables).2.2.1
  obtain ⟨h1, h2⟩ := y.decideReleases.closed_arb b
  rw [h1, h2]
  rcases y.decideReleases_is with ⟨-, hd⟩ | ⟨-, hd⟩
  · obtain ⟨new, hnew, hspaced, -⟩ := hd.spaced fun g => by rw [htravel]; exact ht g
    refine ⟨new, by rw [hnew, harb], ⟨fun x hx => ?_, fun x hx => ?_, ?_, hspaced.last⟩⟩
    · have h := hspaced.each x hx
      rwa [hnow, htravel, hset] at h
    · have h := hspaced.head x hx
      rwa [hnow, hset, harb] at h
    · have h := hspaced.chain
      rwa [hset] at h
  · rw [hd, harb]
    exact ⟨[], (List.append_nil _).symm, .nil _ _ _⟩

/-! ### What an operation takes from the list -/

/-- Entries have left the head of the in-flight list; A_last and the time stand. -/
structure Work.Took (w u : Work) : Prop where
  inFlight : ∃ n, u.arb.inFlight = w.arb.inFlight.drop n
  aLast : u.arb.aLast = w.arb.aLast
  now : u.now = w.now

theorem Work.Took.of (h : v.arb = w.arb) (hn : v.now = w.now) : w.Took v := ⟨⟨0, congrArg _ h⟩, congrArg _ h, hn⟩

theorem Work.Took.trans {x : Work} (h : w.Took v) (k : v.Took x) : w.Took x := by
  obtain ⟨⟨n, h1⟩, h2, h3⟩ := h
  obtain ⟨⟨m, k1⟩, k2, k3⟩ := k
  exact ⟨⟨n + m, by rw [k1, h1, List.drop_drop]⟩, k2.trans h2, k3.trans h3⟩

theorem Work.Still.took (h : w.Still v) (ha : v.arb.aLast = w.arb.aLast) : w.Took v := ⟨⟨0, h.inFlight⟩, ha, h.now⟩

/-- A move of any phase but the release decisions'. -/
theorem Move_took {ph : Phase} (hp : ph ≠ .release) (h : Move ph w v) : w.Took v := by
  cases h with
  | same hreg hfeeds harb hpockets hstapler hret hrun hpulses htables hnow => exact .of harb hnow
  | setFeed f r => exact .of (w.setFeed_arb f r) (w.setFeed_now f r)
  | setArb r hr =>
    refine ⟨?_, hr.aLast.resolve_right fun e => hp e.1, rfl⟩
    rcases hr.inFlight with e | ⟨-, n, e⟩
    · exact ⟨0, e⟩
    · exact ⟨n, e⟩
  | pulse f he => exact absurd he hp
  | append f k p g t d he => exact absurd he hp
  | setPack => exact .of (by simp) (by simp)
  | setClassQueue => exact .of (by simp) (by simp)
  | setPocket => exact .of (by simp) (by simp)
  | setBin => exact .of (by simp) (by simp)
  | _ => exact .of rfl rfl

theorem Moves_took {ph : Phase} (hp : ph ≠ .release) (h : Moves ph w v) : w.Took v :=
  h.keeps (P := fun x => w.Took x) (fun _ _ hm hx => hx.trans (Move_took hp hm)) (.of rfl rfl)

theorem State.writeAll_now (s : State) (ws : List Staged) : (s.writeAll ws).now = s.now := by
  refine State.writeAll_keeps (P := fun t => t.now = s.now) (fun t x h => Eq.trans ?_ h) ws s rfl
  unfold State.writeEntry
  split <;> rfl

/-- An operation is made of moves, none of the release decisions' or of the start of a delivery, unless it is one of four:
a feed's record, an announcement, a write, a reset. -/
inductive Work.Op.Kind (w : Work) : Work → Prop
  | moved {ph : Phase} {u : Work} (hm : Moves ph w u) (hr : ph ≠ .release) (hd : ph ≠ .deliver) : Op.Kind w u
  | feed (f : FeedId) (r : FeedRec) : Op.Kind w (w.setFeed f r)
  | announced (k : Handle) (r : PackRec) (hr : r.state = .announced) : Op.Kind w (w.acceptPack k r)
  | wrote (ws : List Staged) : Op.Kind w ((w.wrote ws).meetWrite w.toState ws)
  | reset (kind : ResetKind) (u : Work) (hu : w.ResetsFrom kind u) : Op.Kind w (u.resetCommon kind)

theorem Work.Op.kind {u : Work} (h : w.Op u) : Op.Kind w u := by
  have moved {u : Work} (hm : Moves .work w u) : Op.Kind w u := .moved hm (by decide) (by decide)
  cases h with
  | occasion b => exact moved (Moves.occasionIf .refl _)
  | feed f r => exact .feed f r
  | announce k j st c pages b => exact .announced k _ rfl
  | withdraw k h =>
    refine moved (Moves.withdrawPack .refl k fun hf => ?_)
    rw [hf] at h
    cases h
  | runState st ho hn => exact moved (Moves.setRunState .refl (.running ho.1 hn.1 hn.2))
  | bypass h => exact moved (Moves.enterBypass .refl (.running (by rw [h]; rfl) rfl rfl))
  | resume c t h => exact .moved (Moves.resume .refl t) (by decide) (by decide)
  | stop => exact .moved (Moves.takeStop .refl) (by decide) (by decide)
  | arrival tag h => exact moved ((Moves.matchArrival .refl (by decide) tag).occasionIf _)
  | deadline e h =>
    exact .moved (((((Moves.dropHead .refl (by decide)).requestHalt _).latch _).faultFeed _).requestFor _ _) (by decide)
      (by decide)
  | breakBlock => exact moved (Moves.restartTimer .refl).breakBlock
  | purgeDone p h => exact moved (Moves.endPurge .refl p _)
  | purgeTimeout p h => exact moved ((Moves.endPurge .refl p _).latch _)
  | volumeDone k h => exact moved (Moves.volumeDone .refl k)
  | volumeTimedOut k h => exact moved (Moves.volumeTimedOut .refl k)
  | cartridge => exact moved (Moves.fitCartridge .refl)
  | clearStapler h => exact moved (Moves.setStapler .refl _ _ _)
  | deliver d h => exact moved (Moves.completeDelivery .refl d)
  | lose d h => exact moved (Moves.loseDelivery .refl d)
  | deliveryTimedOut d h => exact moved (Moves.deliveryTimedOut .refl)
  | clearBin b => exact moved (Moves.setBin .refl b _ ⟨rfl, rfl, rfl⟩)
  | write ws => exact .wrote ws
  | reset kind u hu => exact .reset kind u hu

/-- Every operation but a reset leaves the list's tail. -/
theorem Work.Op.took {u : Work} (h : w.Op u) : w.Took u ∨ ∃ kind x, u = Work.resetCommon x kind := by
  cases h.kind with
  | moved hm hr _ => exact .inl (Moves_took hr hm)
  | feed f r => exact .inl (.of (w.setFeed_arb f r) (w.setFeed_now f r))
  | announced k r _ =>
    obtain ⟨m, o, h⟩ := w.acceptPack_fields k r
    exact .inl (.of (by rw [h]) (by rw [h]))
  | wrote ws =>
    refine .inl (.trans (v := w.wrote ws) (.of (State.writeAll_arb _ _) ?_) ?_)
    · exact State.writeAll_now _ _
    · exact Moves_took (ph := .work) (by decide) (Moves.meetWrite .refl _ _)
  | reset kind u => exact .inr ⟨kind, u, rfl⟩

/-! ### Resets (R191) -/

/-- A reset leaves every pocket of the others than RESET WORK to be purged. -/
theorem Work.resetCommon_anyPurging (w : Work) {kind : ResetKind} (hk : kind ≠ .work) :
    (w.resetCommon kind).anyPurging = true := by
  obtain ⟨fs, ps, bs, h, -, hps, -⟩ := w.resetCommon_shape kind
  rw [State.anyPurging_iff]
  refine ⟨0, ?_⟩
  rw [h]
  show ps[(0 : PocketId)].state = .purging
  rw [hps 0, decide_eq_false hk]
  rfl

/-- Nothing is released at a restart, and nothing is in flight after it. -/
theorem Work.settle_resetCommon (w : Work) (kind : ResetKind) (b : State) :
    ((w.resetCommon kind).settle b).arb.inFlight = [] := by
  have hany := w.resetCommon_anyPurging (kind := kind)
  obtain ⟨hstart, hempty⟩ : (w.resetCommon kind).run.state = .starting kind false
      ∧ (w.resetCommon kind).arb.inFlight = [] := by
    obtain ⟨fs, ps, bs, h, -⟩ := w.resetCommon_shape kind
    rw [h]
    exact ⟨rfl, rfl⟩
  obtain ⟨u, hu⟩ : ∃ u, u = w.resetCommon kind := ⟨_, rfl⟩
  rw [← hu] at hany hstart hempty ⊢
  have hrun := (Work.settle_starting hstart b).1
  have hgo : u.goOn.run.state = (u.settle b).run.state := congrArg RunControl.state (u.settle_run b).symm
  have hidle : u.goOn.releasing = false := by
    rw [Bool.eq_false_iff, Ne, State.releasing_iff, hgo, hrun]
    by_cases hk : kind = .work
    · subst hk
      split
      · rw [hstart]
        exact nofun
      · rw [u.startedState_eq]
        split <;> exact nofun
    · rw [hany hk, if_pos rfl, hstart]
      exact nofun
  rw [(Work.settle_idle hidle b).1, u.goOn_arb, hempty]

theorem Work.now_settle (w : Work) (b : State) : (w.settle b).now = w.now := Work.now_of_frame (w.frame_settle b)

/-- What every command makes of the in-flight list and of A_last. -/
theorem Work.Does.spaced (h : w.Does v) (hv : v.inRange) : ∃ n new, v.arb.inFlight = w.arb.inFlight.drop n ++ new
    ∧ v.toState.Spaced (boundedALast v.now w.arb.aLast) new v.arb.aLast := by
  cases h with
  | still h => exact ⟨0, [], by rw [h.inFlight]; simp, .nil _ _ _⟩
  | settled x u b hx hu hb hk hl =>
    rcases hu.took with ht | ⟨kind, y, rfl⟩
    · have hbanks : v.tables.banks = u.tables.banks := hk.banks.trans (Work.banks_of_frame (u.frame_settle b.toState))
      have htables := TableStore.settings_of_banks hbanks
      have hnow : v.now = u.now := hk.now.trans (u.now_settle b.toState)
      have hxnow : u.now = w.now := ht.now.trans hx.now
      have hbound : boundedALast u.now u.arb.aLast = boundedALast v.now w.arb.aLast := by
        rw [ht.aLast, hnow, hxnow]
        rcases hx.aLast with e | e <;> rw [e]
        exact boundedALast_idem _ _
      have htravel : u.TravelBounded := fun f => by
        rw [← htables.2.2.1]
        exact State.travelBounded_of_inRange hv f
      obtain ⟨new, hnew, hspaced⟩ := u.settle_spaced htravel b.toState
      obtain ⟨n, hn⟩ := ht.inFlight
      refine ⟨n, new, by rw [hk.inFlight, hnew, hn, hx.inFlight], ⟨fun z hz => ?_, fun z hz => ?_, ?_, fun z hz => ?_⟩⟩
      · have h := hspaced.each z hz
        rwa [← hnow, ← htables.2.2.1, ← htables.1] at h
      · have h := hspaced.head z hz
        rwa [hbound, ← htables.1] at h
      · have h := hspaced.chain
        rwa [← htables.1] at h
      · have h := hspaced.last z hz
        rcases hk.aLast with e | e <;> rw [e, h]
        have hz' := (hspaced.each z (List.mem_of_getLast? hz)).1
        rw [hz', u.now_settle b.toState]
        exact boundedALast_later _ (htravel _)
    · refine ⟨w.arb.inFlight.length, [], ?_, .nil _ _ _⟩
      rw [hk.inFlight, y.settle_resetCommon kind, List.drop_length]
      rfl

end

end Sys2Proof.Machine

namespace Sys2Proof.Proofs

open Sys2Proof.Machine

/-- Settles O7: an operation takes from the head of the list, and the decisions after it append, each by a feed that is
due. -/
theorem releasesAreSpaced : Obligations.ReleasesAreSpaced := by
  unfold Obligations.ReleasesAreSpaced
  intro c s t h hs
  have ht : t.inRange := exec_keeps (P := fun w => w.toState.inRange) (fun _ _ _ => Move_inRange)
    (fun _ _ _ => Begins_inRange) h hs
  obtain ⟨n, new, hlist, hspaced⟩ := (exec_does h).spaced ht
  exact ⟨n, new, hlist, hspaced.each, hspaced.head, hspaced.chain, hspaced.last⟩

end Sys2Proof.Proofs
end

section
/-! SUPPORT. What a write of entries leaves, and the settling after it (`State.writes`; R145, R155, R158, R170). -/

namespace Sys2Proof.Machine

/-! ### Pockets out of service -/

/-- No pocket has gone out of service. -/
def Plant.Unwritten (P Q : Plant) : Prop :=
  ∀ p, (Q.pocket p).state = .outOfService → (P.pocket p).state = .outOfService

namespace Plant.Unwritten

variable {P Q R : Plant}

theorem refl (P : Plant) : P.Unwritten P := fun _ => id

theorem trans (h : P.Unwritten Q) (k : Q.Unwritten R) : P.Unwritten R := fun p => h p ∘ k p

theorem of_pocket (h : P.Unwritten Q) (hp : R.pocket = Q.pocket) : P.Unwritten R := fun p hx => h p (by rwa [hp] at hx)

theorem setPocket (h : P.Unwritten Q) {p : PocketId} {x : PocketRec} (hx : x.state ≠ .outOfService) :
    P.Unwritten (Q.setPocket p x) := fun q hq => by
  by_cases e : q = p
  · rw [e, Plant.setPocket_pocket_self] at hq
    exact absurd hq hx
  · rw [Plant.setPocket_pocket_ne x e] at hq
    exact h q hq

theorem onPocket (h : P.Unwritten Q) (o : Option PocketId) {f : PocketRec → PocketRec}
    (hf : ∀ x, (f x).state ≠ .outOfService) : P.Unwritten (Q.onPocket o f) := by
  cases o with
  | none => exact h
  | some p => exact h.setPocket (hf _)

theorem setPack (h : P.Unwritten Q) (k : Handle) (r : PackRec) : P.Unwritten (Q.setPack k r) := h

theorem setStapler (h : P.Unwritten Q) (r : Stapler) : P.Unwritten (Q.setStapler r) := h

end Plant.Unwritten

section
variable {w v : Work}

theorem Work.startVolume_unwritten (w : Work) (k : WorkRec) : w.plant.Unwritten (w.startVolume k).plant := by
  by_cases hn : w.stapler.remaining < patternCount (w.pack k.handle).snap.pattern
  · rw [show w.startVolume k = w.shortVolume k from if_pos hn]
    unfold Work.shortVolume
    dsimp only
    split
    · exact .refl _
    · rw [Work.finishPack_plant]
      exact (Plant.Unwritten.onPocket (.setStapler (.refl _) _) _ fun x => by simp [PocketRec.finished]).setPack _ _
  · rw [w.startVolume_plant k (Nat.not_lt.1 hn)]
    exact (Plant.Unwritten.onPocket (.setPack (.refl _) _ _) _ fun x => by simp [PocketRec.presenting]).setStapler _

theorem Work.takeUp_unwritten (n : Nat) (w : Work) : w.plant.Unwritten (Work.takeUp n w).plant := by
  induction n generalizing w with
  | zero => exact .refl _
  | succ n ih =>
    unfold Work.takeUp
    split
    · exact .refl _
    · split
      · exact (w.startVolume_unwritten _).trans (ih _)
      · exact .refl _

theorem Work.startDelivery_unwritten (w : Work) : w.plant.Unwritten w.startDelivery.plant := by
  unfold Work.startDelivery
  split
  · split
    · exact .refl _
    · split
      · exact (Plant.Unwritten.setPocket (.refl w.plant) (by simp)).of_pocket (w.beginDelivery_pocket _ _ _)
      · exact .refl _
  · exact .refl _

/-- No pocket goes out of service as a step settles, a start-up aside. -/
theorem Work.settle_unwritten (hs : w.starting = false) (b : State) : w.plant.Unwritten (w.settle b).plant := by
  have hpurges : w.plant.Unwritten w.startPurges.plant := fun p hp => by
    unfold Work.startPurges at hp
    rwa [Work.each_same (fun x => (x.plant.pocket p).state) _ (fun x q => x.startPurge_state q p) _ w] at hp
  have hgo : w.plant.Unwritten w.goOn.plant := by
    unfold Work.goOn
    rw [Work.endStopping_plant, Work.endStartUp_of_running (w.startPurges_starting.trans hs)]
    obtain ⟨x, hx⟩ : ∃ x, x = w.startPurges := ⟨_, rfl⟩
    rw [← hx] at hpurges ⊢
    rw [← x.judge_plant] at hpurges
    exact (hpurges.trans (Work.takeUp_unwritten _ x.judge)).trans x.judge.staple.startDelivery_unwritten
  refine hgo.trans fun p hp => ?_
  rw [Work.settle_closed] at hp
  obtain ⟨x, hx⟩ : ∃ x, x = w.goOn := ⟨_, rfl⟩
  rw [← hx] at hp ⊢
  have hreleased := ((Work.Released.refl x).decideReleases).pockets p
  obtain ⟨y, hy⟩ : ∃ y, y = x.decideReleases := ⟨_, rfl⟩
  rw [← hy] at hp hreleased
  have hclosed : (y.closed b).pockets = y.pockets := by
    obtain ⟨bs, a, m, o, hc⟩ := y.closed_shape b
    rw [hc]
  have hp : y.pockets[p].state = .outOfService := by
    rw [← hclosed]
    exact hp
  rcases hreleased with e | ⟨-, e⟩
  · rw [e] at hp
    exact hp
  · rw [e] at hp
    cases hp

/-! ### Feeds that are not ONLINE -/

/-- A feed that is not ONLINE is not released from. -/
theorem Work.Decides.offline {f : FeedId} (h : w.Decides v) (hf : w.feeds[f].state ≠ .online) : v.feeds[f] = w.feeds[f] := by
  induction h with
  | @done w hc => rw [w.poised_eq]
  | @next w v g hc hd ih =>
    have hcand := State.choose_candidate hc
    have hfeeds := (Work.release_is hc).feeds
    obtain ⟨z, hz, hzf⟩ : ∃ z, z = w.poised ∧ z.feeds = w.feeds := ⟨_, rfl, by rw [w.poised_eq]⟩
    rw [← hz] at hcand hfeeds ih
    obtain ⟨y, hy⟩ : ∃ y, y = z.release g := ⟨_, rfl⟩
    rw [← hy] at hfeeds ih
    have hg : z.feeds[g].state = .online := by
      simp only [State.candidate, Bool.and_eq_true, decide_eq_true_eq] at hcand
      obtain ⟨⟨⟨⟨-, honline⟩, -⟩, -⟩, -⟩ := hcand
      exact honline
    have hne : g ≠ f := fun e => hf (by rw [← hzf, ← e]; exact hg)
    have hsame : y.feeds[f] = w.feeds[f] := by
      rw [← hzf, hfeeds]
      exact Vector.getElem_set_ne g.isLt f.isLt (Fin.val_ne_of_ne hne)
    rw [ih (by rw [hsame]; exact hf), hsame]

/-- A feed that is not ONLINE is left alone as a step settles, its wait aside, which is stopped. -/
theorem Work.settle_offline {f : FeedId} (hs : w.starting = false) (hf : w.feeds[f].state ≠ .online) (b : State) :
    (w.settle b).feeds[f] = { w.feeds[f] with wait := none } := by
  have hgo : w.goOn.feeds = w.feeds := by
    rcases w.goOn_merge with h | h
    · exact Work.feeds_of_merge h
    · exact absurd (h.1.symm.trans hs) nofun
  rw [Work.settle_closed]
  obtain ⟨x, hx⟩ : ∃ x, x = w.goOn := ⟨_, rfl⟩
  rw [← hx] at hgo ⊢
  have hdecided : x.decideReleases.feeds[f] = w.feeds[f] := by
    rcases x.decideReleases_is with ⟨-, hd⟩ | ⟨-, hd⟩
    · refine (hd.offline (f := f) ?_).trans ?_ <;> rw [hgo]
      exact hf
    · rw [hd, hgo]
  obtain ⟨y, hy⟩ : ∃ y, y = x.decideReleases := ⟨_, rfl⟩
  rw [← hy] at hdecided ⊢
  rw [y.closed_feed, State.timedFeed, hdecided, if_neg]
  have hhold : y.waitHolds f = false := by
    rw [State.waitHolds, hdecided, decide_eq_false hf]
    rfl
  rw [hhold]
  exact Bool.false_ne_true

end

end Sys2Proof.Machine
end

section
/-! SUPPORT. What a write of entries leaves, as its owning blocks meet it and the step settles (`Work.takeWrites_writes`;
R155, R158, R170). -/

namespace Sys2Proof.Machine

/-! ### The owning blocks meet the values (R34, R104, R170) -/

/-- A feed's record once its written state is met (R34, R40). -/
def FeedRec.met (r : FeedRec) : FeedRec := if r.state = .online then r else { r with discard := false, wait := none }

section
variable {w v x : Work}

theorem Work.settleFeed_shape (w : Work) (f : FeedId) : ∃ m o, w.settleFeed f = { w with
    feeds := w.feeds.set f w.feeds[f].met, tables := { w.tables with mark := m }, occasion := o } := by
  unfold Work.settleFeed
  dsimp only
  by_cases h : w.feeds[f].state = .online
  · rw [if_pos h, show w.feeds[f].met = w.feeds[f] from if_pos h,
      show w.feeds.set f w.feeds[f] = w.feeds from Vector.set_getElem_self f.isLt]
    exact ⟨_, _, rfl⟩
  · rw [if_neg h, show w.feeds[f].met = { w.feeds[f] with discard := false, wait := none } from if_neg h]
    exact w.setFeed_shape f _

theorem Work.settleFeeds_shape (w : Work) : ∃ fs m o, w.each Work.settleFeed allFeeds = { w with
    feeds := fs, tables := { w.tables with mark := m }, occasion := o } ∧ ∀ f : FeedId, fs[f] = w.feeds[f].met := by
  have hfold : ∀ (l : List FeedId) (x : Work), ∃ m o, x.each Work.settleFeed l = { x with
      feeds := l.foldl (fun v (i : FeedId) => v.set i v[i].met) x.feeds
      tables := { x.tables with mark := m }, occasion := o } := by
    intro l
    induction l with
    | nil => exact fun _ => ⟨_, _, rfl⟩
    | cons i l ih =>
      intro x
      obtain ⟨m, o, h⟩ := x.settleFeed_shape i
      obtain ⟨m', o', h'⟩ := ih (x.settleFeed i)
      refine ⟨m', o', h'.trans ?_⟩
      rw [h]
      rfl
  obtain ⟨m, o, h⟩ := hfold allFeeds w
  refine ⟨_, m, o, h, fun f => ?_⟩
  rw [foldl_set_getElem (fun _ r => FeedRec.met r) _ (by decide), if_pos (mem_allFeeds f)]

theorem Work.touches_shape (w : Work) (ws : List Staged) : ∃ m,
    w.each (fun (x : Work) (y : Staged) => x.touch y.ref) ws = { w with tables := { w.tables with mark := m } } := by
  induction ws generalizing w with
  | nil => exact ⟨_, rfl⟩
  | cons y ws ih =>
    obtain ⟨m, hm⟩ := w.touch_shape y.ref
    obtain ⟨m', hm'⟩ := ih (w.touch y.ref)
    refine ⟨m', hm'.trans ?_⟩
    rw [hm]

theorem Work.touches_onward (w : Work) (ws : List Staged) :
    w.Onward (w.each (fun (x : Work) (y : Staged) => x.touch y.ref) ws) :=
  (Work.Onward.refl w).each _ _ fun _ y h => h.touch y.ref

/-- No mark is left on an entry that is written (R158). -/
theorem Work.touches_unmark {ws : List Staged} {y : Staged} (hy : y ∈ ws) (w : Work) :
    (w.each (fun (x : Work) (y : Staged) => x.touch y.ref) ws).tables.mark ≠ some y.ref := by
  induction ws generalizing w with
  | nil => cases hy
  | cons z ws ih =>
    rcases List.mem_cons.1 hy with e | hy
    · rw [e]
      exact ((w.touch z.ref).touches_onward ws).unmarked (w.touch_unmarks z.ref)
    · exact ih hy (w.touch z.ref)

/-- `v` follows from the work `w`, in which `ws` are written, as the owning blocks meet the values. -/
structure Work.Met (w : Work) (ws : List Staged) (v : Work) : Prop where
  shape : ∃ fs m o l a, v = { w with
    feeds := fs, tables := { w.tables with mark := m }, occasion := o, link := l, attn := a }
  feeds : ∀ f : FeedId, v.feeds[f] = w.feeds[f].met
  mark : v.tables.mark = w.tables.mark ∨ v.tables.mark = none
  unmarked : ∀ x ∈ ws, v.tables.mark ≠ some x.ref
  link : v.link = if writesSettings ws then w.link.judgeWrite w.tables.settings else w.link
  latched : ∀ c, w.latched c = true → v.latched c = true

theorem Work.meetSettings_shape (w : Work) : ∃ a, w.meetSettings
    = { w with link := w.link.judgeWrite w.tables.settings, attn := a } := by
  unfold Work.meetSettings Work.judgeStaples
  dsimp only
  split <;> exact ⟨_, rfl⟩

theorem Work.meetSettings_latched (w : Work) {c : Cause} (h : w.latched c = true) : w.meetSettings.latched c = true := by
  unfold Work.meetSettings Work.judgeStaples
  dsimp only
  split
  · rw [Work.latched_latch]
    exact Bool.or_eq_true_iff.2 (.inr h)
  · exact h

theorem Work.meetWrite_met (w : Work) (before : State) (ws : List Staged) : w.Met ws (w.meetWrite before ws) := by
  obtain ⟨o, ho⟩ : ∃ o, o = ws.any fun x => occasionOf before w.toState x := ⟨_, rfl⟩
  have hw : w.meetWrite before ws = if writesSettings ws then
      (((w.each (fun (x : Work) (y : Staged) => x.touch y.ref) ws).occasionIf o).each Work.settleFeed allFeeds).meetSettings
      else ((w.each (fun (x : Work) (y : Staged) => x.touch y.ref) ws).occasionIf o).each Work.settleFeed allFeeds := by
    rw [ho]
    rfl
  have honward := (w.touches_onward ws).occasionIf o
  have hunmark (y : Staged) (hy : y ∈ ws) := Work.touches_unmark hy w
  obtain ⟨m, hm⟩ := w.touches_shape ws
  obtain ⟨x, hx⟩ : ∃ x, x = (w.each (fun (x : Work) (y : Staged) => x.touch y.ref) ws).occasionIf o := ⟨_, rfl⟩
  have hunmark (y : Staged) (hy : y ∈ ws) : x.tables.mark ≠ some y.ref := by
    rw [hx]
    exact hunmark y hy
  have hxw : x = { w with tables := { w.tables with mark := m }, occasion := x.occasion } := by rw [hx, hm]; rfl
  rw [← hx] at hw honward
  have hfeeds : x.Onward (x.each Work.settleFeed allFeeds) := (Work.Onward.refl x).each _ _ fun z f h => by
    unfold Work.settleFeed
    dsimp only
    split
    · exact h
    · exact h.setFeed _ _
  obtain ⟨fs, m', o', hy, hfs⟩ := x.settleFeeds_shape
  obtain ⟨y, hyx⟩ : ∃ y, y = x.each Work.settleFeed allFeeds := ⟨_, rfl⟩
  rw [← hyx] at hw hfeeds hy
  have hyw : y = { w with feeds := fs, tables := { w.tables with mark := m' }, occasion := o' } := by rw [hy, hxw]
  have hfs (f : FeedId) : fs[f] = w.feeds[f].met := by rw [hfs f, hxw]
  have hmark := (honward.trans hfeeds).mark
  have hunmarked (z : Staged) (hz : z ∈ ws) := hfeeds.unmarked (hunmark z hz)
  cases hb : writesSettings ws with
  | false =>
    rw [hw, hb, if_neg Bool.false_ne_true]
    exact ⟨⟨fs, m', o', w.link, w.attn, hyw⟩, fun f => by rw [← hfs f, hyw], hmark, hunmarked,
      by rw [hb, hyw]; rfl, fun c hc => by rw [hyw]; exact hc⟩
  | true =>
    obtain ⟨a, ha⟩ := y.meetSettings_shape
    have hlatch (c : Cause) (hc : w.latched c = true) : y.meetSettings.latched c = true :=
      y.meetSettings_latched (by rw [hyw]; exact hc)
    obtain ⟨z, hz⟩ : ∃ z, z = y.meetSettings := ⟨_, rfl⟩
    rw [← hz] at ha hlatch hw
    rw [hw, hb, if_pos rfl]
    exact ⟨⟨fs, m', o', _, a, by rw [ha, hyw]⟩, fun f => by rw [← hfs f, ha, hyw], by rw [ha]; exact hmark,
      by rw [ha]; exact hunmarked, by rw [hb, ha, hyw]; rfl, hlatch⟩

/-! ### The pockets that a write changes (R91) -/

theorem State.writeEntry_pocket (s : State) (x : Staged) (p : PocketId) : (s.writeEntry x).pockets[p] = s.pockets[p]
    ∨ (s.pockets[p].state = .empty ∨ s.pockets[p].state = .outOfService) := by
  unfold State.writeEntry
  split
  case h_9 q b _ _ =>
    by_cases e : q = p
    · subst e
      cases h : s.pockets[q].state
      case empty => exact .inr (.inl rfl)
      case outOfService => exact .inr (.inr rfl)
      all_goals
        refine .inl ((Vector.getElem_set_self q.isLt).trans ?_)
        unfold PocketRec.serviceWritten
        rw [h]
    · exact .inl (Vector.getElem_set_ne q.isLt p.isLt (Fin.val_ne_of_ne e))
  all_goals exact .inl rfl

/-- A write changes only pockets that are EMPTY or OUT_OF_SERVICE. -/
theorem State.writeAll_pocket (s : State) (ws : List Staged) (p : PocketId) : (s.writeAll ws).pockets[p] = s.pockets[p]
    ∨ (s.pockets[p].state = .empty ∨ s.pockets[p].state = .outOfService) := by
  refine State.writeAll_keeps (P := fun t => t.pockets[p] = s.pockets[p]
    ∨ (s.pockets[p].state = .empty ∨ s.pockets[p].state = .outOfService)) (fun t x h => ?_) ws s (.inl rfl)
  rcases h with h | h
  · rcases t.writeEntry_pocket x p with e | e
    · exact .inl (e.trans h)
    · exact .inr (h ▸ e)
  · exact .inr h

theorem PackState.housedBy_occupied (st : PackState) :
    PocketState.empty ∉ st.housedBy ∧ PocketState.outOfService ∉ st.housedBy := by
  cases st <;> decide

/-- No pack names a pocket that is written out of service. -/
theorem State.writeAll_unnamed {s : State} (hp : s.pocketsAgree) {ws : List Staged} {p : PocketId}
    (h : (s.writeAll ws).pockets[p].state = .outOfService) (k : Handle) : (s.pack k).pocket ≠ some p := by
  intro hk
  have hhoused := (hp.2 k).2 p hk
  have hstate : s.pockets[p].state = .empty ∨ s.pockets[p].state = .outOfService :=
    (s.writeAll_pocket ws p).elim (fun e => .inr (e ▸ h)) id
  obtain ⟨hempty, hout⟩ := PackState.housedBy_occupied (s.pack k).state
  rcases hstate with e | e <;> rw [e] at hhoused
  · exact hempty hhoused
  · exact hout hhoused

/-! ### HOLD (R170) -/

theorem LinkPort.judgeWrite_inbound (l : LinkPort) (v : Settings) : (l.judgeWrite v).inbound = l.inbound := by
  rw [LinkPort.judgeWrite_eq]

theorem LinkPort.judgeWrite_hold (l : LinkPort) (v : Settings) : (l.judgeWrite v).hold
    = if l.hold = true then decide (v.holdLow < l.inbound.length) else decide (v.holdHigh ≤ l.inbound.length) := by
  unfold LinkPort.judgeWrite
  cases h : l.hold
  · rw [if_neg Bool.false_ne_true, if_neg Bool.false_ne_true, LinkPort.judgeJoin_hold, h, Bool.false_or]
  · rw [if_pos rfl, if_pos rfl, LinkPort.judgeTake_hold, h, Bool.true_and, ← decide_not, decide_eq_decide]
    exact Nat.not_le

/-! ### A write (R155) -/

theorem State.writeAll_attn (s : State) (ws : List Staged) : (s.writeAll ws).attn = s.attn := by
  refine State.writeAll_keeps (P := fun t => t.attn = s.attn) (fun t x h => Eq.trans ?_ h) ws s rfl
  unfold State.writeEntry
  split <;> rfl

theorem State.writeAll_mark (s : State) (ws : List Staged) : (s.writeAll ws).tables.mark = s.tables.mark := by
  refine State.writeAll_keeps (P := fun t => t.tables.mark = s.tables.mark) (fun t x h => Eq.trans ?_ h) ws s rfl
  unfold State.writeEntry
  split <;> rfl

theorem Work.link_of_frame (h : v.frame = w.frame) : v.link = w.link := congrArg Frame.link h

theorem Work.tables_of_frame (h : v.frame = w.frame) : { v.tables with mark := none } = { w.tables with mark := none } :=
  congrArg Frame.tables h

/-- Entries written, their owning blocks' meeting of the values and the settling after it. -/
theorem Work.takeWrites_writes (w : Work) (hs : w.starting = false) (hp : w.pocketsAgree) (ws : List Staged) :
    w.writes (w.takeWrites ws).toState ws := by
  obtain ⟨u, hu⟩ : ∃ u : Work, u = w.wrote ws := ⟨_, rfl⟩
  have huw : u.toState = w.toState.writeAll ws := by rw [hu]; rfl
  have hreg : u.reg = w.reg := (congrArg State.reg huw).trans (State.writeAll_reg _ ws)
  have hlink : u.link = w.link := (congrArg State.link huw).trans (State.writeAll_link _ ws)
  have hrun : u.starting = false := by
    rw [State.starting_eq, show u.run = w.run from (congrArg State.run huw).trans (State.writeAll_run _ ws),
      ← State.starting_eq, hs]
  have hunnamed (p : PocketId) (h : u.pockets[p].state = .outOfService) (k : Handle) : (u.pack k).pocket ≠ some p := by
    rw [State.pack, hreg]
    exact State.writeAll_unnamed hp (by rw [← huw]; exact h) k
  have houter : u.outer = w.outer := by rw [hu]; exact State.writeAll_outer ws _
  have hattn : u.attn = w.attn := (congrArg State.attn huw).trans (State.writeAll_attn _ ws)
  have hmark : u.tables.mark = w.tables.mark := (congrArg (fun t : State => t.tables.mark) huw).trans (State.writeAll_mark _ ws)
  have hmet := u.meetWrite_met w.toState ws
  have htake : w.takeWrites ws = (u.meetWrite w.toState ws).settle w.toState := by rw [hu]; rfl
  obtain ⟨y, hy⟩ : ∃ y, y = u.meetWrite w.toState ws := ⟨_, rfl⟩
  rw [← hy] at hmet htake
  obtain ⟨⟨fs, m, o, l, a, hshape⟩, hfeeds, hmeets, hunmarked, hjudged, hlatched⟩ := hmet
  have hystart : y.starting = false := by rw [hshape]; exact hrun
  have hyreg : y.reg = w.reg := by rw [hshape]; exact hreg
  have hypockets : y.pockets = u.pockets := by rw [hshape]
  have hyouter : y.outer = w.outer := by rw [hshape]; exact houter
  have hytables : { y.tables with mark := none } = { u.tables with mark := none } := by rw [hshape]
  have hyret : y.ret = u.ret := by rw [hshape]
  have hystapler : y.stapler = u.stapler := by rw [hshape]
  have hsettles := Settles.settle w.toState y hystart
  have honward := (Work.Onward.refl y).settle w.toState
  have hkeeps := (State.keepsPacks_of_reg hyreg).settle w.toState
  have hframe := y.frame_settle w.toState
  have hzouter := Work.outer_of_frame hframe
  have hzlink : (y.settle w.toState).link = y.link := Work.link_of_frame hframe
  have hztables : { (y.settle w.toState).tables with mark := none } = { y.tables with mark := none } :=
    Work.tables_of_frame hframe
  have hbins := Work.settle_keepsBins w.toState y
  have hevolves := ((Evolves.refl y).settle w.toState).latched
  have hoffline (f : FeedId) (hf : y.feeds[f].state ≠ .online) := Work.settle_offline hystart hf w.toState
  have hwritten := Work.settle_unwritten hystart w.toState
  obtain ⟨z, hz⟩ : ∃ z, z = y.settle w.toState := ⟨_, rfl⟩
  rw [← hz] at hsettles honward hkeeps hzouter hzlink hztables hbins hevolves htake hwritten
  have hoffline (f : FeedId) (hf : y.feeds[f].state ≠ .online) : z.feeds[f] = { y.feeds[f] with wait := none } := by
    rw [hz]
    exact hoffline f hf
  rw [htake]
  unfold State.writes
  dsimp only
  rw [← huw]
  have hstate (f : FeedId) : y.feeds[f].state = u.feeds[f].state := by
    rw [hfeeds f, FeedRec.met]
    split <;> rfl
  refine ⟨hztables.trans hytables, ?_, fun x hx => honward.unmarked (hunmarked x hx), fun b => ?_, fun f => ⟨?_, fun hf => ?_⟩,
    fun p => ⟨fun h => ?_, fun h => ?_⟩, hkeeps, ?_, ?_, fun _ => ?_, ?_, ?_, fun c hc => ?_⟩
  · rcases honward.mark with e | e
    · rw [e, ← hmark]
      exact hmeets.symm
    · exact .inl e
  · rw [hbins b List.not_mem_nil, hyret]
  · exact (hsettles.feeds f).1.trans (hstate f)
  · rw [hoffline f (by rw [hstate f]; exact hf), hfeeds f, FeedRec.met, if_neg hf]
  · rw [← hypockets]
    exact hwritten p h
  · rw [hsettles.unnamed p (by rw [hypockets, h]; nofun) (by rw [hypockets, h]; nofun) fun k => ?_, hypockets, h]
    rw [State.pack, hyreg, ← hreg]
    exact hunnamed p h k
  · exact (congrArg Outer.now hzouter).trans (congrArg Outer.now hyouter)
  · exact (congrArg Outer.pins hzouter).trans (congrArg Outer.pins hyouter)
  · rw [← hystapler]
    exact hsettles.remaining
  · rw [hzlink, hjudged, ← hlink]
    split
    · exact LinkPort.judgeWrite_inbound _ _
    · rfl
  · rw [hzlink, hjudged, ← hlink]
    cases writesSettings ws with
    | false => rfl
    | true => exact LinkPort.judgeWrite_hold _ _
  · exact hevolves c (hlatched c (by rw [State.latched, hattn]; exact hc))

end

end Sys2Proof.Machine
end

section
/-! SUPPORT. Writes at the end of a step, and the edit group (R155, R160 to R162): the settling of
`Obligations.EditGroupIsAppliedWhole`. -/

namespace Sys2Proof.Machine

/-! ### Writes and the end of a step -/

section
variable {s : State} {w : Work} {ws : List Staged}

theorem State.writes.clearMark (h : s.writes w.toState ws) : s.writes w.clearMark.toState ws := by
  unfold State.writes at h ⊢
  obtain ⟨h1, -, -, h4, h5, h6, h7⟩ := h
  exact ⟨h1, .inl rfl, fun _ _ => nofun, h4, h5, h6, h7⟩

theorem State.writes.answer (h : s.writes w.toState ws) (k : Byte) (st : Status) (d : List Byte) (n : Notes) :
    s.writes (w.answer k st d n).toState ws := h

theorem State.writes.finish (h : s.writes w.toState ws) : s.writes w.finish ws := by
  have hq := w.finish_queues
  unfold State.writes at h ⊢
  obtain ⟨h1, h2, h3, h4, h5, h6, h7, h8, h9, h10, h11, h12, h13⟩ := h
  refine ⟨?_, ?_, ?_, fun b => ?_, fun f => ?_, fun p => ?_, h7.finish, ?_, ?_, ?_, ?_, ?_, fun c hc => ?_⟩
  · rw [w.finish_tables]; exact h1
  · rw [w.finish_tables]; exact h2
  · rw [w.finish_tables]; exact h3
  · rw [w.finish_ret]; exact h4 b
  · rw [w.finish_feeds]; exact h5 f
  · rw [w.finish_pockets]; exact h6 p
  · rw [w.finish_now]; exact h8
  · rw [w.finish_pins]; exact h9
  · rw [w.finish_stapler]; exact h10
  · rw [hq.inbound]; exact h11
  · rw [hq.hold]; exact h12
  · exact w.finish_latched c (h13 c hc)

theorem Work.takeWrites_told (w : Work) (ws : List Staged) : (w.takeWrites ws).told = w.told := by
  have hlink : (w.wrote ws).link = w.link := State.writeAll_link w.toState ws
  have hmet := ((w.wrote ws).meetWrite_met w.toState ws).link
  rw [hlink] at hmet
  have hsettled : (w.takeWrites ws).link = ((w.wrote ws).meetWrite w.toState ws).link :=
    Work.link_of_frame (((w.wrote ws).meetWrite w.toState ws).frame_settle w.toState)
  rw [State.told, State.told, hsettled, hmet]
  split
  · rw [LinkPort.judgeWrite_eq]
  · rfl

theorem Work.answer_tells (h : w.told = s.told) (k : Byte) (st : Status) (d : List Byte) (n : Notes) :
    s.tells (w.answer k st d n).finish (.result k st n d) := Work.finish_tells (r := ⟨k, st, n, d⟩) h rfl

/-- A write's Result is queued behind all that was queued. -/
theorem Work.takeWrites_tells (h : w.told = s.told) (ws : List Staged) (k : Byte) (st : Status) (d : List Byte) (n : Notes) :
    s.tells ((w.takeWrites ws).answer k st d n).finish (.result k st n d) :=
  Work.answer_tells ((w.takeWrites_told ws).trans h) k st d n

/-- A change of the Link Port or the group reaches no write. -/
theorem State.writeEntry_aside (s : State) (l : LinkPort) (x : Staged) :
    ({ s with link := l } : State).writeEntry x = { s.writeEntry x with link := l } := by
  unfold State.writeEntry
  split <;> rfl

theorem State.writeAll_aside (s : State) (l : LinkPort) (ws : List Staged) :
    ({ s with link := l } : State).writeAll ws = { s.writeAll ws with link := l } := by
  induction ws generalizing s with
  | nil => rfl
  | cons x ws ih =>
    refine Eq.trans ?_ (ih (s.writeEntry x))
    exact congrArg (fun t : State => t.writeAll ws) (s.writeEntry_aside l x)

/-! ### The checks at the close (R161) -/

/-- A staged write passes the checks made again at the close. -/
def State.passesClose (s : State) (x : Staged) : Bool := s.meetsApplyClass x && s.passesWork x

theorem State.passesClose_aside (s : State) (l : LinkPort) (x : Staged) :
    ({ s with link := l } : State).passesClose x = s.passesClose x := rfl

theorem firstRefused_passing {before : List Staged} {s : State} {n : Nat}
    (hb : ∀ b x a, before = b ++ x :: a → (s.writeAll b).passesClose x = true) (rest : List Staged) :
    firstRefused s n (before ++ rest) = firstRefused (s.writeAll before) (n + before.length) rest := by
  induction before generalizing s n with
  | nil => rfl
  | cons y before ih =>
    have hy := hb [] y before rfl
    obtain ⟨hclass, hwork⟩ := Bool.and_eq_true_iff.1 hy
    have hclass : s.meetsApplyClass y = true := hclass
    have hwork : s.passesWork y = true := hwork
    rw [List.cons_append, firstRefused, hclass, hwork, if_neg (by simp), if_neg (by simp),
      ih fun b x a h => hb (y :: b) x a (by rw [h]; rfl), List.length_cons, Nat.add_assoc, Nat.add_comm 1]
    rfl

theorem firstRefused_none {ws : List Staged} {s : State} (n : Nat)
    (h : ∀ b x a, ws = b ++ x :: a → (s.writeAll b).passesClose x = true) : firstRefused s n ws = none := by
  rw [← List.append_nil ws, firstRefused_passing h]
  rfl

theorem firstRefused_some {before after : List Staged} {x : Staged} {s : State} (n : Nat)
    (hb : ∀ b x a, before = b ++ x :: a → (s.writeAll b).passesClose x = true)
    (hx : (s.writeAll before).passesClose x = false) : firstRefused s n (before ++ x :: after)
      = some (if (s.writeAll before).meetsApplyClass x = false then .wrongState else .inUse, n + before.length, x.index) := by
  rw [firstRefused_passing hb, firstRefused]
  cases hc : (s.writeAll before).meetsApplyClass x with
  | false => rfl
  | true =>
    have hwork : (s.writeAll before).passesWork x = false := by
      rw [State.passesClose, hc, Bool.true_and] at hx
      exact hx
    rw [hwork]
    rfl

theorem Work.groupOpen_closed (h : w.tables.group = none) : w.groupOpen = (w.setGroup (some [])).answer kindGroup .accepted := by
  unfold Work.groupOpen
  rw [h]

theorem Work.groupOpen_opened (h : w.tables.group = some ws) : w.groupOpen = w.answer kindGroup .wrongState := by
  unfold Work.groupOpen
  rw [h]

theorem Work.groupDiscard_closed (h : w.tables.group = none) : w.groupDiscard = w.answer kindGroup .noGroup := by
  unfold Work.groupDiscard
  rw [h]

theorem Work.groupDiscard_opened (h : w.tables.group = some ws) :
    w.groupDiscard = (w.setGroup none).answer kindGroup .accepted [byteOf ws.length] := by
  unfold Work.groupDiscard
  rw [h]

theorem Work.groupClose_closed (h : w.tables.group = none) : w.groupClose = w.answer kindGroup .noGroup := by
  unfold Work.groupClose
  rw [h]

theorem Work.groupClose_passed (h : w.tables.group = some ws) (hn : firstRefused w.toState 1 ws = none) :
    w.groupClose = ((w.setGroup none).takeWrites ws).answer kindGroup .accepted [byteOf ws.length] := by
  unfold Work.groupClose
  simp only [h, hn]

theorem Work.groupClose_refused {st : Status} {n i : Nat} (h : w.tables.group = some ws)
    (hn : firstRefused w.toState 1 ws = some (st, n, i)) :
    w.groupClose = (w.setGroup none).answer kindGroup st (byteOf n :: bytesOf i) := by
  unfold Work.groupClose
  simp only [h, hn]

end

end Sys2Proof.Machine

namespace Sys2Proof.Proofs

open Sys2Proof.Machine

/-- Settles O58: the close checks the staged writes one after the other and takes them in one step. -/
theorem editGroupIsAppliedWhole : Obligations.EditGroupIsAppliedWhole := by
  unfold Obligations.EditGroupIsAppliedWhole
  intro s hf set
  have hfollows (c : Instr) (g : Option (List Staged)) : (set (s.takenFor c) g).attentionFollows :=
    State.takenFor_follows hf c
  have hgroup (c : Instr) : (s.takenFor c).tables.group = s.tables.group := by
    obtain ⟨l, hl, -⟩ := s.takenFor_link c
    rw [hl]
  refine ⟨fun ht => ⟨_, exec_taken ht, fun h => ?_, fun h => ?_⟩, fun ht => ⟨_, exec_taken ht, fun h => ?_, fun ws h => ?_⟩,
    fun ht _ hp => ⟨_, exec_taken ht, fun h => ?_, fun ws h => ?_⟩⟩
  · obtain ⟨ws, hws⟩ := Option.ne_none_iff_exists'.1 h
    rw [Instr.effect, Work.groupOpen_opened ((hgroup _).trans hws)]
    exact State.onlyTells_answer (State.takenFor_follows hf _) _ _ _ _
  · rw [Instr.effect, Work.groupOpen_closed ((hgroup _).trans h)]
    exact State.onlyTells_answer (hfollows _ _) _ _ _ _
  · rw [Instr.effect, Work.groupDiscard_closed ((hgroup _).trans h)]
    exact State.onlyTells_answer (State.takenFor_follows hf _) _ _ _ _
  · rw [Instr.effect, Work.groupDiscard_opened ((hgroup _).trans h)]
    exact State.onlyTells_answer (hfollows _ _) _ _ _ _
  · rw [Instr.effect, Work.groupClose_closed ((hgroup _).trans h)]
    exact State.onlyTells_answer (State.takenFor_follows hf _) _ _ _ _
  · obtain ⟨l, hl, -⟩ := s.takenFor_link (.groupClose false)
    have htold := s.takenFor_told (.groupClose false)
    have hstart : (s.takenFor (.groupClose false)).starting = false := by
      rw [State.starting_eq, State.takenFor_run, ← State.starting_eq]
      exact State.starting_of_takesCommand ht
    have hws := (hgroup (.groupClose false)).trans h
    have hsets := hfollows (.groupClose false) none
    obtain ⟨T, hT⟩ : ∃ T, T = s.takenFor (.groupClose false) := ⟨_, rfl⟩
    rw [← hT] at htold hstart hws hsets ⊢
    have hTs : T = { s with link := l } := hT.trans hl
    have hagree : (set T none).pocketsAgree := by rw [hTs]; exact hp
    have hchecks (b : List Staged) : T.writeAll b = { s.writeAll b with link := l } := by rw [hTs, State.writeAll_aside]
    have hpasses {b : List Staged} {x : Staged} : (T.writeAll b).passesClose x = (s.writeAll b).passesClose x := by
      rw [hchecks]
      rfl
    refine ⟨fun hpass => ?_, fun before x after hsplit hpass hfail => ?_⟩
    · have heff : (Instr.groupClose false).effect (Work.of T)
          = ((Work.of (set T none)).takeWrites ws).answer kindGroup .accepted [byteOf ws.length] :=
        Work.groupClose_passed (w := Work.of T) hws
          (firstRefused_none 1 fun b x a e => hpasses.trans (hpass b x a e))
      rw [heff]
      exact ⟨(((Work.of (set T none)).takeWrites_writes hstart hagree ws).answer _ _ _ _).finish,
        Work.takeWrites_tells htold ws _ _ _ _⟩
    · have hclass : (s.writeAll before).meetsApplyClass x = (T.writeAll before).meetsApplyClass x := by
        rw [hchecks]
        rfl
      have hrefused := firstRefused_some (s := T) (after := after) 1 (fun b x a e => hpasses.trans (hpass b x a e))
        (hpasses.trans hfail)
      rw [← hsplit, Nat.add_comm 1, ← hclass] at hrefused
      rw [Instr.effect, Work.groupClose_refused (w := Work.of T) hws hrefused]
      exact State.onlyTells_answer hsets _ _ _ _

end Sys2Proof.Proofs
end

section
/-! SUPPORT. The writable fields of an entry, and what a write of entries leaves in them (R145, R155, R197). -/

namespace Sys2Proof.Machine

/-! ### Codes (R192, R196) -/

theorem boolByte_decide {b : Byte} (h : b.toNat ≤ 1) : boolByte (decide (b.toNat = 1)) = b := by
  have hb : b.toNat = 0 ∨ b.toNat = 1 := by omega
  rcases hb with e | e <;> rw [byte_eq_of_toNat e] <;> rfl

theorem patternCode_of {b : Byte} (h : b.toNat ≤ 2) : patternCode (patternOf b.toNat) = b := by
  have hb : b.toNat = 0 ∨ b.toNat = 1 ∨ b.toNat = 2 := by omega
  rcases hb with e | e | e <;> rw [byte_eq_of_toNat e] <;> rfl

theorem oversizeCode_of {b : Byte} (h : b.toNat ≤ 2) : oversizeCode (oversizeOf b.toNat) = b := by
  have hb : b.toNat = 0 ∨ b.toNat = 1 ∨ b.toNat = 2 := by omega
  rcases hb with e | e | e <;> rw [byte_eq_of_toNat e] <;> rfl

theorem staplesOutCode_of {b : Byte} (h : b.toNat ≤ 1) : staplesOutCode (staplesOutOf b.toNat) = b := by
  have hb : b.toNat = 0 ∨ b.toNat = 1 := by omega
  rcases hb with e | e <;> rw [byte_eq_of_toNat e] <;> rfl

theorem orderCode_of {b : Byte} (h : b.toNat ≤ 1) : orderCode (orderOf b.toNat) = b := by
  have hb : b.toNat = 0 ∨ b.toNat = 1 := by omega
  rcases hb with e | e <;> rw [byte_eq_of_toNat e] <;> rfl

theorem feedStateCode_of {b : Byte} (h : b.toNat ≤ 1) : feedStateCode (feedStateOf b.toNat) = b := by
  have hb : b.toNat = 0 ∨ b.toNat = 1 := by omega
  rcases hb with e | e <;> rw [byte_eq_of_toNat e] <;> rfl

theorem lampCode_of {b : Byte} (h : b.toNat ≤ 3) : lampCode (lampOf b.toNat) = b := by
  have hb : b.toNat = 0 ∨ b.toNat = 1 ∨ b.toNat = 2 ∨ b.toNat = 3 := by omega
  rcases hb with e | e | e | e <;> rw [byte_eq_of_toNat e] <;> rfl

theorem byteOf_thickness {b : Byte} (h : b.toNat ≤ 7) : byteOf (Fin.ofNat 8 b.toNat).val = b := by
  rw [show (Fin.ofNat 8 b.toNat).val = b.toNat from Nat.mod_eq_of_lt (by omega), byteOf_toNat]

theorem byteOf_optNumber {n : Nat} {b : Byte} (h : b.toNat ≤ n) : byteOf (optNumber (named n b.toNat)) = b := by
  unfold named
  split
  next hn =>
    rw [show optNumber (some (⟨b.toNat - 1, hn.2⟩ : Fin n)) = b.toNat by simp only [optNumber]; omega, byteOf_toNat]
  next hn =>
    have h0 : b.toNat = 0 := by omega
    rw [byte_eq_of_toNat h0]
    rfl

theorem clamp_eq {lo hi : Nat} (h : lo ≤ hi) (n : Nat) : clamp lo hi n = max lo (min hi n) := by
  unfold clamp
  split
  · omega
  · split <;> omega

/-! ### The writable fields of an entry -/

/-- The writable fields of entry `e` as they stand. -/
def State.writable (s : State) : EntryRef → Entry
  | .job j => .job s.tables.jobs[j]
  | .cls c => .cls s.tables.classes[c]
  | .roster st => .roster (s.rosterClass st)
  | .media m => .media s.tables.media[m]
  | .feed f => .feed s.feeds[f].state s.tables.travel[f]
  | .bin b => .bin s.ret.bins[b].capacity s.ret.bins[b].inService s.ret.bins[b].lampMode
  | .settings => .settings s.tables.settings
  | .mask => .mask s.tables.masks
  | .pack _ => .media 0
  | .pocket p => .pocket (decide (s.pockets[p].state ≠ .outOfService))

/-- The bytes of an entry in the layout of R197. -/
def EntryRef.size : EntryRef → Nat
  | .job _ => 7
  | .cls _ => 3
  | .roster _ => 1
  | .media _ => 2
  | .feed _ => 4
  | .bin _ => 6
  | .settings => 23
  | .mask => 15
  | .pack _ => 28
  | .pocket _ => 9

section
variable {s t : State} {l : List Byte}

theorem State.holds_job {j : JobId} (hl : l.length = 7) (hd : codesDefined (.job j) l = true)
    (hw : s.writable (.job j) = (readEntry (.job j) l).clamp) : s.holds (.job j) l := by
  match l, hl with
  | [b0, b1, b2, b3, b4, b5, b6], _ =>
    obtain ⟨h0, h1, h2, h3, h4, h5⟩ : b0.toNat ≤ 1 ∧ b1.toNat ≤ 7 ∧ b2.toNat ≤ 7 ∧ b3.toNat ≤ 2 ∧ b4.toNat ≤ 2 ∧ b5.toNat ≤ 1 :=
      of_decide_eq_true hd
    have hjob : s.tables.jobs[j] = _ := Entry.job.inj hw
    show (s.jobBytes j).take 6 = [b0, b1, b2, b3, b4, b5]
    unfold State.jobBytes
    rw [hjob]
    show [boolByte (decide (b0.toNat = 1)), byteOf (Fin.ofNat 8 b1.toNat).val, byteOf (Fin.ofNat 8 b2.toNat).val,
      patternCode (patternOf b3.toNat), oversizeCode (oversizeOf b4.toNat), staplesOutCode (staplesOutOf b5.toNat)] = _
    rw [boolByte_decide h0, byteOf_thickness h1, byteOf_thickness h2, patternCode_of h3, oversizeCode_of h4,
      staplesOutCode_of h5]

theorem State.holds_class {c : ClassId} (hl : l.length = 3) (hd : codesDefined (.cls c) l = true)
    (hw : s.writable (.cls c) = (readEntry (.cls c) l).clamp) : s.holds (.cls c) l := by
  match l, hl with
  | [b0, b1, b2], _ =>
    obtain ⟨h0, h1⟩ : b0.toNat ≤ 24 ∧ b1.toNat ≤ 1 := of_decide_eq_true hd
    have hclass : s.tables.classes[c] = _ := Entry.cls.inj hw
    show (s.classBytes c).take 2 = [b0, b1]
    unfold State.classBytes
    rw [hclass]
    show [byteOf (optNumber (named 24 b0.toNat)), orderCode (orderOf b1.toNat)] = _
    rw [byteOf_optNumber h0, orderCode_of h1]

theorem State.holds_roster {x : StudentId} (hl : l.length = 1) (hd : codesDefined (.roster x) l = true)
    (hw : s.writable (.roster x) = (readEntry (.roster x) l).clamp) : s.holds (.roster x) l := by
  match l, hl with
  | [b0], _ =>
    have hclass : s.rosterClass x = named 48 b0.toNat := Entry.roster.inj hw
    show [byteOf (optNumber (s.rosterClass x))] = [b0]
    rw [hclass, byteOf_optNumber (show b0.toNat ≤ 48 from of_decide_eq_true hd)]

theorem State.holds_media {m : Fin 8} (hw : s.writable (.media m) = (readEntry (.media m) l).clamp) :
    s.holds (.media m) l := by
  have hmedia : s.tables.media[m] = clamp 40 600 (halfAt l 0) := Entry.media.inj hw
  show bytesOf s.tables.media[m] = quantity l 40 600 0
  rw [hmedia, clamp_eq (by decide)]
  rfl

theorem State.holds_feed {f : FeedId} (hl : l.length = 4) (hd : codesDefined (.feed f) l = true)
    (hw : s.writable (.feed f) = (readEntry (.feed f) l).clamp) : s.holds (.feed f) l := by
  match l, hl with
  | [b0, b1, b2, b3], _ =>
    have h0 : b0.toNat ≤ 1 := of_decide_eq_true hd
    obtain ⟨hstate, htravel⟩ : s.feeds[f].state = feedStateOf b0.toNat
      ∧ s.tables.travel[f] = clamp 300 6000 (halfAt [b0, b1, b2, b3] 1) := Entry.feed.inj hw
    show (s.feedBytes f).take 3 = [b0] ++ quantity [b0, b1, b2, b3] 300 6000 1
    unfold State.feedBytes
    dsimp only
    rw [hstate, htravel, clamp_eq (by decide), feedStateCode_of h0]
    rfl

theorem State.holds_bin {b : BinId} (hl : l.length = 6) (hd : codesDefined (.bin b) l = true)
    (hw : s.writable (.bin b) = (readEntry (.bin b) l).clamp) : s.holds (.bin b) l := by
  match l, hl with
  | [b0, b1, b2, b3, b4, b5], _ =>
    obtain ⟨h2, h3⟩ : b2.toNat ≤ 1 ∧ b3.toNat ≤ 3 := of_decide_eq_true hd
    obtain ⟨hcapacity, hservice, hmode⟩ : s.ret.bins[b].capacity = clamp 100 1500 (halfAt [b0, b1, b2, b3, b4, b5] 0)
      ∧ s.ret.bins[b].inService = decide (b2.toNat = 1) ∧ s.ret.bins[b].lampMode = lampOf b3.toNat := Entry.bin.inj hw
    show (s.binBytes b).take 4 = quantity [b0, b1, b2, b3, b4, b5] 100 1500 0 ++ [b2, b3]
    unfold State.binBytes
    dsimp only
    rw [hcapacity, hservice, hmode, clamp_eq (by decide), boolByte_decide h2, lampCode_of h3]
    rfl

theorem State.holds_settings (hw : s.writable .settings = (readEntry .settings l).clamp) : s.holds .settings l := by
  have hset : s.tables.settings = (settingsOf l).clamp := Entry.settings.inj hw
  have hlow : (if clamp 2 32 (byteAt l 10) ≤ clamp 0 31 (byteAt l 11) then clamp 2 32 (byteAt l 10) - 1
      else clamp 0 31 (byteAt l 11)) = min (min 31 (byteAt l 11)) (max 2 (min 32 (byteAt l 10)) - 1) := by
    rw [clamp_eq (by decide), clamp_eq (by decide)]
    split <;> omega
  show (s.settingsBytes).take 21 = _
  unfold State.settingsBytes
  rw [hset]
  unfold Settings.clamp settingsOf
  dsimp only
  rw [hlow]
  simp only [clamp_eq (show 1000 ≤ 8000 by decide), clamp_eq (show 2000 ≤ 20000 by decide),
    clamp_eq (show 200 ≤ 2000 by decide), clamp_eq (show 50 ≤ 1000 by decide), clamp_eq (show 2 ≤ 60 by decide),
    clamp_eq (show 1 ≤ 3 by decide), clamp_eq (show 2 ≤ 32 by decide), clamp_eq (show 2 ≤ 8 by decide),
    clamp_eq (show 500 ≤ 5000 by decide), clamp_eq (show 0 ≤ 1000 by decide), clamp_eq (show 1000 ≤ 10000 by decide)]
  rfl

theorem State.holds_mask (hl : l.length = 15) (hd : codesDefined .mask l = true)
    (hw : s.writable .mask = (readEntry .mask l).clamp) : s.holds .mask l := by
  have hmask : s.tables.masks = Vector.ofFn fun i : Fin 15 => decide (byteAt l i.val = 1) := Entry.mask.inj hw
  have hcode (i : Nat) (hi : i < 15) : byteAt l i ≤ 1 :=
    of_decide_eq_true (List.all_eq_true.1 (show ((List.range 15).all fun i => decide (byteAt l i ≤ 1)) = true from hd) i (List.mem_range.2 hi))
  show s.tables.masks.toList.map boolByte = l
  rw [hmask]
  refine List.ext_getElem (by simp [hl]) fun i hi hi' => ?_
  have hbyte : byteAt l i = l[i].toNat := by rw [byteAt, List.getD_eq_getElem _ _ hi']
  have h := hcode i (by omega)
  rw [hbyte] at h
  simp only [List.getElem_map, Vector.getElem_toList, Vector.getElem_ofFn, hbyte]
  exact boolByte_decide h

theorem State.holds_pocket {p : PocketId} (hd : codesDefined (.pocket p) l = true)
    (hw : s.writable (.pocket p) = (readEntry (.pocket p) l).clamp) : s.holds (.pocket p) l := by
  have h7 : byteAt l 7 ≤ 1 := of_decide_eq_true hd
  have hstate : decide (s.pockets[p].state ≠ .outOfService) = decide (byteAt l 7 = 1) := Entry.pocket.inj hw
  show boolByte (decide (s.pockets[p].state ≠ .outOfService)) = l.getD 7 0
  rw [hstate]
  exact boolByte_decide h7

/-- Where an entry's writable fields are those that sound bytes give, it holds what the bytes write (R155). -/
theorem State.holds_of_writable {e : EntryRef} (hl : l.length = e.size) (hd : codesDefined e l = true)
    (hp : ∀ h, e ≠ .pack h) (hw : s.writable e = (readEntry e l).clamp) : s.holds e l := by
  cases e with
  | job j => exact State.holds_job hl hd hw
  | cls c => exact State.holds_class hl hd hw
  | roster x => exact State.holds_roster hl hd hw
  | media m => exact State.holds_media hw
  | feed f => exact State.holds_feed hl hd hw
  | bin b => exact State.holds_bin hl hd hw
  | settings => exact State.holds_settings hw
  | mask => exact State.holds_mask hl hd hw
  | pack h => exact absurd rfl (hp h)
  | pocket p => exact State.holds_pocket hd hw

end

end Sys2Proof.Machine
end

section
/-! SUPPORT. The entries that a Table Write names, and what is written in them (R154, R155). -/

namespace Sys2Proof.Machine

/-! ### Entries and their indices (R145) -/

/-- The index of an entry in its bank. -/
def EntryRef.index : EntryRef → Nat
  | .job j => j.val + 1
  | .cls c => c.val + 1
  | .roster x => x.val
  | .media m => m.val
  | .feed f => f.val + 1
  | .bin b => b.val + 1
  | .settings => 1
  | .mask => 1
  | .pack h => h.val + 1
  | .pocket p => p.val + 1

/-- The entry is one of the Pack bank. -/
def EntryRef.isPack : EntryRef → Bool
  | .pack _ => true
  | _ => false

theorem refAt_some {bank index : Nat} {e : EntryRef} (h : refAt bank index = some e) :
    e.index = index ∧ e.size = bankEntrySize bank ∧ (e.isPack = true → bank = 9) := by
  unfold refAt at h
  split at h
  case h_11 => cases h
  all_goals
    split at h
    · cases h
      exact ⟨by simp only [EntryRef.index] <;> omega, rfl, by simp [EntryRef.isPack]⟩
    · cases h

section
variable {s t : State}

/-! ### Writes and the writable fields -/

/-- A write leaves the fields of other entries alone. -/
theorem State.writeEntry_writable_ne {x : Staged} {e : EntryRef} (h : x.ref ≠ e) :
    (s.writeEntry x).writable e = s.writable e := by
  unfold State.writeEntry
  split
  case h_1 j v hr _ =>
    cases e with
    | job k => exact congrArg Entry.job (Vector.getElem_set_ne j.isLt k.isLt (Fin.val_ne_of_ne fun i => h (by rw [hr, i])))
    | _ => rfl
  case h_2 c v hr _ =>
    cases e with
    | cls k => exact congrArg Entry.cls (Vector.getElem_set_ne c.isLt k.isLt (Fin.val_ne_of_ne fun i => h (by rw [hr, i])))
    | _ => rfl
  case h_3 y v hr _ =>
    cases e with
    | roster k => exact congrArg Entry.roster (Sparse.get_put_ne _ _ _ fun i => h (by rw [hr, i]))
    | _ => rfl
  case h_4 m v hr _ =>
    cases e with
    | media k => exact congrArg Entry.media (Vector.getElem_set_ne m.isLt k.isLt (Fin.val_ne_of_ne fun i => h (by rw [hr, i])))
    | _ => rfl
  case h_5 f st n hr _ =>
    cases e with
    | feed k =>
      have hne : f.val ≠ k.val := Fin.val_ne_of_ne fun i => h (by rw [hr, i])
      exact congrArg₂ Entry.feed (congrArg FeedRec.state (Vector.getElem_set_ne f.isLt k.isLt hne))
        (Vector.getElem_set_ne f.isLt k.isLt hne)
    | _ => rfl
  case h_6 b n i m hr _ =>
    cases e with
    | bin k =>
      have hne : b.val ≠ k.val := Fin.val_ne_of_ne fun i => h (by rw [hr, i])
      exact congrArg (fun r : BinRec => Entry.bin r.capacity r.inService r.lampMode)
        (Vector.getElem_set_ne b.isLt k.isLt hne)
    | _ => rfl
  case h_7 v hr _ =>
    cases e with
    | settings => exact absurd hr h
    | _ => rfl
  case h_8 m hr _ =>
    cases e with
    | mask => exact absurd hr h
    | _ => rfl
  case h_9 p v hr _ =>
    cases e with
    | pocket k =>
      have hne : p.val ≠ k.val := Fin.val_ne_of_ne fun i => h (by rw [hr, i])
      exact congrArg (fun r : PocketRec => Entry.pocket (decide (r.state ≠ .outOfService)))
        (Vector.getElem_set_ne p.isLt k.isLt hne)
    | _ => rfl
  case h_10 => rfl

theorem PocketRec.serviceWritten_service {r : PocketRec} {b : Bool}
    (h : b = true ∨ r.state = .empty ∨ r.state = .outOfService) :
    decide ((r.serviceWritten b).state ≠ .outOfService) = b := by
  unfold PocketRec.serviceWritten
  cases b with
  | true => cases hs : r.state <;> simp [hs, PocketRec.emptied]
  | false =>
    rcases h with h | h | h
    · cases h
    · simp [h]
    · simp [h]

/-- A write that passes the work checks leaves what it gives (R91, R155). -/
theorem State.writeEntry_writable_self {e : EntryRef} {i : Nat} {l : List Byte} (hp : e.isPack = false)
    (hw : s.passesWork (writeItem i e l).write = true) :
    (s.writeEntry (writeItem i e l).write).writable e = (readEntry e l).clamp := by
  cases e with
  | job j => exact congrArg Entry.job (Vector.getElem_set_self j.isLt)
  | cls c => exact congrArg Entry.cls (Vector.getElem_set_self c.isLt)
  | roster x => exact congrArg Entry.roster (Sparse.get_put_self _ _ _ _)
  | media m => exact congrArg Entry.media (Vector.getElem_set_self m.isLt)
  | feed f =>
    exact congrArg₂ Entry.feed (congrArg FeedRec.state (Vector.getElem_set_self f.isLt)) (Vector.getElem_set_self f.isLt)
  | bin b =>
    exact congrArg (fun r : BinRec => Entry.bin r.capacity r.inService r.lampMode) (Vector.getElem_set_self b.isLt)
  | settings => rfl
  | mask => rfl
  | pack h => cases hp
  | pocket p =>
    have hpass : (decide (byteAt l 7 = 1) || decide (s.pockets[p].state = .empty)
        || decide (s.pockets[p].state = .outOfService)) = true := hw
    rw [Bool.or_eq_true_iff, Bool.or_eq_true_iff, decide_eq_true_iff (p := s.pockets[p].state = .empty),
      decide_eq_true_iff (p := s.pockets[p].state = .outOfService), or_assoc] at hpass
    refine (congrArg (fun r : PocketRec => Entry.pocket (decide (r.state ≠ .outOfService)))
      (Vector.getElem_set_self p.isLt)).trans ?_
    exact congrArg Entry.pocket (PocketRec.serviceWritten_service hpass)

/-- What has been written stands after the write's end. -/
theorem State.writes.writable {ws : List Staged} (h : s.writes t ws) (e : EntryRef) :
    t.writable e = (s.writeAll ws).writable e := by
  unfold State.writes at h
  obtain ⟨htables, -, -, hbins, hfeeds, hpockets, -⟩ := h
  cases e with
  | job j => exact (congrArg (fun x : TableStore => Entry.job x.jobs[j]) htables :)
  | cls c => exact (congrArg (fun x : TableStore => Entry.cls x.classes[c]) htables :)
  | roster x => exact (congrArg (fun y : TableStore => Entry.roster (Sparse.get none y.roster x)) htables :)
  | media m => exact (congrArg (fun x : TableStore => Entry.media x.media[m]) htables :)
  | feed f => exact congrArg₂ Entry.feed (hfeeds f).1 (congrArg (fun x : TableStore => x.travel[f]) htables :)
  | bin b => exact (congrArg (fun r : BinRec => Entry.bin r.capacity r.inService r.lampMode) (hbins b) :)
  | settings => exact (congrArg (fun x : TableStore => Entry.settings x.settings) htables :)
  | mask => exact (congrArg (fun x : TableStore => Entry.mask x.masks) htables :)
  | pack h => rfl
  | pocket p => exact congrArg Entry.pocket (decide_eq_decide.2 (not_congr (hpockets p)))

/-! ### The checks of a write (R154) -/

theorem State.refuses_eq_none {items : List WriteItem} : s.refuses items = none
    ↔ (∀ x ∈ items, s.meetsApplyClass x.write = true) ∧ (∀ x ∈ items, x.defined = true)
      ∧ firstInUse s (items.map WriteItem.write) = none := by
  unfold State.refuses
  cases hc : items.find? fun x => !s.meetsApplyClass x.write with
  | some x =>
    have hx := List.find?_some hc
    simp only [reduceCtorEq, false_iff]
    rintro ⟨h, -⟩
    rw [h x (List.mem_of_find?_eq_some hc)] at hx
    cases hx
  | none =>
    have hclass : ∀ x ∈ items, s.meetsApplyClass x.write = true := by simpa using hc
    cases hd : items.find? fun x => !x.defined with
    | some x =>
      have hx := List.find?_some hd
      simp only [reduceCtorEq, false_iff]
      rintro ⟨-, h, -⟩
      rw [h x (List.mem_of_find?_eq_some hd)] at hx
      cases hx
    | none =>
      have hdefined : ∀ x ∈ items, x.defined = true := by simpa using hd
      simp only [Option.map_eq_none_iff]
      exact ⟨fun h => ⟨hclass, hdefined, h⟩, fun h => h.2.2⟩

theorem firstInUse_cons {x : Staged} {ws : List Staged} : firstInUse s (x :: ws) = none
    ↔ s.passesWork x = true ∧ firstInUse (s.writeEntry x) ws = none := by
  rw [firstInUse]
  cases s.passesWork x <;> simp

/-! ### The entries of a Table Write (R155) -/

theorem writeItems_cons (bank index n : Nat) (l : List Byte) : writeItems bank index (n + 1) l =
    ((refAt bank index).map fun e => writeItem index e (l.take (bankEntrySize bank))
      :: writeItems bank (index + 1) n (l.drop (bankEntrySize bank))).getD [] := by
  rw [writeItems, refsFrom]
  cases refAt bank index <;> rfl

/-- The entries of a write name entries from its first index on. -/
theorem writeItems_ref {bank : Nat} {x : WriteItem} (n : Nat) : ∀ {index : Nat} {l : List Byte},
    x ∈ writeItems bank index n l → ∃ j, index ≤ j ∧ refAt bank j = some x.write.ref := by
  induction n with
  | zero => exact fun h => absurd h List.not_mem_nil
  | succ n ih =>
    intro index l h
    rw [writeItems_cons] at h
    cases hr : refAt bank index with
    | none => rw [hr] at h; cases h
    | some e =>
      rw [hr] at h
      rcases List.mem_cons.1 h with rfl | h
      · exact ⟨index, le_rfl, hr⟩
      · obtain ⟨j, hj, hjr⟩ := ih h
        exact ⟨j, by omega, hjr⟩

theorem State.writeAll_writable_ne {ws : List Staged} {e : EntryRef} (h : ∀ x ∈ ws, x.ref ≠ e) :
    (s.writeAll ws).writable e = s.writable e := by
  induction ws generalizing s with
  | nil => rfl
  | cons x ws ih =>
    exact (ih fun y hy => h y (List.mem_cons_of_mem _ hy)).trans
      (State.writeEntry_writable_ne (h x List.mem_cons_self))

/-- Every entry of a write that passes the checks holds afterwards what it was given. -/
theorem State.writeItems_writable {bank : Nat} (hb : bank ≠ 9) (n : Nat) : ∀ {s : State} {index : Nat} {l : List Byte},
    firstInUse s ((writeItems bank index n l).map WriteItem.write) = none →
    ∀ i < (writeItems bank index n l).length, ∀ e, refAt bank (index + i) = some e →
      (s.writeAll ((writeItems bank index n l).map WriteItem.write)).writable e
          = (readEntry e ((l.drop (i * bankEntrySize bank)).take (bankEntrySize bank))).clamp
        ∧ ∃ x ∈ writeItems bank index n l,
            x.defined = codesDefined e ((l.drop (i * bankEntrySize bank)).take (bankEntrySize bank)) := by
  induction n with
  | zero => exact fun _ i hi => absurd hi (Nat.not_lt_zero i)
  | succ n ih =>
    intro s index l hpass i hi e he
    rw [writeItems_cons] at hpass hi ⊢
    cases hr : refAt bank index with
    | none => rw [hr] at hi; exact absurd hi (Nat.not_lt_zero i)
    | some e0 =>
      rw [hr] at hpass hi
      simp only [Option.map_some, Option.getD_some, List.map_cons] at hpass hi ⊢
      obtain ⟨hwork, hpass⟩ := firstInUse_cons.1 hpass
      cases i with
      | zero =>
        rw [Nat.add_zero, hr] at he
        cases he
        have hpack : e.isPack = false := Bool.eq_false_iff.2 fun h => hb ((refAt_some hr).2.2 h)
        rw [Nat.zero_mul, List.drop_zero]
        refine ⟨(State.writeAll_writable_ne (s := s.writeEntry _) fun x hx => ?_).trans (State.writeEntry_writable_self hpack hwork),
          _, List.mem_cons_self, rfl⟩
        obtain ⟨y, hy, rfl⟩ := List.mem_map.1 hx
        obtain ⟨j, hj, hjr⟩ := writeItems_ref n hy
        intro h
        rw [h] at hjr
        have := (refAt_some hjr).1.symm.trans (refAt_some hr).1
        omega
      | succ i =>
        rw [show index + (i + 1) = index + 1 + i by omega] at he
        obtain ⟨hwritten, x, hx, hd⟩ := ih hpass i (by simpa using hi) e he
        rw [List.drop_drop, show bankEntrySize bank + i * bankEntrySize bank = (i + 1) * bankEntrySize bank by
          rw [Nat.succ_mul, Nat.add_comm]] at hwritten hd
        exact ⟨hwritten, x, List.mem_cons_of_mem _ hx, hd⟩

end

end Sys2Proof.Machine
end

section
/-! SUPPORT. The mark and the Marked Write (R157 to R159): the settling of `Obligations.MarkGuardsOneWrite`. -/

namespace Sys2Proof.Machine

section
variable {s t : State} {w : Work} {bank index : Nat} {l : List Byte} {e : EntryRef}

/-- Entries whose checks passed hold what the bytes write (R145, R147 to R151, R155). -/
theorem State.writes.holds_of {ws : List Staged} (h : s.writes t ws) (hp : e.isPack = false) (hl : l.length = e.size)
    (hd : codesDefined e l = true) (hw : (s.writeAll ws).writable e = (readEntry e l).clamp) : t.holds e l :=
  State.holds_of_writable hl hd (fun k he => by rw [he] at hp; cases hp) ((h.writable e).trans hw)

theorem firstInUse_aside (m : LinkPort) (ws : List Staged) :
    ∀ s : State, firstInUse { s with link := m } ws = firstInUse s ws := by
  induction ws with
  | nil => exact fun _ => rfl
  | cons x ws ih =>
    intro s
    rw [firstInUse, firstInUse, State.writeEntry_aside, ih]
    rfl

theorem State.refuses_aside (s : State) (m : LinkPort) (items : List WriteItem) :
    ({ s with link := m } : State).refuses items = s.refuses items := by
  unfold State.refuses
  rw [firstInUse_aside]
  rfl

theorem toNat_eq_nine {b : Byte} : b.toNat = 9 ↔ b = 9 := ⟨fun h => byte_eq_of_toNat h, fun h => by rw [h]; rfl⟩

theorem isBank_of {b : Byte} (h1 : 1 ≤ b.toNat) (h2 : b.toNat ≤ 10) : isBank b.toNat = true := decide_eq_true ⟨h1, h2⟩

theorem refAt_none (hb : isBank bank = true) (h : isIndex bank index = false) : refAt bank index = none := by
  rw [← Option.isNone_iff_eq_none, ← Option.not_isSome, refAt_isSome hb, h]
  rfl

/-! ### Table Mark (R157) -/

theorem Work.tableMark_badBank (hb : isBank bank = false) : w.tableMark bank index = w.answer kindTableMark .badValue := by
  unfold Work.tableMark
  rw [hb]
  rfl

theorem Work.tableMark_badIndex (hb : isBank bank = true) (hr : refAt bank index = none) :
    w.tableMark bank index = w.answer kindTableMark .badIndex := by
  unfold Work.tableMark
  rw [hb, hr]
  rfl

theorem Work.tableMark_marks (hb : isBank bank = true) (hr : refAt bank index = some e) : w.tableMark bank index
    = ({ w with tables := { w.tables with mark := some e } } : Work).answer kindTableMark .accepted
        ([byteOf bank] ++ bytesOf index ++ w.entryBytes e) := by
  unfold Work.tableMark
  rw [hb, hr]
  rfl

/-! ### Marked Write (R159) -/

theorem Work.markedWrite_badBank (hb : isBank bank = false) :
    w.markedWrite bank index l = (w.answer kindMarkedWrite .badValue).clearMark := by
  unfold Work.markedWrite
  rw [hb]
  rfl

theorem Work.markedWrite_readOnly : w.markedWrite 9 index l = (w.answer kindMarkedWrite .readOnly).clearMark := by
  unfold Work.markedWrite
  rfl

theorem Work.markedWrite_badIndex (hb : isBank bank = true) (h9 : bank ≠ 9) (hr : refAt bank index = none) :
    w.markedWrite bank index l = (w.answer kindMarkedWrite .badIndex).clearMark := by
  unfold Work.markedWrite
  rw [hb, if_neg h9, hr]
  rfl

theorem Work.markedWrite_named (hb : isBank bank = true) (h9 : bank ≠ 9) (hr : refAt bank index = some e) :
    w.markedWrite bank index l = (if w.tables.mark = some e then w.markedWriteItem (writeItem index e l)
      else w.answer kindMarkedWrite .markLost).clearMark := by
  unfold Work.markedWrite
  rw [hb, if_neg h9, hr]
  rfl

theorem Work.markedWriteItem_refused {item : WriteItem} {st : Status} {i : Nat} (h : w.refuses [item] = some (st, i)) :
    w.markedWriteItem item = w.answer kindMarkedWrite st (bytesOf i) := by
  unfold Work.markedWriteItem
  rw [h]

theorem Work.markedWriteItem_written {item : WriteItem} (h : w.refuses [item] = none) :
    w.markedWriteItem item = (w.takeWrites [item.write]).answer kindMarkedWrite .accepted (w.entryBytes item.write.ref)
      { clamped := item.clamped } := by
  unfold Work.markedWriteItem
  rw [h]

theorem Work.cleared_tells (h : w.told = s.told) (k : Byte) (st : Status) (d : List Byte) (n : Notes) :
    s.tells (w.answer k st d n).clearMark.finish (.result k st n d) := Work.finish_tells (r := ⟨k, st, n, d⟩) h rfl

end

end Sys2Proof.Machine

namespace Sys2Proof.Proofs

open Sys2Proof.Machine

/-- Settles O57: the checks in their order, then a write of one entry; the mark is cleared in every case. -/
theorem markGuardsOneWrite : Obligations.MarkGuardsOneWrite := by
  unfold Obligations.MarkGuardsOneWrite
  refine ⟨fun bank index s ht hf => ?_, fun bank index entry s ht hf => ?_⟩
  · obtain ⟨m, hm, -⟩ := s.takenFor_link (.tableMark false bank index)
    have hfollows := State.takenFor_follows hf (.tableMark false bank index)
    have hexec : exec (.tableMark false bank index) s
        = .next ((Work.of (s.takenFor (.tableMark false bank index))).tableMark bank.toNat index.toNat).finish := exec_taken ht
    obtain ⟨T, hT⟩ : ∃ T, T = s.takenFor (.tableMark false bank index) := ⟨_, rfl⟩
    rw [← hT] at hm hfollows hexec ⊢
    refine ⟨_, hexec, fun hb => ?_, fun h1 h2 => ⟨fun hi => ?_, fun e he => ?_⟩⟩
    · rw [Work.tableMark_badBank (isBank_eq_false hb)]
      exact State.onlyTells_answer hfollows _ _ _ _
    · rw [Work.tableMark_badIndex (isBank_of h1 h2) (refAt_none (isBank_of h1 h2) hi)]
      exact State.onlyTells_answer hfollows _ _ _ _
    · have hbytes : T.entryBytes e = s.entryBytes e := by
        rw [hm]
        cases e <;> rfl
      rw [Work.tableMark_marks (isBank_of h1 h2) he, byteOf_toNat, bytesOf_toNat, Work.of_toState, hbytes]
      exact State.onlyTells_answer (s := { T with tables := { T.tables with mark := some e } }) hfollows _ _ _ _
  · obtain ⟨m, hm, -⟩ := s.takenFor_link (.markedWrite false bank index entry)
    have hfollows := State.takenFor_follows hf (.markedWrite false bank index entry)
    have htold := s.takenFor_told (.markedWrite false bank index entry)
    have hstart : (s.takenFor (.markedWrite false bank index entry)).starting = false := by
      rw [State.starting_eq, State.takenFor_run, ← State.starting_eq]
      exact State.starting_of_takesCommand ht
    have hexec : exec (.markedWrite false bank index entry) s = .next
        ((Work.of (s.takenFor (.markedWrite false bank index entry))).markedWrite bank.toNat index.toNat entry).finish :=
      exec_taken ht
    obtain ⟨T, hT⟩ : ∃ T, T = s.takenFor (.markedWrite false bank index entry) := ⟨_, rfl⟩
    rw [← hT] at hm hfollows htold hstart hexec ⊢
    have hmark : (Work.of T).tables.mark = s.tables.mark := by rw [Work.of_toState, hm]
    have hrefuses (items : List WriteItem) : T.refuses items = s.refuses items := by rw [hm, State.refuses_aside]
    obtain ⟨x, hx⟩ : ∃ x, x = (Work.of T).markedWrite bank.toNat index.toNat entry := ⟨_, rfl⟩
    rw [← hx] at hexec
    have hrefused {st : Status} {d : List Byte} (h : x = ((Work.of T).answer kindMarkedWrite st d).clearMark) :
        State.onlyTells { T with tables := { T.tables with mark := none } } x.finish (.result kindMarkedWrite st {} d) := by
      rw [h]
      exact State.onlyTells_answer (s := { T with tables := { T.tables with mark := none } }) hfollows _ _ _ _
    have hcleared : x.tables.mark = none := by rw [hx]; rfl
    refine ⟨_, hexec, by rw [x.finish_tables, hcleared], fun hb => ?_, fun h9 => ?_, fun h1 h2 h9 => ⟨fun hi => ?_, fun e he => ⟨fun hne => ?_,
      fun hmarked => ⟨fun st i hr => ?_, fun hr _ hp => ?_⟩⟩⟩⟩
    · exact hrefused (by rw [hx, Work.markedWrite_badBank (isBank_eq_false hb)])
    · exact hrefused (by rw [hx, toNat_eq_nine.2 h9, Work.markedWrite_readOnly])
    · exact hrefused (by rw [hx, Work.markedWrite_badIndex (isBank_of h1 h2) (mt toNat_eq_nine.1 h9)
        (refAt_none (isBank_of h1 h2) hi)])
    · refine hrefused ?_
      rw [hx, Work.markedWrite_named (isBank_of h1 h2) (mt toNat_eq_nine.1 h9) he, if_neg]
      rw [hmark]
      exact hne
    · refine hrefused ?_
      rw [hx, Work.markedWrite_named (isBank_of h1 h2) (mt toNat_eq_nine.1 h9) he, if_pos (hmark.trans hmarked),
        Work.markedWriteItem_refused ((hrefuses _).trans hr)]
    · have hnone := (hrefuses _).trans hr
      have hwritten : x = (((Work.of T).takeWrites [(writeItem index.toNat e entry).write]).answer kindMarkedWrite .accepted
          (T.entryBytes e) { clamped := (writeItem index.toNat e entry).clamped }).clearMark := by
        rw [hx, Work.markedWrite_named (isBank_of h1 h2) (mt toNat_eq_nine.1 h9) he, if_pos (hmark.trans hmarked),
          Work.markedWriteItem_written hnone]
        rfl
      have hwrites : T.writes x.finish [(writeItem index.toNat e entry).write] := by
        rw [hwritten]
        exact (((Work.of T).takeWrites_writes hstart (by rw [hm]; exact hp) _).answer _ _ _ _).clearMark.finish
      obtain ⟨-, hdefined, huse⟩ := State.refuses_eq_none.1 hnone
      obtain ⟨-, hsize, hpack⟩ := refAt_some he
      have hpack : e.isPack = false := Bool.eq_false_iff.2 fun h => mt toNat_eq_nine.1 h9 (hpack h)
      refine ⟨hwrites, fun hl => ?_, ?_⟩
      · exact hwrites.holds_of hpack (hl.trans hsize.symm) (hdefined _ List.mem_cons_self)
          (State.writeEntry_writable_self hpack (firstInUse_cons.1 huse).1)
      · have hbytes : s.entryBytes e = T.entryBytes e := by
          rw [hm]
          cases e <;> rfl
        rw [hwritten, hbytes]
        exact Work.cleared_tells (((Work.of T).takeWrites_told _).trans htold) _ _ _ _

end Sys2Proof.Proofs
end

section
/-! SUPPORT. The Table Write that passes every check (R154, R155, R160): the settling of
`Obligations.TableWriteIsWrittenOrStaged`. -/

namespace Sys2Proof.Machine

section
variable {s : State} {w : Work} {bank index : Nat} {entries : List Byte}

theorem State.starting_of_ready (h : s.handlerReady = true) : s.starting = false := by
  rw [State.handlerReady, Bool.and_eq_true, Bool.and_eq_true] at h
  simpa using h.1.1

/-- A Table Write that the Record Handler takes; a broadcast one sends no Result (R167, R171, R172). -/
theorem exec_tableWrite {bcast : Bool} {b : Byte} {i : Half} {r : Record}
    (hr : recordOf (.tableWrite bcast b i entries) = some r) (ht : s.takes r) (hl : s.link.loopback = false) :
    exec (.tableWrite bcast b i entries) s = .next (if bcast
      then ({ (Work.of (s.taken r)).tableWrite bcast b.toNat i.toNat entries with reply := none } : Work)
      else (Work.of (s.taken r)).tableWrite bcast b.toNat i.toNat entries).finish := by
  have hloop : (Work.of (s.taken r)).link.loopback = false := (s.taken_loopback r).trans hl
  rw [exec_record hr, State.takeRecord_taken _ ht]
  cases hr
  unfold handleRecord
  rw [hloop]
  cases bcast <;> rfl

/-! ### The checks in order -/

theorem Work.tableWrite_passed (hb : isBank bank = true) (h9 : bank ≠ 9) (hi : isIndex bank index = true)
    (hc : countSuits bank entries = true) (bcast : Bool) : w.tableWrite bcast bank index entries
      = w.tableWriteItems bcast
        (decide ((writeItems bank index (entries.length / bankEntrySize bank) entries).length
          < entries.length / bankEntrySize bank))
        (writeItems bank index (entries.length / bankEntrySize bank) entries) := by
  unfold Work.tableWrite
  rw [hb, hi, hc, if_neg h9]
  rfl

theorem Work.tableWriteItems_written {items : List WriteItem} {bcast short : Bool} (hr : w.refuses items = none)
    (hg : bcast = true ∨ w.tables.group = none) : w.tableWriteItems bcast short items
      = w.writeNow (if short then .partialRun else .accepted) (items.any WriteItem.clamped) (items.map WriteItem.write) := by
  unfold Work.tableWriteItems
  rw [hr]
  dsimp only
  rcases hg with h | h
  · rw [h]
  · rw [h]
    cases bcast <;> rfl

theorem Work.tableWriteItems_staged {items : List WriteItem} {short : Bool} {staged : List Staged}
    (hr : w.refuses items = none) (hg : w.tables.group = some staged) : w.tableWriteItems false short items
      = w.stage staged (if short then .partialRun else .accepted) (items.any WriteItem.clamped)
          (items.map WriteItem.write) := by
  unfold Work.tableWriteItems
  rw [hr]
  dsimp only
  rw [hg]

theorem writeItems_length_le (n : Nat) : ∀ {index : Nat} {l : List Byte}, (writeItems bank index n l).length ≤ n := by
  induction n with
  | zero => exact Nat.le_refl 0
  | succ n ih =>
    intro index l
    rw [writeItems_cons]
    cases refAt bank index with
    | none => exact Nat.zero_le _
    | some e => exact Nat.succ_le_succ ih

/-- Each entry of a record has its bank's size. -/
theorem entry_length {i n size : Nat} (hl : entries.length = n * size) (hi : i < n) :
    ((entries.drop (i * size)).take size).length = size := by
  have h : (i + 1) * size ≤ n * size := Nat.mul_le_mul_right size hi
  rw [Nat.succ_mul] at h
  rw [List.length_take, List.length_drop, hl]
  omega

/-! ### What a write tells -/

/-- A write forms no notice, Drain Complete or Start Report. -/
theorem Work.takeWrites_quiet (hs : w.starting = false) (hn : w.nonNotices = []) (ws : List Staged) :
    (w.takeWrites ws).nonNotices = [] ∧ (w.takeWrites ws).drains = w.drains ∧ (w.takeWrites ws).report = w.report := by
  have hmet := (w.wrote ws).meetWrite_met w.toState ws
  have hrun : (w.wrote ws).run = w.run := State.writeAll_run w.toState ws
  obtain ⟨y, hy⟩ : ∃ y, y = (w.wrote ws).meetWrite w.toState ws := ⟨_, rfl⟩
  have htake : w.takeWrites ws = y.settle w.toState := by rw [hy]; rfl
  rw [← hy] at hmet
  obtain ⟨fs, m, o, l, a, hshape⟩ := hmet.shape
  have hstart : y.starting = false := by
    rw [State.starting_eq, show y.run = w.run by rw [hshape, hrun], ← State.starting_eq, hs]
  have hsettles := Settles.settle w.toState y hstart
  rw [htake]
  refine ⟨?_, hsettles.drains.trans (by rw [hshape]; rfl), hsettles.report.trans (by rw [hshape]; rfl)⟩
  rw [Work.nonNotices_settle, Work.nonNotices, hshape]
  exact hn

theorem Work.finish_unanswered (hn : w.nonNotices = []) (hd : w.drains = []) (hp : w.report = none) (ht : w.told = s.told) :
    ∃ x, ({ w with reply := none } : Work).finish.told = s.told ++ x ∧ ∀ o ∈ x, OutRecord.isNotice o = true := by
  obtain ⟨x, hx, hfin⟩ := Work.finish_order (w := { w with reply := none }) hn
  refine ⟨x, hfin.trans ?_, hx⟩
  rw [hd, hp]
  simp only [Option.map_none, Option.toList_none, List.map_nil, List.append_nil]
  rw [← ht]

end

end Sys2Proof.Machine

namespace Sys2Proof.Proofs

open Sys2Proof.Machine

/-- Settles O56: the write in one step with its settling, or the staged list; what is written stands to the step's end. -/
theorem tableWriteIsWrittenOrStaged : Obligations.TableWriteIsWrittenOrStaged := by
  unfold Obligations.TableWriteIsWrittenOrStaged
  intro bcast bank index entries s r hr ht hl _ hp h1 h2 h9 hi hc n items ws hrefuses u status data clamped
  have hnine : bank.toNat ≠ 9 := mt toNat_eq_nine.1 h9
  have hexec := exec_tableWrite hr ht hl
  have hlen : entries.length = n * bankEntrySize bank.toNat := by
    obtain ⟨-, hmod, -⟩ := of_decide_eq_true hc
    exact (Nat.div_mul_cancel (Nat.dvd_of_mod_eq_zero hmod)).symm
  have hu : u = { s with link := u.link } := s.taken_eq_withLink r
  have htold : u.told = s.told := s.taken_told r
  have hstart : (Work.of u).starting = false := by
    rw [Work.of_toState, hu]
    exact (State.starting_of_ready ht.1 : s.starting = false)
  have hagree : (Work.of u).pocketsAgree := by
    rw [Work.of_toState, hu]
    exact hp
  have hnone : u.refuses items = none := by rw [hu, State.refuses_aside]; exact hrefuses
  have hgroup : (Work.of u).tables.group = s.tables.group := by rw [Work.of_toState, hu]
  have hdata : byteOf ws.length :: u.previous ws = data := by rw [hu]; rfl
  have hwrite : (Work.of u).tableWrite bcast bank.toNat index.toNat entries
      = (Work.of u).tableWriteItems bcast (decide (items.length < n)) items :=
    Work.tableWrite_passed (isBank_of h1 h2) hnine hi hc bcast
  have hstatus : (if decide (items.length < n) = true then Status.partialRun else .accepted) = status := by
    simp only [decide_eq_true_eq]
    rfl
  rw [show s.taken r = u from rfl, hwrite] at hexec
  have hholds {t : State} (h : u.writes t ws) (i : Nat) (hi : i < items.length) (e : EntryRef)
      (he : refAt bank.toNat (index.toNat + i) = some e) :
      t.holds e ((entries.drop (i * bankEntrySize bank.toNat)).take (bankEntrySize bank.toNat)) := by
    obtain ⟨-, hdefined, huse⟩ := State.refuses_eq_none.1 hnone
    obtain ⟨hwritten, x, hx, hcodes⟩ := State.writeItems_writable hnine n huse i hi e he
    obtain ⟨-, hsize, hpack⟩ := refAt_some he
    exact h.holds_of (Bool.eq_false_iff.2 fun hk => hnine (hpack hk))
      ((entry_length hlen (hi.trans_le (writeItems_length_le n))).trans hsize.symm) (hcodes.symm.trans (hdefined x hx)) hwritten
  have hwritten (hg : bcast = true ∨ s.tables.group = none) :
      (Work.of u).tableWriteItems bcast (decide (items.length < n)) items
        = ((Work.of u).takeWrites ws).answer kindTableWrite status data { clamped := clamped } := by
    rw [Work.tableWriteItems_written hnone (hg.imp_right hgroup.trans), hstatus, ← hdata]
    rfl
  have hwrites := (Work.of u).takeWrites_writes hstart hagree ws
  have hquiet := (Work.of u).takeWrites_quiet hstart rfl ws
  have hsaid : ((Work.of u).takeWrites ws).told = s.told := ((Work.of u).takeWrites_told ws).trans htold
  obtain ⟨y, hy⟩ : ∃ y, y = (Work.of u).takeWrites ws := ⟨_, rfl⟩
  rw [← hy] at hwritten hwrites hquiet hsaid
  obtain ⟨hn, hd, hreport⟩ := hquiet
  refine ⟨_, hexec, fun hg => ?_, fun hb => ?_, fun hb hg => ?_, fun staged hb hg hf => ?_⟩
  · have h : u.writes (if bcast then
        ({ (Work.of u).tableWriteItems bcast (decide (items.length < n)) items with reply := none } : Work)
        else (Work.of u).tableWriteItems bcast (decide (items.length < n)) items).finish ws := by
      rw [hwritten hg]
      cases bcast with
      | false =>
        rw [if_neg Bool.false_ne_true]
        exact (hwrites.answer _ _ _ _).finish
      | true =>
        rw [if_pos rfl]
        exact State.writes.finish (w := { y.answer kindTableWrite status data { clamped := clamped } with reply := none })
          hwrites
    exact ⟨h, hholds h⟩
  · rw [hwritten (.inl hb), if_pos hb]
    exact Work.finish_unanswered (w := y.answer kindTableWrite status data { clamped := clamped }) hn hd hreport hsaid
  · rw [hwritten (.inr hg), if_neg (by rw [hb]; exact Bool.false_ne_true)]
    exact Work.answer_tells hsaid _ _ _ _
  · have hstaged := Work.tableWriteItems_staged (w := Work.of u) (short := decide (items.length < n)) hnone (hgroup.trans hg)
    have hfollows : u.attentionFollows := State.taken_attentionFollows hf
    rw [if_neg (by rw [hb]; exact Bool.false_ne_true), hb, hstaged, hstatus]
    refine ⟨fun hfull => ?_, fun hroom => ?_⟩
    · rw [show (Work.of u).stage staged status clamped ws = (Work.of u).answer kindTableWrite .groupFull from if_pos hfull]
      exact State.onlyTells_answer hfollows _ _ _ _
    · have hput : (Work.of u).stage staged status clamped ws
          = (Work.of { u with tables := { u.tables with group := some (staged ++ ws) } }).answer kindTableWrite status data
            { clamped := clamped, staged := true } := by
        rw [← hdata]
        exact if_neg (Nat.not_lt.2 hroom)
      rw [hput]
      exact State.onlyTells_answer (s := { u with tables := { u.tables with group := some (staged ++ ws) } }) hfollows _ _ _ _

end Sys2Proof.Proofs
end

section
/-! SUPPORT. The checks of a Table Write, each spelled out and in their order (R146 to R154, R197): the settling of
`Obligations.TableWriteIsRefusedInOrder`. -/

namespace Sys2Proof.Machine

/-! ### The apply classes (R146) -/

section
variable {s : State} {i : Nat}

theorem Settings.sameStandbyOnly_iff {v u : Settings} : v.sameStandbyOnly u = true
    ↔ v.stapleMax = u.stapleMax ∧ v.pocketMax = u.pocketMax ∧ v.pitch = u.pitch ∧ v.lateTol = u.lateTol
      ∧ v.restartLimit = u.restartLimit ∧ v.pocketsInService = u.pocketsInService
      ∧ v.cartridgeSize = u.cartridgeSize ∧ v.mechTimeout = u.mechTimeout := by
  rw [Settings.sameStandbyOnly, decide_eq_true_iff]
  cases v
  cases u
  simp only [Settings.mk.injEq, true_and, and_true]

theorem State.meetsApplyClass_standby (h : s.run.state = .standby) (x : Staged) : s.meetsApplyClass x = true := by
  rw [State.meetsApplyClass, decide_eq_true h, Bool.true_or]

/-- Outside STANDBY the entry alone decides. -/
theorem State.meetsApplyClass_working (h : s.run.state ≠ .standby) {x : Staged} {b : Bool}
    (hb : (decide (s.run.state = .standby) || b) = s.meetsApplyClass x) : s.meetsApplyClass x = b := by
  rw [← hb, decide_eq_false h, Bool.false_or]

/-! ### The codes (R196) -/

theorem codesDefined_mask {l : List Byte} : codesDefined .mask l = true ↔ ∀ n, n < 15 → byteAt l n ≤ 1 := by
  show (List.range 15).all (fun i => decide (byteAt l i ≤ 1)) = true ↔ _
  rw [List.all_eq_true]
  exact ⟨fun h n hn => of_decide_eq_true (h n (List.mem_range.2 hn)),
    fun h n hn => decide_eq_true (h n (List.mem_range.1 hn))⟩

/-! ### The work checks (R91, R92, R121, R152) -/

theorem State.limitFits_iff {n : Nat} : s.limitFits n = true ↔ ∀ h, (s.pack h).state ≠ .free → (s.pack h).gen ≤ n := by
  rw [State.limitFits, List.all_eq_true]
  exact ⟨fun h k hk => of_decide_eq_true (h k (State.mem_live.2 hk)),
    fun h k hk => decide_eq_true (h k (State.mem_live.1 hk))⟩

theorem State.pocketsFit_iff {n : Nat} : s.pocketsFit n = true
    ↔ ∀ p : PocketId, n < p.val + 1 → s.pockets[p].state = .empty := by
  rw [State.pocketsFit, List.all_eq_true]
  refine ⟨fun h p hp => ?_, fun h p _ => ?_⟩
  · rcases Bool.or_eq_true_iff.1 (h p (mem_allPockets p)) with e | e
    · exact absurd (of_decide_eq_true e) (Nat.not_le.2 hp)
    · exact of_decide_eq_true e
  · by_cases hp : p.val + 1 ≤ n
    · rw [decide_eq_true hp, Bool.true_or]
    · rw [decide_eq_true (h p (Nat.not_le.1 hp)), Bool.or_true]

theorem State.capacityFits_iff {b : BinId} {n : Nat} : s.capacityFits b n = true
    ↔ ∀ d, s.ret.delivery = some d → d.bin = b → s.ret.bins[b].fill + d.units ≤ n := by
  unfold State.capacityFits
  cases s.ret.delivery with
  | none => exact ⟨fun _ => nofun, fun _ => rfl⟩
  | some d =>
    rw [Bool.or_eq_true_iff, decide_eq_true_iff, decide_eq_true_iff]
    constructor
    · rintro h d' ⟨⟩ hb
      exact h.resolve_left (not_not.2 hb)
    · exact fun h => or_iff_not_imp_left.2 fun hb => h d rfl (not_not.1 hb)

theorem State.passesWork_pocket {p : PocketId} {x : Bool} : s.passesWork ⟨.pocket p, i, .pocket x⟩ = true
    ↔ x = true ∨ s.pockets[p].state = .empty ∨ s.pockets[p].state = .outOfService := by
  show (x || decide (s.pockets[p].state = .empty) || decide (s.pockets[p].state = .outOfService)) = true ↔ _
  rw [Bool.or_eq_true_iff, Bool.or_eq_true_iff, decide_eq_true_iff, decide_eq_true_iff, or_assoc]

/-! ### The first check that fails (R154) -/

theorem State.refuses_class {before after : List WriteItem} {x : WriteItem}
    (hb : ∀ y ∈ before, s.meetsApplyClass y.write = true) (hx : s.meetsApplyClass x.write = false) :
    s.refuses (before ++ x :: after) = some (.wrongState, x.write.index) := by
  have hfind : (before ++ x :: after).find? (fun y => !s.meetsApplyClass y.write) = some x :=
    List.find?_eq_some_iff_append.2 ⟨by rw [hx]; rfl, before, after, rfl, fun y hy => by rw [hb y hy]; rfl⟩
  unfold State.refuses
  rw [hfind]

theorem State.refuses_codes {before after : List WriteItem} {x : WriteItem}
    (hc : ∀ y ∈ before ++ x :: after, s.meetsApplyClass y.write = true) (hb : ∀ y ∈ before, y.defined = true)
    (hx : x.defined = false) : s.refuses (before ++ x :: after) = some (.badValue, x.write.index) := by
  have hnone : (before ++ x :: after).find? (fun y => !s.meetsApplyClass y.write) = none :=
    List.find?_eq_none.2 fun y hy => by rw [hc y hy]; exact Bool.false_ne_true
  have hfind : (before ++ x :: after).find? (fun y => !y.defined) = some x :=
    List.find?_eq_some_iff_append.2 ⟨by rw [hx]; rfl, before, after, rfl, fun y hy => by rw [hb y hy]; rfl⟩
  unfold State.refuses
  rw [hnone]
  dsimp only
  rw [hfind]

theorem State.refuses_work {items : List WriteItem} (hc : ∀ y ∈ items, s.meetsApplyClass y.write = true)
    (hd : ∀ y ∈ items, y.defined = true) {n : Nat} (hu : firstInUse s (items.map WriteItem.write) = some n) :
    s.refuses items = some (.inUse, n) := by
  have hnone : items.find? (fun y => !s.meetsApplyClass y.write) = none :=
    List.find?_eq_none.2 fun y hy => by rw [hc y hy]; exact Bool.false_ne_true
  have hall : items.find? (fun y => !y.defined) = none :=
    List.find?_eq_none.2 fun y hy => by rw [hd y hy]; exact Bool.false_ne_true
  unfold State.refuses
  rw [hnone]
  dsimp only
  rw [hall]
  dsimp only
  rw [hu]
  rfl

end

section
variable {w : Work} {bank index : Nat} {entries : List Byte} {bcast : Bool}

theorem Work.tableWrite_badBank (hb : isBank bank = false) :
    w.tableWrite bcast bank index entries = w.answer kindTableWrite .badValue := by
  unfold Work.tableWrite
  rw [hb]
  rfl

theorem Work.tableWrite_readOnly : w.tableWrite bcast 9 index entries = w.answer kindTableWrite .readOnly := by
  unfold Work.tableWrite
  rfl

theorem Work.tableWrite_badIndex (hb : isBank bank = true) (h9 : bank ≠ 9) (hi : isIndex bank index = false) :
    w.tableWrite bcast bank index entries = w.answer kindTableWrite .badIndex := by
  unfold Work.tableWrite
  rw [hb, if_neg h9, hi]
  rfl

theorem Work.tableWrite_badCount (hb : isBank bank = true) (h9 : bank ≠ 9) (hi : isIndex bank index = true)
    (hc : countSuits bank entries = false) : w.tableWrite bcast bank index entries = w.answer kindTableWrite .badValue := by
  unfold Work.tableWrite
  rw [hb, if_neg h9, hi, hc]
  rfl

theorem Work.tableWriteItems_refused {items : List WriteItem} {short : Bool} {st : Status} {n : Nat}
    (h : w.refuses items = some (st, n)) : w.tableWriteItems bcast short items = w.answer kindTableWrite st (bytesOf n) := by
  unfold Work.tableWriteItems
  rw [h]

end

end Sys2Proof.Machine

namespace Sys2Proof.Proofs

open Sys2Proof.Machine

/-- Settles O55: the checks in the order of the model's branches, each read off its definition. -/
theorem tableWriteIsRefusedInOrder : Obligations.TableWriteIsRefusedInOrder := by
  unfold Obligations.TableWriteIsRefusedInOrder
  refine ⟨fun s x h => State.meetsApplyClass_standby h x, fun s i h => ?_, fun i e l => ?_, fun s i => ?_, ?_⟩
  · have working {x : Staged} {b : Bool} (hb : (decide (s.run.state = .standby) || b) = s.meetsApplyClass x) :
        s.meetsApplyClass x = b := State.meetsApplyClass_working h hb
    refine ⟨fun m t => working rfl, fun p x => working rfl, fun f st travel => ?_, fun v => ?_, fun j e => working rfl,
      fun c e => working rfl, fun x c => working rfl, fun b n x m => working rfl, fun m => working rfl⟩
    · rw [working (b := decide (travel = s.tables.travel[f])) rfl, decide_eq_true_iff]
    · rw [working (b := v.sameStandbyOnly s.tables.settings) rfl]
      exact Settings.sameStandbyOnly_iff
  · cases e with
    | job j => exact decide_eq_true_iff
    | cls c => exact decide_eq_true_iff
    | roster x => exact decide_eq_true_iff
    | media m => exact iff_of_true rfl trivial
    | feed f => exact decide_eq_true_iff
    | bin b => exact decide_eq_true_iff
    | settings => exact iff_of_true rfl trivial
    | mask => exact codesDefined_mask
    | pack h => exact iff_of_true rfl trivial
    | pocket p => exact decide_eq_true_iff
  · refine ⟨fun v => ?_, fun p x => State.passesWork_pocket, fun b n x m => State.capacityFits_iff, fun j e => rfl,
      fun c e => rfl, fun x c => rfl, fun m t => rfl, fun f st n => rfl, fun m => rfl⟩
    show (s.limitFits v.restartLimit && s.pocketsFit v.pocketsInService) = true ↔ _
    rw [Bool.and_eq_true_iff, State.limitFits_iff, State.pocketsFit_iff]
  · intro bcast bank index entries s r hr ht hl hf n items refused
    have hexec := exec_tableWrite hr ht hl
    have hfollows : (s.taken r).attentionFollows := State.taken_attentionFollows hf
    have hu := s.taken_eq_withLink r
    obtain ⟨T, hT⟩ : ∃ T, T = s.taken r := ⟨_, rfl⟩
    have hrefused {st : Status} {d : List Byte}
        (h : (Work.of T).tableWrite bcast bank.toNat index.toNat entries = (Work.of T).answer kindTableWrite st d) :
        refused st d := by
      refine ⟨_, hexec, fun hb => ?_, fun hb => ?_⟩
      · rw [← hT, h, if_pos hb]
        exact Work.finish_silent (w := { (Work.of T).answer kindTableWrite st d with reply := none }) rfl rfl rfl rfl
          (hT ▸ hfollows)
      · rw [← hT, h, if_neg (by rw [hb]; exact Bool.false_ne_true)]
        exact State.onlyTells_answer (hT ▸ hfollows) _ _ _ _
    have hclass (x : Staged) : T.meetsApplyClass x = s.meetsApplyClass x := by rw [hT, hu]; rfl
    have huse (ws : List Staged) : firstInUse T ws = firstInUse s ws := by rw [hT, hu, firstInUse_aside]
    refine ⟨fun hb => hrefused (Work.tableWrite_badBank (isBank_eq_false hb)), fun h9 => ?_, fun h1 h2 h9 => ?_⟩
    · exact hrefused (by rw [toNat_eq_nine.2 h9, Work.tableWrite_readOnly])
    have hbank := isBank_of h1 h2
    have hnine : bank.toNat ≠ 9 := mt toNat_eq_nine.1 h9
    refine ⟨fun hi => hrefused (Work.tableWrite_badIndex hbank hnine hi), fun hi => ⟨fun hn => ?_, fun hn1 hn2 hmod => ?_⟩⟩
    · refine hrefused (Work.tableWrite_badCount hbank hnine hi (decide_eq_false fun h => ?_))
      obtain ⟨k1, k2, k3⟩ : 1 ≤ n ∧ _ := h
      rcases hn with e | e | e
      · rw [e] at k1
        exact absurd k1 (by decide)
      · exact absurd k3 (Nat.not_le.2 e)
      · exact e k2
    have hitems {st : Status} {k : Nat} (h : T.refuses items = some (st, k)) : refused st (bytesOf k) :=
      hrefused ((Work.tableWrite_passed hbank hnine hi (decide_eq_true ⟨hn1, hmod, hn2⟩) bcast).trans
        (Work.tableWriteItems_refused h))
    refine ⟨fun before x after hsplit hb hx => hitems ?_, fun hall => ⟨fun before x after hsplit hb hx => hitems ?_,
      fun hd k hk => hitems ?_⟩⟩
    · rw [hsplit]
      exact State.refuses_class (fun y hy => (hclass _).trans (hb y hy)) ((hclass _).trans hx)
    · rw [hsplit]
      exact State.refuses_codes (fun y hy => (hclass _).trans (hall y (hsplit ▸ hy))) hb hx
    · exact State.refuses_work (fun y hy => (hclass _).trans (hall y hy)) hd ((huse _).trans hk)

end Sys2Proof.Proofs
end

section
/-! SUPPORT. Broadcast Control (R167, R172): the settling of `Obligations.BroadcastControlActsWithoutResult`. -/

namespace Sys2Proof.Machine

/-! ### A step's end without its Result -/

/-- The work in hand with no Result to send (R172). -/
def Work.unanswered (w : Work) : Work := { w with reply := none }

section
variable (w : Work)

theorem Work.sendNotice_unanswered (r : OutRecord) : w.unanswered.sendNotice r = (w.sendNotice r).unanswered := by
  unfold Work.sendNotice
  by_cases h : w.link.hasNoticeRoom = true
  · rw [if_pos h, if_pos (show w.unanswered.link.hasNoticeRoom = true from h)]
    rfl
  · rw [if_neg h, if_neg (show ¬w.unanswered.link.hasNoticeRoom = true from h)]
    rfl

theorem Work.sendNotices_unanswered : w.unanswered.sendNotices = w.sendNotices.unanswered := by
  have hfold : ∀ (l : List OutRecord) (x : Work),
      l.foldl Work.sendNotice x.unanswered = (l.foldl Work.sendNotice x).unanswered := by
    intro l
    induction l with
    | nil => exact fun _ => rfl
    | cons r l ih =>
      intro x
      rw [List.foldl_cons, List.foldl_cons, Work.sendNotice_unanswered, ih]
  exact hfold w.notices w

theorem Work.judgeAttention_unanswered : w.unanswered.judgeAttention = w.judgeAttention.unanswered := by
  unfold Work.judgeAttention
  by_cases h : (w.attentionDue && !w.attn.output) = true
  · rw [if_pos h, if_pos (show (w.unanswered.attentionDue && !w.unanswered.attn.output) = true from h)]
    exact (w.setOutput true).sendNotice_unanswered _
  · rw [if_neg h, if_neg (show ¬(w.unanswered.attentionDue && !w.unanswered.attn.output) = true from h)]
    rfl

/-- What the end of a step queues, behind the notices and the Attention notice. -/
theorem Work.finish_told : w.finish.told = w.sendNotices.judgeAttention.told ++ (w.reply.map Reply.record).toList
    ++ w.drains.map OutRecord.drainComplete ++ (w.report.map Report.record).toList := by
  have hdrains : w.sendNotices.judgeAttention.drains = w.drains :=
    (w.sendNotices_ends.trans (Work.judgeAttention_ends _)).rest.2.1
  have hfin : w.finish.told = w.queued.told := by simp [State.told, Work.finish]
  rw [hfin, Work.queued, Work.keepOpt_told, Work.keepDrains_told_eq, Work.keepOpt_told, (Work.keepOpt_ends _ _).rest.2.1,
    hdrains]

/-- What the end of a step leaves, the Link Port aside. -/
theorem Work.finish_state : ∃ l, w.finish = { w.sendNotices.judgeAttention.toState with link := l } := by
  obtain ⟨l1, h1⟩ := w.sendNotices.judgeAttention.keepOpt_shape (w.reply.map Reply.record)
  obtain ⟨l2, h2⟩ := Work.keepDrains_shape (w.sendNotices.judgeAttention.keepOpt (w.reply.map Reply.record))
  obtain ⟨l3, h3⟩ := Work.keepOpt_shape (w.sendNotices.judgeAttention.keepOpt (w.reply.map Reply.record)).keepDrains
    (w.report.map Report.record)
  refine ⟨w.finish.link, ?_⟩
  unfold Work.finish Work.queued
  rw [h3, h2, h1]

/-- A step's end with and without its Result: the Result stands or is missing among what is queued, and nothing else
differs (R172). -/
theorem Work.finish_answered {k : Byte} {st : Status} {d : List Byte} (h : w.reply = some ⟨k, st, {}, d⟩) :
    w.unanswered.finish = { w.finish with link := w.unanswered.finish.link }
    ∧ { w.unanswered.finish.link with outbound := [], held := [], sending := none, stalled := false }
      = { w.finish.link with outbound := [], held := [], sending := none, stalled := false }
    ∧ ∃ x y, w.finish.told = x ++ .result k st {} d :: y ∧ w.unanswered.finish.told = x ++ y := by
  have hsame : w.unanswered.sendNotices.judgeAttention = w.sendNotices.judgeAttention.unanswered := by
    rw [Work.sendNotices_unanswered, Work.judgeAttention_unanswered]
  obtain ⟨l, hl⟩ := w.finish_state
  obtain ⟨m, hm⟩ := w.unanswered.finish_state
  rw [hsame] at hm
  refine ⟨by rw [hm, hl]; rfl, ?_, w.sendNotices.judgeAttention.told,
    w.drains.map OutRecord.drainComplete ++ (w.report.map Report.record).toList, ?_, ?_⟩
  · rw [w.finish_queues.eq_with, w.unanswered.finish_queues.eq_with]
    rfl
  · rw [w.finish_told, h]
    simp [Reply.record]
  · rw [w.unanswered.finish_told, hsame]
    show w.sendNotices.judgeAttention.told ++ [] ++ w.drains.map OutRecord.drainComplete ++ (w.report.map Report.record).toList = _
    rw [List.append_nil, List.append_assoc]

end

/-! ### The Results of the control actions (R184) -/

/-- The work in hand answers a Control record without a note. -/
def Work.AnswersControl (w : Work) : Prop := ∃ st d, w.reply = some ⟨kindControl, st, {}, d⟩

section
variable (w : Work)

theorem Work.answer_answersControl (st : Status) (d : List Byte) : (w.answer kindControl st d).AnswersControl := ⟨st, d, rfl⟩

theorem Work.entered_answersControl (b : State) : (w.entered b).AnswersControl := Work.answer_answersControl _ _ _

theorem Work.controlRun_answersControl : w.controlRun.AnswersControl := by
  unfold Work.controlRun
  split
  · exact Work.entered_answersControl _ _
  · exact Work.entered_answersControl _ _
  · exact w.answer_answersControl _ _

theorem Work.controlPause_answersControl : w.controlPause.AnswersControl := by
  unfold Work.controlPause
  split
  · exact Work.entered_answersControl _ _
  · exact w.answer_answersControl _ _

theorem Work.controlStandby_answersControl : w.controlStandby.AnswersControl := by
  unfold Work.controlStandby
  split
  · exact Work.entered_answersControl _ _
  · exact Work.entered_answersControl _ _
  · exact Work.entered_answersControl _ _
  · exact w.answer_answersControl _ _

theorem Work.controlBypass_answersControl : w.controlBypass.AnswersControl := by
  unfold Work.controlBypass
  split
  · exact Work.entered_answersControl _ _
  · exact w.answer_answersControl _ _

theorem Work.controlResume_answersControl : w.controlResume.AnswersControl := by
  unfold Work.controlResume
  split
  · split
    · exact Work.entered_answersControl _ _
    · exact w.answer_answersControl _ _
  · exact w.answer_answersControl _ _

theorem Work.clearStapler_answersControl : w.clearStapler.AnswersControl := by
  unfold Work.clearStapler
  split
  · exact Work.answer_answersControl _ _ _
  · exact w.answer_answersControl _ _

theorem Work.clearReturn_answersControl (o : Byte) : (w.clearReturn o).AnswersControl := by
  unfold Work.clearReturn
  split
  · split
    · exact w.answer_answersControl _ _
    · exact Work.answer_answersControl _ _ _
  · exact w.answer_answersControl _ _

theorem Work.feedFlush_answersControl (f : Byte) : (w.feedFlush f).AnswersControl := by
  unfold Work.feedFlush
  split
  · exact w.answer_answersControl _ _
  · exact Work.answer_answersControl _ _ _

/-- Every control action answers, and acts alike however its record came. -/
theorem controlInstr_answers (action argument : Byte) : ((controlInstr false action argument).effect w).AnswersControl
    ∧ (controlInstr true action argument).effect = (controlInstr false action argument).effect := by
  unfold controlInstr
  split
  · exact ⟨w.controlRun_answersControl, rfl⟩
  · exact ⟨w.controlPause_answersControl, rfl⟩
  · exact ⟨w.controlStandby_answersControl, rfl⟩
  · exact ⟨w.controlBypass_answersControl, rfl⟩
  · exact ⟨w.controlResume_answersControl, rfl⟩
  · exact ⟨w.clearStapler_answersControl, rfl⟩
  · exact ⟨w.clearReturn_answersControl _, rfl⟩
  · exact ⟨w.feedFlush_answersControl _, rfl⟩
  · exact ⟨Work.answer_answersControl _ _ _, rfl⟩
  · exact ⟨Work.answer_answersControl _ _ _, rfl⟩
  · exact ⟨Work.answer_answersControl _ _ _, rfl⟩
  · exact ⟨Work.answer_answersControl _ _ _, rfl⟩
  · exact ⟨Work.answer_answersControl _ _ _, rfl⟩

end

/-- A Control record that is taken acts in loopback too, and its Result is sent where it came addressed (R167, R175). -/
theorem exec_control {bcast : Bool} {action argument : Byte} {s : State} (hr : s.handlerReady = true)
    (hi : s.link.inbound = []) : exec (controlInstr bcast action argument) s = .next
      (if bcast then (((controlInstr bcast action argument).effect
          (Work.of (s.taken (controlRecord bcast action argument)))).unanswered)
        else (controlInstr bcast action argument).effect (Work.of (s.taken (controlRecord bcast action argument)))).finish := by
  obtain ⟨-, hrec⟩ := controlInstr_carries bcast action argument
  rw [exec_record hrec, State.takeRecord_taken _ ⟨hr, .inr hi⟩]
  unfold handleRecord
  rw [if_neg (by simp [controlRecord]), if_neg (by simp [controlRecord])]
  rfl

end Sys2Proof.Machine

namespace Sys2Proof.Proofs

open Sys2Proof.Machine

/-- Settles O25: both records leave the work in hand alike, but for the Result to send. -/
theorem broadcastControlActsWithoutResult : Obligations.BroadcastControlActsWithoutResult := by
  unfold Obligations.BroadcastControlActsWithoutResult
  intro action argument s hr hi
  have hown := exec_control (bcast := false) (action := action) (argument := argument) hr hi
  have hall := exec_control (bcast := true) (action := action) (argument := argument) hr hi
  have htaken : s.taken (controlRecord true action argument) = s.taken (controlRecord false action argument) := by
    rw [State.taken, State.taken, if_neg (by rw [hi]; exact nofun), if_neg (by rw [hi]; exact nofun)]
    rfl
  obtain ⟨⟨st, d, hreply⟩, hsame⟩ := controlInstr_answers
    (Work.of (s.taken (controlRecord false action argument))) action argument
  rw [htaken, hsame, if_pos rfl] at hall
  rw [if_neg Bool.false_ne_true] at hown
  obtain ⟨hstate, hlink, x, y, htold, hquiet⟩ := Work.finish_answered _ hreply
  exact ⟨_, _, x, y, st, d, hown, hall, hstate, hlink, htold, hquiet⟩

end Sys2Proof.Proofs
end

section
/-! SUPPORT. BIN_FULL and the start of a delivery: what an operation and the settling do to either (R13, R116, R123). -/

namespace Sys2Proof.Machine

section
variable {w v : Work}

/-! ### Moves -/

/-- A move before the last phase latches no BIN_FULL. -/
theorem Move_unfilled {ph : Phase} (hp : ph ≠ .release) (h : Move ph w v) (hv : v.latched .binFull = true) :
    w.latched .binFull = true := by
  cases h with
  | same _ _ _ _ _ _ _ _ _ _ hfull => exact (hfull hv).resolve_right hp
  | setPack => simpa [State.latched] using hv
  | setClassQueue => simpa [State.latched] using hv
  | setFeed => simpa [State.latched] using hv
  | setPocket => simpa [State.latched] using hv
  | setBin => simpa [State.latched] using hv
  | _ => exact hv

theorem Moves_unfilled {ph : Phase} (hp : ph ≠ .release) (h : Moves ph w v) (hv : v.latched .binFull = true) :
    w.latched .binFull = true :=
  h.keeps (P := fun x => x.latched .binFull = true → w.latched .binFull = true)
    (fun _ _ hm hx hy => hx (Move_unfilled hp hm hy)) id hv

/-- A move of any phase but the start of a delivery sends no pack. -/
theorem Move_unsent {ph : Phase} (hp : ph ≠ .deliver) (h : Move ph w v) {k : Handle} (hv : (v.pack k).state = .delivering) :
    (w.pack k).state = .delivering := by
  rcases Move_pack h k with e | hm
  · rwa [e] at hv
  · exact (hm.delivers hv).resolve_right hp

theorem Moves_unsent {ph : Phase} (hp : ph ≠ .deliver) (h : Moves ph w v) {k : Handle}
    (hv : (v.pack k).state = .delivering) : (w.pack k).state = .delivering :=
  h.keeps (P := fun x => (x.pack k).state = .delivering → (w.pack k).state = .delivering)
    (fun _ _ hm hx hy => hx (Move_unsent hp hm hy)) id hv

/-! ### Operations -/

/-- What a reset starts from has no latch that did not stand, and a reset latches nothing. -/
theorem Work.resetCommon_unfilled {kind : ResetKind} {u : Work} (hu : w.ResetsFrom kind u)
    (hv : (u.resetCommon kind).latched .binFull = true) : w.latched .binFull = true := by
  have hattn : (u.resetCommon kind).attn = u.attn := by
    obtain ⟨fs, ps, bs, h, -⟩ := u.resetCommon_shape kind
    rw [h]
  rw [State.latched, hattn] at hv
  have hcleared (o : Bool) : ({ latches := Vector.replicate 15 false, output := o } : AttentionUnit).latches[causeIndex .binFull] = true
      → False := by simp
  cases kind with
  | work =>
    obtain ⟨l, rfl⟩ := hu
    exact hv
  | all =>
    obtain ⟨now, l, straps, gate, rfl⟩ := hu
    exact (hcleared _ hv).elim
  | powerOn =>
    obtain ⟨now, l, straps, gate, rfl⟩ := hu
    exact (hcleared _ hv).elim
  | pin =>
    obtain ⟨now, l, straps, gate, rfl⟩ := hu
    exact (hcleared _ hv).elim

theorem Work.resetCommon_pack (u : Work) (kind : ResetKind) (k : Handle) :
    (u.resetCommon kind).pack k = PackRec.cleared := by
  obtain ⟨fs, ps, bs, h, -⟩ := u.resetCommon_shape kind
  rw [h]
  rfl

/-- No operation latches BIN_FULL. -/
theorem Work.Op.unfilled (h : w.Op v) (hv : v.latched .binFull = true) : w.latched .binFull = true := by
  cases h.kind with
  | moved hm hr _ => exact Moves_unfilled hr hm hv
  | feed f r => simpa [State.latched] using hv
  | announced k r _ =>
    obtain ⟨m, o, h⟩ := w.acceptPack_fields k r
    rwa [h] at hv
  | wrote ws =>
    have hwrote := Moves_unfilled (ph := .work) (by decide) (Moves.meetWrite .refl _ _) hv
    rwa [State.latched, show (w.wrote ws).attn = w.attn from State.writeAll_attn _ _] at hwrote
  | reset kind u hu => exact Work.resetCommon_unfilled hu hv

/-- No operation sends a pack. -/
theorem Work.Op.unsent (h : w.Op v) {k : Handle} (hv : (v.pack k).state = .delivering) :
    (w.pack k).state = .delivering := by
  cases h.kind with
  | moved hm _ hd => exact Moves_unsent hd hm hv
  | feed f r => simpa using hv
  | announced j r hr =>
    by_cases e : k = j
    · subst e
      rw [w.acceptPack_pack_self, hr] at hv
      cases hv
    · rwa [w.acceptPack_pack_ne _ _ e] at hv
  | wrote ws =>
    have hwrote := Moves_unsent (ph := .work) (by decide) (Moves.meetWrite .refl _ _) hv
    rwa [State.pack, show (w.wrote ws).reg = w.reg from State.writeAll_reg _ _] at hwrote
  | reset kind u =>
    rw [u.resetCommon_pack] at hv
    cases hv

end

/-! ### The start of a delivery -/

/-- Pack `h` has just been sent to its bin (R23, R114, R116). -/
def State.sends (t : State) (h : Handle) : Prop :=
  (t.policyOf h = .unordered ∨ t.isClassHead h = true ∨ (t.pack h).flags.outOfTurn = true)
  ∧ ∃ d : DeliveryRec, t.ret.delivery = some d ∧ d.handle = h ∧ d.gen = (t.pack h).gen
      ∧ (t.pack h).pocket = some d.pocket ∧ d.units = (t.pack h).units ∧ d.op = .inFlight ∧ d.start = t.now
      ∧ d.allowance = t.tables.settings.mechTimeout ∧ t.ret.state = .ejecting
      ∧ t.ret.command = some (d.pocket, d.bin) ∧ t.binOf h = some d.bin
      ∧ t.ret.bins[d.bin].inService = true
      ∧ t.ret.bins[d.bin].fill + d.units ≤ t.ret.bins[d.bin].capacity

theorem BinRec.read_fields {r q : BinRec} (h : r.read = q.read) :
    r.capacity = q.capacity ∧ r.fill = q.fill ∧ r.inService = q.inService := by
  simp only [BinRec.read, BinRec.mk.injEq] at h
  obtain ⟨h1, h2, h3, h4, -⟩ := h
  exact ⟨by assumption, by assumption, by assumption⟩

/-- What is read of a pack sent. -/
theorem State.sends.of {s t : State} {k : Handle} (h : s.sends k) (hpack : t.pack k = s.pack k)
    (hqueues : t.reg.queues = s.reg.queues) (hbanks : t.tables.banks = s.tables.banks)
    (hret : t.ret = { s.ret with bins := t.ret.bins }) (hbins : ∀ b : BinId, t.ret.bins[b].read = s.ret.bins[b].read)
    (hnow : t.now = s.now) : t.sends k := by
  have hclasses : t.tables.classes = s.tables.classes := (TableStore.settings_of_banks hbanks).2.2.2.2
  have hsettings : t.tables.settings = s.tables.settings := (TableStore.settings_of_banks hbanks).1
  have hqueue (c : ClassId) : t.classQueue c = s.classQueue c := by rw [State.classQueue, State.classQueue, hqueues]
  have hpolicy : t.policyOf k = s.policyOf k := by simp only [State.policyOf, hpack, hclasses]
  have hhead : t.isClassHead k = s.isClassHead k := by rw [State.isClassHead, State.isClassHead, hpack, hqueue]
  have hbin : t.binOf k = s.binOf k := by simp only [State.binOf, hpack, hclasses]
  have hrec : t.ret.delivery = s.ret.delivery ∧ t.ret.state = s.ret.state ∧ t.ret.command = s.ret.command := by
    rw [hret]
    exact ⟨rfl, rfl, rfl⟩
  obtain ⟨hdelivery, hstate, hcommand⟩ := hrec
  obtain ⟨hturn, d, hd⟩ := h
  obtain ⟨hcap, hfill, hservice⟩ := BinRec.read_fields (hbins d.bin)
  refine ⟨by rwa [hpolicy, hhead, hpack], d, ?_⟩
  rwa [hdelivery, hpack, hnow, hsettings, hstate, hcommand, hbin, hservice, hfill, hcap]

section
variable {w : Work}

/-- The delivery record of a delivery that starts (R116). -/
theorem Work.beginDelivery_delivery (w : Work) (k : Handle) (p : PocketId) (b : BinId) :
    (w.beginDelivery k p b).ret.delivery = some {
        handle := k, gen := (w.pack k).gen, pocket := p, bin := b, units := (w.pack k).units, op := .inFlight
        start := w.now, allowance := w.tables.settings.mechTimeout }
    ∧ (w.beginDelivery k p b).ret.command = some (p, b) ∧ (w.beginDelivery k p b).now = w.now
    ∧ (w.beginDelivery k p b).tables.banks = w.tables.banks ∧ (w.beginDelivery k p b).reg.queues = w.reg.queues := by
  unfold Work.beginDelivery Work.leaveDeliveryQueue
  refine ⟨rfl, rfl, by simp, ?_, by simp⟩
  exact TableStore.banks_of_unmarked (by simp)

/-- What makes a pack eligible (R114). -/
theorem State.eligible_room {s : State} {k : Handle} (h : s.eligible k = true) :
    (s.policyOf k = .unordered ∨ s.isClassHead k = true ∨ (s.pack k).flags.outOfTurn = true)
    ∧ ∀ b, s.binOf k = some b → s.ret.bins[b].inService = true
      ∧ s.ret.bins[b].fill + (s.pack k).units ≤ s.ret.bins[b].capacity := by
  obtain ⟨hturn, hroom⟩ := Bool.and_eq_true_iff.1 h
  refine ⟨?_, fun b hb => ?_⟩
  · simp only [State.inTurn, Bool.and_eq_true, Bool.or_eq_true, decide_eq_true_eq] at hturn
    exact or_assoc.1 hturn.2
  · by_cases hs : s.ret.bins[b].inService = true
    · rw [State.servingBin, hb] at hroom
      dsimp only at hroom
      rw [if_pos hs] at hroom
      exact ⟨hs, of_decide_eq_true hroom⟩
    · rw [State.servingBin, hb] at hroom
      dsimp only at hroom
      rw [if_neg hs] at hroom
      cases hroom

theorem Work.beginDelivery_sends {k : Handle} {p : PocketId} {b : BinId} (he : w.eligible k = true)
    (hp : (w.pack k).pocket = some p) (hb : w.binOf k = some b) : (w.beginDelivery k p b).sends k := by
  obtain ⟨hdelivery, hcommand, hnow, hbanks, hqueues⟩ := w.beginDelivery_delivery k p b
  obtain ⟨hbins, hstate, -⟩ := w.beginDelivery_ret k p b
  have hpack : (w.beginDelivery k p b).pack k = { w.pack k with state := .delivering } := by
    rw [w.beginDelivery_pack, if_pos rfl]
  have hclasses : (w.beginDelivery k p b).tables.classes = w.tables.classes := (TableStore.settings_of_banks hbanks).2.2.2.2
  have hsettings : (w.beginDelivery k p b).tables.settings = w.tables.settings := (TableStore.settings_of_banks hbanks).1
  have hpolicy : (w.beginDelivery k p b).policyOf k = w.policyOf k := by simp only [State.policyOf, hpack, hclasses]
  have hqueue (c : ClassId) : (w.beginDelivery k p b).classQueue c = w.classQueue c := by
    rw [State.classQueue, State.classQueue, hqueues]
  have hhead : (w.beginDelivery k p b).isClassHead k = w.isClassHead k := by
    rw [State.isClassHead, State.isClassHead, hpack, hqueue]
  have hbin : (w.beginDelivery k p b).binOf k = w.binOf k := by simp only [State.binOf, hpack, hclasses]
  obtain ⟨hturn, hroom⟩ := State.eligible_room he
  obtain ⟨hservice, hfits⟩ := hroom b hb
  refine ⟨by rwa [hpolicy, hhead, hpack], _, hdelivery, rfl, ?_⟩
  rw [hpack, hnow, hsettings, hstate, hcommand, hbin, hbins]
  exact ⟨rfl, hp, rfl, rfl, rfl, rfl, rfl, rfl, hb, hservice, hfits⟩

/-- A pack that is DELIVERING once a delivery might start was so before, or has just been sent. -/
theorem Work.startDelivery_sends (w : Work) {k : Handle} (h : (w.startDelivery.pack k).state = .delivering) :
    (w.pack k).state = .delivering ∨ w.startDelivery.sends k := by
  unfold Work.startDelivery at h ⊢
  split at h
  next hi =>
    rw [if_pos hi]
    split at h
    · exact .inl h
    next j hj =>
      split at h
      next p b hp hb =>
        by_cases e : k = j
        · subst e
          exact .inr (Work.beginDelivery_sends (List.find?_some hj) hp hb)
        · rw [w.beginDelivery_pack, if_neg e] at h
          exact .inl h
      · exact .inl h
  · exact .inl h

/-! ### The settling -/

/-- Pack `h` comes to wait for room, its class's move to another full bin included (R123, assumption 19). -/
def State.comesToWait (s t : State) (h : Handle) : Prop :=
  t.waitingForRoom h = true ∧ (s.waitingForRoom h = false ∨ s.servingBin h ≠ t.servingBin h)

theorem State.Reads.refl (s : State) : s.Reads s := ⟨rfl, rfl, rfl, fun _ => rfl⟩

theorem State.Reads.comesToWait {s s' t t' : State} (hs : s.Reads s') (ht : t.Reads t') (k : Handle) :
    s'.comesToWait t' k ↔ s.comesToWait t k := by
  rw [State.comesToWait, State.comesToWait, hs.waitingForRoom, hs.servingBin, ht.waitingForRoom, ht.servingBin]

theorem State.mem_waitingPacks {s : State} {k : Handle} : k ∈ s.waitingPacks ↔ s.waitingForRoom k = true := by
  rw [State.waitingPacks, List.mem_filter, State.mem_live]
  refine ⟨And.right, fun hw => ⟨?_, hw⟩⟩
  obtain ⟨b, hready, -⟩ := State.waitingForRoom_iff.1 hw
  simp [hready]

/-- BIN_FULL is latched where a pack comes to wait for room. -/
theorem Work.judgeBinFull_latched (w : Work) (b : State) :
    (w.judgeBinFull b).latched .binFull = true ↔ w.latched .binFull = true ∨ ∃ k, b.comesToWait w.toState k := by
  have hcomes : (w.waitingPacks.any fun k => !w.wentOnWaiting b k) = true ↔ ∃ k, b.comesToWait w.toState k := by
    simp only [List.any_eq_true, State.mem_waitingPacks, State.wentOnWaiting, Bool.not_eq_true', Bool.and_eq_false_iff,
      decide_eq_false_iff_not]
    rfl
  unfold Work.judgeBinFull
  split
  next h => exact iff_of_true (by rw [Work.latched_latch]; simp) (.inr (hcomes.1 h))
  next h => exact ⟨.inl, fun hk => hk.resolve_right fun hc => h (hcomes.2 hc)⟩

theorem Work.timeBlock_reads (w : Work) : w.toState.Reads w.timeBlock.toState := ⟨rfl, rfl, rfl, fun _ => rfl⟩

theorem Work.timeBlock_attn (w : Work) : w.timeBlock.attn = w.attn := rfl

theorem Work.driveLamps_attn (w : Work) : w.driveLamps.attn = w.attn := by
  obtain ⟨bs, h⟩ := w.driveLamps_shape
  rw [h]

theorem Work.closed_latches (w : Work) (b : State) :
    (w.closed b).latched .binFull = true ↔ w.latched .binFull = true ∨ ∃ k, b.comesToWait (w.closed b).toState k := by
  have hreads := w.closed_reads b
  have hwaits : w.timeWaits.attn = w.attn := by
    obtain ⟨fs, m, o, h⟩ := w.timeWaits_shape
    rw [h]
  obtain ⟨x, hx⟩ : ∃ x, x = w.timeWaits := ⟨_, rfl⟩
  have hclosed : w.closed b = (x.timeBlock.judgeBinFull b).driveLamps := by rw [Work.closed, hx]
  rw [← hx] at hreads hwaits
  have hlatched : (w.closed b).latched .binFull = (x.timeBlock.judgeBinFull b).latched .binFull := by
    rw [hclosed, State.latched, State.latched, Work.driveLamps_attn]
  have hbefore : x.timeBlock.latched .binFull = w.latched .binFull := by
    rw [State.latched, State.latched, Work.timeBlock_attn, hwaits]
  rw [hlatched, Work.judgeBinFull_latched, hbefore]
  refine or_congr_right (exists_congr fun k => ?_)
  rw [(State.Reads.refl b).comesToWait hreads, (State.Reads.refl b).comesToWait x.timeBlock_reads]

/-- The settling latches BIN_FULL where a pack comes to wait for room, and nowhere else. -/
theorem Work.settle_latches (w : Work) (b : State) : ((w.settle b).latched .binFull = true →
      w.latched .binFull = true ∨ ∃ k, b.comesToWait (w.settle b).toState k)
    ∧ ((∃ k, b.comesToWait (w.settle b).toState k) → (w.settle b).latched .binFull = true) := by
  have hgo : w.goOn.latched .binFull = true → w.latched .binFull = true := fun h => by
    have h1 := Moves_unfilled (ph := .rest) (by decide) (Moves.endStopping .refl) h
    have h2 := Moves_unfilled (ph := .deliver) (by decide) (Moves.startDelivery .refl) h1
    have h3 := Moves_unfilled (ph := .rest) (by decide) (Moves.staple (Moves.judge .refl)) h2
    exact Moves_unfilled (ph := .work) (by decide) (Moves.endStartUp (Moves.startPurges .refl)) h3
  have hreleased := (Work.Released.refl w.goOn).decideReleases.binFull
  have hclosed := w.goOn.decideReleases.closed_latches b
  rw [← Work.settle_closed, hreleased] at hclosed
  exact ⟨fun h => (hclosed.1 h).imp_left hgo, fun h => hclosed.2 (.inr h)⟩

/-- The rest of the settling sends a pack by the start of a delivery alone. -/
theorem Work.rest_sends (w : Work) (b : State) {k : Handle} (h : ((w.rest b).pack k).state = .delivering) :
    (w.pack k).state = .delivering ∨ (w.rest b).sends k := by
  obtain ⟨x, hx⟩ : ∃ x, x = w.startDelivery := ⟨_, rfl⟩
  obtain ⟨y, hy⟩ : ∃ y, y = x.endStopping := ⟨_, rfl⟩
  have hrest : w.rest b = y.decideReleases.closed b := by rw [Work.rest, hy, hx]
  have hreleased := (Work.Released.refl y).decideReleases
  obtain ⟨z, hz⟩ : ∃ z, z = y.decideReleases := ⟨_, rfl⟩
  rw [← hz] at hrest hreleased
  rw [hrest] at h ⊢
  have hwaits : z.toState.Reads z.timeWaits.toState := by
    obtain ⟨fs, m, o, h⟩ := z.timeWaits_shape
    rw [h]
    exact ⟨rfl, rfl, rfl, fun _ => rfl⟩
  have hreads := hwaits.trans (z.closed_reads b)
  obtain ⟨bs, a, m, o, hc⟩ := z.closed_shape b
  have hpack : (z.closed b).pack k = z.pack k := by
    rw [hc]
    rfl
  have hy' : z.pack k = y.pack k := (hreleased.packs k).resolve_right fun ⟨_, e⟩ => by
    rw [hpack, e] at h
    cases h
  have hstop : y.pack k = x.pack k := by
    rcases x.endStopping_shape with ⟨e, -⟩ | ⟨-, e⟩ <;> rw [hy, e]
    rfl
  rw [hpack, hy', hstop, hx] at h
  refine (w.startDelivery_sends h).imp_right fun hsends => ?_
  rw [← hx] at hsends
  have hsent : y.sends k := by
    rcases x.endStopping_shape with ⟨e, -⟩ | ⟨-, e⟩ <;> rw [hy, e]
    · exact hsends
    · exact hsends.of rfl rfl rfl rfl (fun _ => rfl) rfl
  have hdecided : z.sends k := hsent.of hy' hreleased.queues hreleased.banks (by rw [hreleased.ret])
    (fun b => by rw [hreleased.ret]) hreleased.now
  refine hdecided.of hpack hreads.queues ?_ ?_ hreads.bins ?_ <;> rw [hc] <;> rfl

theorem Work.settle_sends (w : Work) (b : State) {k : Handle} (h : ((w.settle b).pack k).state = .delivering) :
    (w.pack k).state = .delivering ∨ (w.settle b).sends k := by
  rw [w.settle_rest b] at h ⊢
  refine (Work.rest_sends _ b h).imp_left fun hs => ?_
  have h1 := Moves_unsent (ph := .rest) (by decide) (Moves.staple (Moves.judge .refl)) hs
  exact Moves_unsent (ph := .work) (by decide) (Moves.endStartUp (Moves.startPurges .refl)) h1

/-! ### Every command -/

theorem Work.Still.sends {v : Work} (h : w.Still v) {k : Handle} (hs : w.toState.sends k) : v.toState.sends k := by
  obtain ⟨bs, hr, -⟩ := h.ret
  exact hs.of (h.reads.pack k) h.queues h.banks (by rw [hr]) h.reads.bins h.now

/-- What every command does to BIN_FULL and to the packs that go DELIVERING. -/
theorem Work.Does.delivers {v : Work} (h : w.Does v) :
    (∀ k, w.toState.comesToWait v.toState k → v.latched .binFull = true)
    ∧ (v.latched .binFull = true → w.latched .binFull = true ∨ ∃ k, w.toState.comesToWait v.toState k)
    ∧ ∀ k, (w.pack k).state ≠ .delivering → (v.pack k).state = .delivering → v.toState.sends k := by
  cases h with
  | still h =>
    refine ⟨fun k hk => ?_, fun hv => .inl (h.binFull hv), fun k hn hk => ?_⟩
    · obtain ⟨h1, h2⟩ := hk
      rw [h.reads.waitingForRoom] at h1
      rw [h.reads.servingBin, h1] at h2
      rcases h2 with e | e
      · cases e
      · exact absurd rfl e
    · rw [h.reads.pack] at hk
      exact absurd hk hn
  | settled x u b hx hu hb hv hl =>
    have hcomes (k : Handle) : b.toState.comesToWait (u.settle b.toState).toState k ↔ w.toState.comesToWait v.toState k :=
      (hb.reads.comesToWait (.refl _) k).trans (State.Reads.comesToWait (.refl _) hv.reads k).symm
    obtain ⟨hlatched, hlatches⟩ := u.settle_latches b.toState
    refine ⟨fun k hk => ?_, fun ht => ?_, fun k hn hk => ?_⟩
    · exact hl (hlatches ⟨k, (hcomes k).2 hk⟩)
    · exact (hlatched (hv.binFull ht)).imp (fun hu' => hx.binFull (hu.unfilled hu')) fun ⟨k, hk⟩ => ⟨k, (hcomes k).1 hk⟩
    · rw [hv.reads.pack] at hk
      rcases u.settle_sends b.toState hk with hd | hs
      · have hd := hu.unsent hd
        rw [hx.reads.pack] at hd
        exact absurd hd hn
      · exact hv.sends hs

end

end Sys2Proof.Machine

namespace Sys2Proof.Proofs

open Sys2Proof.Machine

/-- Settles O8: an operation neither latches BIN_FULL nor sends a pack; the settling judges the first at its end, and sends
a pack by the start of a delivery alone. -/
theorem deliveriesStartInTurnWithRoom : Obligations.DeliveriesStartInTurnWithRoom := by
  unfold Obligations.DeliveriesStartInTurnWithRoom
  intro c s t h
  exact (exec_does h).delivers

end Sys2Proof.Proofs
end

section
/-! SUPPORT. STOP: what it brings in STARTING, in HALT and elsewhere (R165, R187, R190). -/

namespace Sys2Proof.Machine

theorem State.halted_iff {s : State} : s.halted = true ↔ ∃ c t, s.run.state = .halt c t := by
  unfold State.halted
  cases s.run.state <;> simp

section
variable {w : Work}

theorem Work.takeStop_starting {kind : ResetKind} {b : Bool} (h : w.run.state = .starting kind b) :
    w.takeStop = (w.latch .stop).setRunState (.starting kind true) := by
  rw [Work.takeStop, Work.requestHalt, show (w.latch .stop).run.state = .starting kind b from h]

theorem Work.takeStop_halted (h : w.halted = true) : w.takeStop = w.latch .stop := by
  obtain ⟨c, t, ht⟩ := State.halted_iff.1 h
  rw [Work.takeStop, Work.requestHalt, show (w.latch .stop).run.state = .halt c t from ht]
  rfl

theorem Work.takeStop_target {target : ResumeTarget} (h : resumeTargetOf w.run.state = some target) :
    w.takeStop = (w.latch .stop).halt .stop target := by
  rw [Work.takeStop, Work.requestHalt]
  split
  next hr => rw [show w.run.state = _ from hr] at h; cases h
  · rw [show resumeTargetOf (w.latch .stop).run.state = some target from h]

/-- A state is STARTING, HALT, or one that HALT resumes. -/
theorem RunState.stop_cases (r : RunState) : (∃ kind b, r = .starting kind b) ∨ (∃ c t, r = .halt c t)
    ∨ ∃ target, resumeTargetOf r = some target := by
  cases r with
  | starting kind b => exact .inl ⟨kind, b, rfl⟩
  | halt c t => exact .inr (.inl ⟨c, t, rfl⟩)
  | _ => exact .inr (.inr ⟨_, rfl⟩)

theorem Work.takeStop_keeps (w : Work) : w.takeStop.reg = w.reg ∧ w.takeStop.ret.bins = w.ret.bins := by
  rcases RunState.stop_cases w.run.state with ⟨kind, b, h⟩ | h | ⟨target, h⟩
  · rw [Work.takeStop_starting h]
    exact ⟨rfl, rfl⟩
  · rw [Work.takeStop_halted (State.halted_iff.2 h)]
    exact ⟨rfl, rfl⟩
  · rw [Work.takeStop_target h]
    refine ⟨(Work.halt_cutsOff _ _ _).1, ?_⟩
    rw [Work.halt_ret, State.cutOffReturn]
    split <;> rfl

theorem Work.takeStop_latched (w : Work) : w.takeStop.latched .stop = true :=
  ((Evolves.refl (w.latch .stop)).requestHalt .stop).latched _ (State.latched_latch_self w .stop)

end

/-- What a STOP taken in `s` leads to: nothing but the latch in HALT, a pending halt in STARTING, and elsewhere HALT, the
operations cut off (R90, R108, R126, R187, R190). -/
def State.stops (s t : State) : Prop :=
  s.surrounds t ∧ s.keepsPacks t ∧ s.keepsBins t [] ∧ t.latched .stop = true
  ∧ (∀ kind halting, s.run.state = .starting kind halting → s.anyPurging = true →
      t.run.state = .starting kind true)
  ∧ (s.halted = true → t.run.state = s.run.state)
  ∧ ∀ target, resumeTargetOf s.run.state = some target →
      t.run.state = .halt .stop target ∧ t.arb.inFlight = s.arb.inFlight
      ∧ t.stapler = (match s.volumeInFlight with
        | none => s.stapler
        | some k => { s.stapler with state := .idle, work := some { k with op := .cutOff }, command := none })
      ∧ t.ret.state = s.ret.state
      ∧ t.ret.delivery = (match s.deliveryInFlight with
        | none => s.ret.delivery
        | some d => some { d with op := .cutOff })
      ∧ ∀ p : PocketId, t.pockets[p] = (if s.pockets[p].purge = .running
          then { s.pockets[p] with purge := .pending } else s.pockets[p])

/-- A STOP that enters HALT, once its step has settled. -/
theorem Work.halted_settled {s b : State} {target : ResumeTarget} {v : Work}
    (hv : v = (((Work.of s).latch .stop).halt .stop target).settle b) :
    v.run.state = .halt .stop target ∧ v.arb.inFlight = s.arb.inFlight ∧ v.stapler = s.stapler.cutOff
      ∧ v.ret.state = s.cutOffReturn.state ∧ v.ret.delivery = s.cutOffReturn.delivery
      ∧ ∀ p : PocketId, v.pockets[p] = s.pockets[p].purgeCutOff := by
  obtain ⟨x, hx⟩ : ∃ x, x = (Work.of s).latch .stop := ⟨_, rfl⟩
  have hxs : x.stapler = s.stapler ∧ x.pockets = s.pockets ∧ x.arb = s.arb ∧ x.cutOffReturn = s.cutOffReturn := by
    rw [hx]
    exact ⟨rfl, rfl, rfl, rfl⟩
  obtain ⟨h1, h2, h3, h4⟩ := hxs
  rw [← hx] at hv
  obtain ⟨-, hmerge, -, hstapler, hpockets⟩ := x.halt_cutsOff .stop target
  have hret := x.halt_ret .stop target
  have hrun := x.runState_halt .stop target
  have harb : (x.halt .stop target).arb = x.arb := Work.arb_of_merge hmerge
  obtain ⟨y, hy⟩ : ∃ y, y = x.halt .stop target := ⟨_, rfl⟩
  rw [← hy] at hstapler hpockets hret hrun harb hv
  have hhalted : y.halted = true := State.halted_iff.2 ⟨_, _, hrun⟩
  obtain ⟨-, k1, k2, k3, k4, k5, -, k7⟩ := Work.settle_halted hhalted b
  rw [hv, k1, k2, k3, k4, k5, k7, hstapler, hret, hrun, harb, h1, h3, h4]
  exact ⟨rfl, rfl, rfl, rfl, rfl, fun p => by rw [hpockets, h2]⟩

/-- A STOP taken leads to what it has to. -/
theorem Work.takeStop_stops (s b : State) : s.stops ((Work.of s).takeStop.settle b).finish := by
  obtain ⟨hreg, hbins⟩ := (Work.of s).takeStop_keeps
  have hevolves : Evolves (Work.of s) (Work.of s).takeStop := (Evolves.refl _).takeStop
  have hfrom := ((Work.From.of s).evolves hevolves (Work.frame_takeStop _)).settle b
  refine ⟨hfrom.surrounds, ((State.keepsPacks_of_reg hreg).settle b).finish,
    ((State.keepsBins_of_bins hbins []).settle b).finish,
    Work.finish_latched _ _ (((Evolves.refl _).settle b).latched _ (Work.takeStop_latched _)),
    fun kind halting h hp => ?_, fun h => ?_, fun target h => ?_⟩
  · obtain ⟨x, hx⟩ : ∃ x, x = (Work.of s).takeStop := ⟨_, rfl⟩
    have hstop : x.run.state = .starting kind true ∧ x.anyPurging = s.anyPurging := by
      rw [hx, Work.takeStop_starting (w := Work.of s) h]
      exact ⟨rfl, rfl⟩
    rw [Work.finish_run, ← hx, (Work.settle_starting hstop.1 b).1, hstop.2, hp, if_pos rfl, hstop.1]
  · have hstop := Work.takeStop_halted (w := Work.of s) h
    obtain ⟨x, hx⟩ : ∃ x, x = (Work.of s).latch .stop := ⟨_, rfl⟩
    have hxs : x.run = s.run := by
      rw [hx]
      rfl
    rw [← hx] at hstop
    have hhalted : x.halted = true := by
      rw [State.halted_eq] at h ⊢
      rwa [hxs]
    rw [hstop, Work.finish_run, (Work.settle_halted hhalted b).2.1, hxs]
  · have hstop := Work.takeStop_target (w := Work.of s) h
    rw [hstop]
    obtain ⟨v, hv⟩ : ∃ v, v = (((Work.of s).latch .stop).halt .stop target).settle b := ⟨_, rfl⟩
    obtain ⟨h1, h2, h3, h4, h5, h6⟩ := Work.halted_settled hv
    rw [← hv]
    obtain ⟨k1, k2, -⟩ := s.cutOffReturn_is
    rw [Work.finish_run, Work.finish_arb, Work.finish_stapler, Work.finish_ret, Work.finish_pockets]
    exact ⟨h1, h2, h3.trans (Stapler.cutOff_eq s), h4.trans k1, h5.trans k2, h6⟩

/-- A STOP character or a fall of the STOP input takes a STOP (R165, R187). -/
theorem exec_stopCharacter (s : State) : exec .stopCharacter s
    = .next ((Work.of { s with link := { s.link.echo ⟨true, 0xE5⟩ with receiver := .waiting } }).takeStop.settle s).finish :=
  (exec_event (c := .stopCharacter) rfl s).trans (congrArg _ (if_pos rfl))

theorem exec_stopInputFall {s : State} (h : s.pins.stopHigh = true) : exec .stopInputFall s
    = .next ((Work.of { s with pins := { s.pins with stopHigh := false } }).takeStop.settle s).finish :=
  (exec_event (c := .stopInputFall) rfl s).trans (congrArg _ (if_pos h))

/-- A rise of the STOP input changes the level alone (R187). -/
theorem exec_stopInputRise {s : State} (h : s.pins.stopHigh = false) (ha : s.attentionFollows) :
    exec .stopInputRise s = .next { s with pins := { s.pins with stopHigh := true }, link := s.link.boundary } := by
  refine (exec_event (c := .stopInputRise) rfl s).trans ?_
  rw [if_pos (by rw [Instr.comes, h]; rfl)]
  exact congrArg _ (Work.finish_silent (w := (Work.of s).setStop true) rfl rfl rfl rfl ha)

end Sys2Proof.Machine
end

section
/-! SUPPORT. A restart request for each entry of a list (R62, R128): what stands of the packs it does not take, and the pack it
remakes. -/

namespace Sys2Proof.Machine

section
variable {s : State} {w : Work} {e : InFlight} {l : List InFlight} {k : Handle} {c : RestartCause}

/-! ### One request -/

/-- The entry asks for no restart of pack `k`. -/
def State.Passes (s : State) (k : Handle) (e : InFlight) : Prop :=
  e.disp = .collate → e.handle = some k → s.takesRestart k e.gen = false

theorem State.takesRestart_of_pack {s t : State} (h : t.pack k = s.pack k) (g : Nat) :
    t.takesRestart k g = s.takesRestart k g := by rw [State.takesRestart, State.takesRestart, h]

theorem State.Passes.of_pack {s t : State} (h : s.Passes k e) (hp : t.pack k = s.pack k) : t.Passes k e := fun hd hk => by
  rw [State.takesRestart_of_pack hp]
  exact h hd hk

theorem Work.requestFor_pack (h : w.Passes k e) : (w.requestFor e c).pack k = w.pack k := by
  by_cases hk : e.handle = some k
  · by_cases hd : e.disp = .collate
    · rw [Work.requestFor_collate hd hk, Work.requestRestart, if_neg (by rw [h hd hk]; exact nofun)]
    · rw [Work.requestFor_none fun _ hd' => absurd hd' hd]
  · exact Work.requestFor_others hk

/-- A request is ignored, or one pack takes it. -/
theorem Work.requestFor_cases (w : Work) (e : InFlight) (c : RestartCause) : w.requestFor e c = w
    ∨ ∃ j, e.disp = .collate ∧ e.handle = some j ∧ w.takesRestart j e.gen = true := by
  by_cases h : ∃ j, e.disp = .collate ∧ e.handle = some j ∧ w.takesRestart j e.gen = true
  · exact .inr h
  · refine .inl (Work.requestFor_none fun j hd hj => ?_)
    by_contra ht
    exact h ⟨j, hd, hj, by simpa using ht⟩

theorem State.Remade.pocket (h : s.Remade k w) : (w.pack k).pocket = (s.pack k).pocket := by
  obtain ⟨-, h⟩ := h
  split at h
  · rw [h.1]
    rfl
  · cases hp : (s.pack k).pocket with
    | none => rw [h.2.1 hp]; rfl
    | some p => rw [h.1 (by rw [hp]; rfl), hp]

/-- A pack keeps the pocket it names, whatever request is made. -/
theorem Work.requestFor_names (w : Work) (e : InFlight) (c : RestartCause) (j : Handle) :
    ((w.requestFor e c).pack j).pocket = (w.pack j).pocket := by
  rcases w.requestFor_cases e c with h | ⟨i, hd, hi, ht⟩
  · rw [h]
  · by_cases hj : j = i
    · subst hj
      rw [Work.requestFor_collate hd hi]
      exact (Work.requestRestart_remade (s := w.toState) ht rfl rfl c).1.pocket
    · rw [Work.requestFor_others fun hk => hj (Option.some.inj (hk.symm.trans hi))]

/-- A request that pack `k` does not take leaves it and its pocket alone. -/
theorem Work.requestFor_leaves (hs : w.plant.Sole k) (h : w.Passes k e) :
    w.plant.Leaves k (w.requestFor e c).plant where
  pack := Work.requestFor_pack h
  names := w.requestFor_names e c
  pocket p hp := by
    rcases w.requestFor_cases e c with hw | ⟨j, hd, hj, ht⟩
    · rw [hw]
    · refine ((Work.requestFor_plant hd hj ht).2 p).trans (if_neg fun hjp => ?_)
      have hne := hs j p hp hjp
      subst hne
      rw [h hd hj] at ht
      cases ht

/-- What a request does to the Stapler: nothing, or one pack, not `k`, leaves its queue. -/
theorem Work.requestFor_stapler (w : Work) (e : InFlight) (c : RestartCause) : (w.requestFor e c).stapler = w.stapler
    ∨ ∃ j, e.disp = .collate ∧ e.handle = some j ∧ w.takesRestart j e.gen = true
      ∧ (w.requestFor e c).stapler = w.stapler.without j := by
  rcases w.requestFor_cases e c with h | ⟨j, hd, hj, ht⟩
  · rw [h]
    exact .inl rfl
  · exact .inr ⟨j, hd, hj, ht, (Work.requestFor_plant hd hj ht).1⟩

/-- A request takes packs out of queues, and brings none in. -/
theorem Work.requestFor_queues (w : Work) (e : InFlight) (c : RestartCause) :
    (∀ j ∈ (w.requestFor e c).stapler.queue, j ∈ w.stapler.queue)
      ∧ ∀ d, ∀ j ∈ (w.requestFor e c).classQueue d, j ∈ w.classQueue d := by
  refine ⟨fun j hj => ?_, fun d j hj => ?_⟩
  · rcases w.requestFor_stapler e c with h | ⟨i, -, -, -, h⟩ <;> rw [h] at hj
    · exact hj
    · exact (List.mem_filter.1 hj).1
  · rcases w.requestFor_cases e c with h | ⟨i, hd, hi, ht⟩
    · rwa [h] at hj
    · have hleave (x : Plant) (hx : x.queue = (w.plant.leaveQueue i).queue) (hj : j ∈ x.queue d) : j ∈ w.classQueue d := by
        rw [hx, Plant.leaveQueue, Plant.setQueue] at hj
        dsimp only at hj
        rw [Function.update_apply] at hj
        split at hj
        next hc =>
          rw [hc]
          exact (List.mem_filter.1 hj).1
        · exact hj
      rw [Work.requestFor_collate hd hi, Work.requestRestart, if_pos ht] at hj
      split at hj
      · have h := congrArg (fun P : Plant => P.queue d) (w.restartPack_plant i c)
        rw [Plant.onPocket_queue] at h
        exact (congrArg (j ∈ ·) h).mp hj
      · cases hp : (w.pack i).pocket with
        | none =>
          refine hleave (w.abandonPack i c).plant ?_ hj
          rw [w.abandonPack_plant_free c hp]
          rfl
        | some p =>
          refine hleave (w.abandonPack i c).plant ?_ hj
          rw [w.abandonPack_plant_held c (k := i) (by rw [hp]; exact nofun), Plant.onPocket_queue]
          rfl

/-- A request forms one notice at most. -/
theorem Work.requestFor_notices (w : Work) (e : InFlight) (c : RestartCause) :
    ∃ n, (w.requestFor e c).notices = w.notices ++ n ∧ n.length ≤ 1 := by
  rcases w.requestFor_cases e c with h | ⟨j, hd, hj, ht⟩
  · rw [h]
    exact ⟨[], (List.append_nil _).symm, Nat.zero_le _⟩
  · rw [Work.requestFor_collate hd hj]
    exact ⟨_, (Work.requestRestart_remade (s := w.toState) ht rfl rfl c).2, Nat.le_refl _⟩

/-- A pack remade takes no further request of the generation it had. -/
theorem State.Remade.passes (h : s.Remade k w) (he : e.disp = .collate → e.handle = some k → e.gen = (s.pack k).gen) : w.Passes k e := fun hd hk => by
  rw [he hd hk, Bool.eq_false_iff, Ne, State.takesRestart_iff]
  rintro ⟨hfree, hdisposing, hgen, -⟩
  obtain ⟨-, h⟩ := h
  split at h
  · rw [h.1] at hgen
    exact absurd hgen (Nat.succ_ne_self _)
  · cases hp : (s.pack k).pocket with
    | none =>
      rw [h.2.1 hp] at hfree
      exact hfree rfl
    | some p =>
      rw [h.1 (by rw [hp]; rfl)] at hdisposing
      exact hdisposing rfl

theorem State.Remade.requestFor (h : s.Remade k w) (he : e.disp = .collate → e.handle = some k → e.gen = (s.pack k).gen) :
    s.Remade k (w.requestFor e c) := by
  obtain ⟨hstaple, hclass⟩ := w.requestFor_queues e c
  exact h.of (Work.requestFor_pack (h.passes he)) (hstaple k) (fun d => hclass d k)
    ((Evolves.refl w).requestFor e c).latched

/-! ### A request for each entry of a list -/

/-- A request for each entry, from head to tail. -/
def Work.requestAll (w : Work) (l : List InFlight) (c : RestartCause) : Work := w.each (fun x e => x.requestFor e c) l

theorem Work.requestAll_cons (w : Work) (e : InFlight) (l : List InFlight) (c : RestartCause) :
    w.requestAll (e :: l) c = (w.requestFor e c).requestAll l c := rfl

theorem Work.flushInFlight_eq (w : Work) :
    w.flushInFlight = (w.setArb { w.arb with inFlight := [] }).requestAll w.arb.inFlight .resumeFlush := rfl

theorem Work.requestAll_spares (w : Work) (l : List InFlight) (c : RestartCause) : w.Spares (w.requestAll l c) := by
  induction l generalizing w with
  | nil => exact .refl w
  | cons e l ih => exact ((Work.Spares.refl w).requestFor e c).trans (ih _)

theorem Work.requestAll_evolves (w : Work) (l : List InFlight) (c : RestartCause) : Evolves w (w.requestAll l c) := by
  induction l generalizing w with
  | nil => exact .refl w
  | cons e l ih => exact ((Evolves.refl w).requestFor e c).trans (ih _)

theorem Work.frame_requestAll (w : Work) (l : List InFlight) (c : RestartCause) : (w.requestAll l c).frame = w.frame := by
  induction l generalizing w with
  | nil => rfl
  | cons e l ih => rw [Work.requestAll_cons, ih, Work.frame_requestFor]

theorem Work.requestAll_leaves (hs : w.plant.Sole k) (h : ∀ e ∈ l, w.Passes k e) :
    w.plant.Leaves k (w.requestAll l c).plant := by
  induction l generalizing w with
  | nil => exact .refl _ k
  | cons e l ih =>
    have hfirst := w.requestFor_leaves (c := c) hs (h e List.mem_cons_self)
    exact hfirst.trans (ih (hs.of hfirst.names) fun x hx => (h x (List.mem_cons_of_mem _ hx)).of_pack hfirst.pack)

theorem Work.requestAll_pack (h : ∀ e ∈ l, w.Passes k e) : (w.requestAll l c).pack k = w.pack k := by
  induction l generalizing w with
  | nil => rfl
  | cons e l ih =>
    have hfirst := Work.requestFor_pack (c := c) (h e List.mem_cons_self)
    rw [Work.requestAll_cons, ih fun x hx => (h x (List.mem_cons_of_mem _ hx)).of_pack hfirst, hfirst]

/-- Where no pack of the staple queue takes a request, the Stapler stands. -/
theorem Work.requestAll_stapler (h : ∀ e ∈ l, ∀ j ∈ w.stapler.queue, w.Passes j e) :
    (w.requestAll l c).stapler = w.stapler := by
  induction l generalizing w with
  | nil => rfl
  | cons e l ih =>
    have hpasses := h e List.mem_cons_self
    have hfirst : (w.requestFor e c).stapler = w.stapler := by
      rcases w.requestFor_stapler e c with hw | ⟨j, hd, hj, ht, hw⟩
      · exact hw
      · rw [hw]
        refine Stapler.without_of_not_mem fun hq => ?_
        rw [hpasses j hq hd hj] at ht
        cases ht
    rw [Work.requestAll_cons, ih, hfirst]
    intro x hx j hj
    rw [hfirst] at hj
    exact (h x (List.mem_cons_of_mem _ hx) j hj).of_pack (Work.requestFor_pack (hpasses j hj))

/-- A pack behind the head leaves the queue alone. -/
theorem Stapler.without_of_head {r : Stapler} {j : Handle} (h : r.queue.head? = some k) (hj : k ≠ j) :
    ∃ q, r.without j = { r with queue := q } ∧ q.head? = some k := by
  obtain ⟨q, hq⟩ : ∃ q, r.queue = k :: q := by
    cases hr : r.queue with
    | nil => rw [hr] at h; cases h
    | cons i q => rw [hr] at h; exact ⟨q, by rw [Option.some.inj h]⟩
  refine ⟨r.queue.filter fun i => decide (i ≠ j), ?_, ?_⟩
  · have hne : ¬r.queue.head? = some j := by rw [h]; exact fun e => hj (Option.some.inj e)
    simp [Stapler.without, hne]
  · rw [hq, List.filter_cons_of_pos (by simpa using hj)]
    rfl

/-- Where no entry names the head of the staple queue, it stays at the head, its work in hand. -/
theorem Work.requestAll_head (hk : w.stapler.queue.head? = some k) (h : ∀ e ∈ l, e.handle ≠ some k) :
    ∃ q, (w.requestAll l c).stapler = { w.stapler with queue := q } ∧ q.head? = some k := by
  induction l generalizing w with
  | nil => exact ⟨_, rfl, hk⟩
  | cons e l ih =>
    obtain ⟨q, hq, hhead⟩ : ∃ q, (w.requestFor e c).stapler = { w.stapler with queue := q } ∧ q.head? = some k := by
      rcases w.requestFor_stapler e c with hw | ⟨j, -, hj, -, hw⟩ <;> rw [hw]
      · exact ⟨_, rfl, hk⟩
      · exact Stapler.without_of_head hk fun e' => h e List.mem_cons_self (by rw [e']; exact hj)
    obtain ⟨q', hq', hhead'⟩ := ih (w := w.requestFor e c) (by rw [hq]; exact hhead)
      fun x hx => h x (List.mem_cons_of_mem _ hx)
    refine ⟨q', ?_, hhead'⟩
    rw [Work.requestAll_cons, hq', hq]

theorem State.Remade.requestAll (h : s.Remade k w) (he : ∀ e ∈ l, e.disp = .collate → e.handle = some k → e.gen = (s.pack k).gen) :
    s.Remade k (w.requestAll l c) := by
  induction l generalizing w with
  | nil => exact h
  | cons e l ih => exact ih (h.requestFor (he e List.mem_cons_self)) fun x hx => he x (List.mem_cons_of_mem _ hx)

/-- The first entry of a pack that takes its restart remakes it, its notice behind those of the entries before it. -/
theorem Work.requestAll_remade (hp : w.pack k = s.pack k) (hset : w.tables.settings = s.tables.settings)
    (ht : s.takesRestart k (s.pack k).gen = true) (he : ∃ e ∈ l, e.disp = .collate ∧ e.handle = some k)
    (hg : ∀ e ∈ l, e.disp = .collate → e.handle = some k → e.gen = (s.pack k).gen) :
    s.Remade k (w.requestAll l c)
      ∧ ∃ pre post, (w.requestAll l c).notices = w.notices ++ pre ++ s.restartNotice k c :: post ∧ pre.length < l.length := by
  induction l generalizing w with
  | nil => obtain ⟨e, he, -⟩ := he; cases he
  | cons e l ih =>
    have hgtail : ∀ x ∈ l, x.disp = .collate → x.handle = some k → x.gen = (s.pack k).gen :=
      fun x hx => hg x (List.mem_cons_of_mem _ hx)
    rw [Work.requestAll_cons]
    by_cases hfirst : e.disp = .collate ∧ e.handle = some k
    · obtain ⟨hd, hk⟩ := hfirst
      have htakes : w.takesRestart k e.gen = true := by
        rw [hg e List.mem_cons_self hd hk, State.takesRestart_of_pack hp]
        exact ht
      obtain ⟨hremade, hnotices⟩ := Work.requestRestart_remade (s := s) htakes hp hset c
      rw [← Work.requestFor_collate hd hk] at hremade hnotices
      obtain ⟨post, hpost⟩ := ((w.requestFor e c).requestAll_evolves l c).notices
      refine ⟨hremade.requestAll hgtail, [], post, ?_, Nat.succ_pos _⟩
      rw [← hpost, hnotices]
      simp
    · have hpack : (w.requestFor e c).pack k = w.pack k :=
        Work.requestFor_pack fun hd hk => absurd ⟨hd, hk⟩ hfirst
      obtain ⟨n, hn, hle⟩ := w.requestFor_notices e c
      obtain ⟨x, hx, hxd, hxk⟩ := he
      have htail : x ∈ l := (List.mem_cons.1 hx).resolve_left fun h => hfirst (h ▸ ⟨hxd, hxk⟩)
      obtain ⟨hremade, pre, post, hnotices, hlt⟩ := ih (w := w.requestFor e c) (hpack.trans hp)
        ((Work.settings_of_frame (Work.frame_requestFor w e c)).trans hset) ⟨x, htail, hxd, hxk⟩ hgtail
      refine ⟨hremade, n ++ pre, post, ?_, ?_⟩
      · rw [hnotices, hn]
        simp
      · rw [List.length_append, List.length_cons]
        omega

end

end Sys2Proof.Machine
end

section
/-! SUPPORT. RESUME (R142): what its four steps leave alone, the volume and the delivery it reissues, and the sheets that its
release decisions add. -/

namespace Sys2Proof.Machine

section
variable {w : Work} {k : Handle} {m : WorkRec}

/-! ### A volume started (R98, R102, R103) -/

/-- A volume is begun with its staples deducted, or found short: its pack waits, or its stapling ends. -/
theorem Work.startVolume_is (w : Work) (m : WorkRec) : patternCount (w.pack m.handle).snap.pattern ≤ w.stapler.remaining
    ∨ w.startVolume m = (w.latch .staplesOut).setStapler .waitingCartridge (some { m with op := .none }) none
    ∨ ∃ f, w.startVolume m = (w.latch .staplesOut).finishPack m.handle f := by
  by_cases hn : w.stapler.remaining < patternCount (w.pack m.handle).snap.pattern
  · rw [show w.startVolume m = w.shortVolume m from if_pos hn]
    cases hs : (w.pack m.handle).snap.staplesOut with
    | hold => exact .inr (.inl (Work.shortVolume_holds hs))
    | deliverUnstapled => exact .inr (.inr ⟨_, Work.shortVolume_delivers hs⟩)
  · exact .inl (Nat.not_lt.1 hn)

theorem Work.finishPack_queue (w : Work) (k : Handle) (f : PackFlags) :
    (w.finishPack k f).ret = { w.ret with queue := (w.finishPack k f).ret.queue } := by
  obtain ⟨x, h, hret, -⟩ := w.finishPack_ret k f
  rw [h, ← hret]
  rfl

/-- A volume started leaves the other packs and the class queues alone, and brings nothing into the staple queue; of the
Return Unit it changes the delivery queue alone. -/
theorem Work.startVolume_keeps (w : Work) (m : WorkRec) : (∀ j, j ≠ m.handle → (w.startVolume m).pack j = w.pack j)
    ∧ (∀ c, (w.startVolume m).classQueue c = w.classQueue c)
    ∧ (∀ j ∈ (w.startVolume m).stapler.queue, j ∈ w.stapler.queue)
    ∧ (w.startVolume m).ret = { w.ret with queue := (w.startVolume m).ret.queue } := by
  rcases w.startVolume_is m with hn | h | ⟨f, h⟩
  · have hplant := w.startVolume_plant m hn
    refine ⟨fun j hj => ?_, fun c => ?_, fun j hj => ?_, ?_⟩
    · refine (congrArg (fun P : Plant => P.pack j) hplant).trans ?_
      exact (congrFun (Plant.onPocket_pack ..) j).trans (Plant.setPack_pack_ne _ hj)
    · refine (congrArg (fun P : Plant => P.queue c) hplant).trans ?_
      exact congrFun (Plant.onPocket_queue ..) c
    · rw [(Work.startVolume_begins hn).1] at hj
      exact hj
    · rw [(w.startVolume_ret m hn).2]
  · rw [h]
    exact ⟨fun _ _ => rfl, fun _ => rfl, fun _ => id, rfl⟩
  · have hqueue : (w.latch .staplesOut).stapler.queue = w.stapler.queue := rfl
    have hret : (w.latch .staplesOut).ret = w.ret := rfl
    have hclass (c : ClassId) : (w.latch .staplesOut).classQueue c = w.classQueue c := rfl
    have hpack (j : Handle) : (w.latch .staplesOut).pack j = w.pack j := rfl
    rw [h]
    obtain ⟨x, hx⟩ : ∃ x, x = w.latch .staplesOut := ⟨_, rfl⟩
    rw [← hx] at hqueue hret hclass hpack ⊢
    refine ⟨fun j hj => ?_, fun c => ?_, fun j hj => ?_, ?_⟩
    · rw [x.finishPack_others hj f, hpack]
    · rw [State.classQueue, (x.finishPack_queues m.handle f).1]
      exact hclass c
    · have hstapler := (congrArg Plant.stapler (x.finishPack_plant m.handle f)).trans (Plant.onPocket_stapler ..)
      rw [show (x.finishPack m.handle f).stapler.queue = _ from congrArg Stapler.queue hstapler] at hj
      exact hqueue ▸ (List.mem_filter.1 hj).1
    · rw [← hret]
      exact x.finishPack_queue m.handle f

/-! ### The steps of RESUME -/

/-- RESUME reissues the volume in hand by starting it again (R108, R109). -/
theorem Work.reissueVolume_starts (hi : w.stapler.state = .idle) (hw : w.stapler.work = some m) (ho : m.op = .cutOff)
    (hh : w.stapler.queue.head? = some m.handle) (hs : w.stillStapling m = true) : w.reissueVolume = w.startVolume m := by
  unfold Work.reissueVolume
  rw [hw]
  dsimp only
  rw [if_pos ⟨ho, hi⟩, if_pos ⟨hh, hs⟩]

/-- The volume in hand is dropped, started again, or left alone. -/
theorem Work.reissueVolume_is (w : Work) : w.reissueVolume = w ∨ w.reissueVolume = w.setStapler .idle none none
    ∨ ∃ m, w.stapler.queue.head? = some m.handle ∧ w.reissueVolume = w.startVolume m := by
  unfold Work.reissueVolume
  split
  · exact .inl rfl
  next m _ =>
    split
    · split
      next h => exact .inr (.inr ⟨m, h.1, rfl⟩)
      · exact .inr (.inl rfl)
    · exact .inl rfl

theorem Work.reissueVolume_keeps (w : Work) :
    (∀ j, j ∉ w.stapler.queue → w.reissueVolume.pack j = w.pack j)
    ∧ (∀ c, w.reissueVolume.classQueue c = w.classQueue c)
    ∧ (∀ j ∈ w.reissueVolume.stapler.queue, j ∈ w.stapler.queue)
    ∧ w.reissueVolume.ret = { w.ret with queue := w.reissueVolume.ret.queue } ∧ w.reissueVolume.merge = w.merge := by
  rcases w.reissueVolume_is with h | h | ⟨m, hh, h⟩ <;> rw [h]
  · exact ⟨fun _ _ => rfl, fun _ => rfl, fun _ => id, rfl, rfl⟩
  · exact ⟨fun _ _ => rfl, fun _ => rfl, fun _ => id, rfl, rfl⟩
  · obtain ⟨h1, h2, h3, h4⟩ := w.startVolume_keeps m
    exact ⟨fun j hj => h1 j fun e => hj (e ▸ List.mem_of_mem_head? hh), h2, h3, h4, w.merge_startVolume m⟩

/-- RESUME starts a delivery cut off from the beginning (R126). -/
theorem Work.reissueDelivery_starts {d : DeliveryRec} (hd : w.ret.delivery = some d) (ho : d.op = .cutOff)
    (hs : w.ret.state = .ejecting) : w.reissueDelivery = w.setRet { w.ret with
      delivery := some { d with op := .inFlight, start := w.now, allowance := w.tables.settings.mechTimeout }
      command := some (d.pocket, d.bin) } := by
  unfold Work.reissueDelivery
  rw [hd]
  dsimp only
  rw [if_pos ⟨ho, hs⟩]

theorem Work.reissueDelivery_is (w : Work) : ∃ r, w.reissueDelivery = w.setRet r ∧ r.bins = w.ret.bins := by
  unfold Work.reissueDelivery
  split
  · exact ⟨w.ret, rfl, rfl⟩
  · split
    · exact ⟨_, rfl, rfl⟩
    · exact ⟨w.ret, rfl, rfl⟩

/-- The entry to a resume target changes the run state and the feeds alone. -/
theorem Work.enterTarget_same {β : Type} (g : Work → β) (hrun : ∀ (x : Work) st, g (x.setRunState st) = g x)
    (hfeed : ∀ (x : Work) f r, g (x.setFeed f r) = g x) (w : Work) (t : ResumeTarget) : g (w.enterTarget t) = g w := by
  by_cases ht : t = .bypass
  · rw [ht, w.enterTarget_bypass]
    exact (Work.each_same g _ (fun x f => hfeed x f _) _ _).trans (hrun w _)
  · rw [w.enterTarget_of_ne ht]
    exact hrun w _

/-- What the last steps of RESUME leave alone: all but the delivery, the run state and the feeds. -/
structure Work.Resumes (w u : Work) : Prop where
  reg : u.reg = w.reg
  stapler : u.stapler = w.stapler
  pockets : u.pockets = w.pockets
  attn : u.attn = w.attn
  notices : u.notices = w.notices
  arb : u.arb = w.arb
  ret : u.ret = w.reissueDelivery.ret

theorem Work.resumes (w : Work) (t : ResumeTarget) : w.Resumes (w.reissueDelivery.enterTarget t) := by
  obtain ⟨r, hr, -⟩ := w.reissueDelivery_is
  have hsame {β : Type} (g : Work → β) (hrun : ∀ (x : Work) st, g (x.setRunState st) = g x)
      (hfeed : ∀ (x : Work) f r, g (x.setFeed f r) = g x) (hret : ∀ r, g (w.setRet r) = g w) :
      g (w.reissueDelivery.enterTarget t) = g w := by
    rw [Work.enterTarget_same g hrun hfeed, hr, hret]
  refine ⟨hsame (fun x => x.reg) ?_ ?_ ?_, hsame (fun x => x.stapler) ?_ ?_ ?_, hsame (fun x => x.pockets) ?_ ?_ ?_,
    hsame (fun x => x.attn) ?_ ?_ ?_, hsame (fun x => x.notices) ?_ ?_ ?_, hsame (fun x => x.arb) ?_ ?_ ?_,
    Work.enterTarget_same (fun x => x.ret) ?_ ?_ _ _⟩
  all_goals intros; simp

/-! ### The sheets released as a step settles (R48, R53) -/

/-- The decisions of one occasion add sheets to come in their feeds' travel times. -/
theorem Work.Decides.arrivals {v : Work} (h : w.Decides v) : ∃ new, v.arb.inFlight = w.arb.inFlight ++ new
    ∧ ∀ x ∈ new, x.arrival = later w.now w.tables.travel[x.feed] := by
  induction h with
  | @done w hc =>
    rw [w.poised_eq]
    exact ⟨[], (List.append_nil _).symm, nofun⟩
  | @next w v f hc hd ih =>
    obtain ⟨x, hx⟩ := (Work.release_is hc).appends
    have hrel := (Work.Released.refl w.poised).release f
    obtain ⟨z, hz, hzi, hzn, hzt⟩ : ∃ z : Work, z = w.poised ∧ z.arb.inFlight = w.arb.inFlight ∧ z.now = w.now
        ∧ z.tables = w.tables := ⟨_, rfl, by rw [w.poised_eq], by rw [w.poised_eq], by rw [w.poised_eq]⟩
    rw [← hz] at hx hrel ih
    obtain ⟨y, hy⟩ : ∃ y, y = z.release f := ⟨_, rfl⟩
    have htravel : y.tables.travel = w.tables.travel :=
      (TableStore.settings_of_banks (by rw [hy, hrel.banks, hzt] : y.tables.banks = w.tables.banks)).2.2.1
    have hnow : y.now = w.now := by rw [hy, hrel.now, hzn]
    obtain ⟨hflight, rfl, harrival, -, -⟩ := hx
    rw [← hy, hzi] at hflight
    rw [hzn, hzt] at harrival
    rw [← hy] at ih
    obtain ⟨new, hnew, hcome⟩ := ih
    refine ⟨x :: new, by rw [hnew, hflight, List.append_assoc]; rfl, fun i hi => ?_⟩
    rcases List.mem_cons.1 hi with e | hi
    · rw [e]
      exact harrival
    · have h := hcome i hi
      rwa [hnow, htravel] at h

theorem Work.settle_arrivals (w : Work) (b : State) : ∃ new, (w.settle b).arb.inFlight = w.arb.inFlight ++ new
    ∧ ∀ x ∈ new, (w.settle b).releasing = true ∧ x.arrival = later w.now w.tables.travel[x.feed] := by
  have harb := w.goOn_arb
  have hnow := w.goOn_now
  have htravel : w.goOn.tables.travel = w.tables.travel :=
    (TableStore.settings_of_banks (Work.banks_of_frame w.frame_goOn)).2.2.1
  have hreleasing : (w.settle b).releasing = w.goOn.releasing :=
    State.releasing_of (congrArg RunControl.state (w.settle_run b))
  by_cases hr : w.goOn.releasing = true
  · rw [hr] at hreleasing
    have hflight : (w.settle b).arb.inFlight = w.goOn.decideReleases.arb.inFlight := by
      rw [Work.settle_closed, (w.goOn.decideReleases.closed_arb b).1]
    rw [hflight]
    obtain ⟨y, hy⟩ : ∃ y, y = w.goOn := ⟨_, rfl⟩
    rw [← hy] at harb hnow htravel ⊢
    rcases y.decideReleases_is with ⟨-, hd⟩ | ⟨-, hd⟩
    · obtain ⟨new, hnew, hcome⟩ := hd.arrivals
      refine ⟨new, by rw [hnew, harb], fun x hx => ⟨hreleasing, ?_⟩⟩
      have h := hcome x hx
      rwa [hnow, htravel] at h
    · rw [hd, harb]
      exact ⟨[], (List.append_nil _).symm, nofun⟩
  · refine ⟨[], ?_, nofun⟩
    rw [(Work.settle_idle (by simpa using hr) b).1, harb, List.append_nil]

/-! ### A pack and its pocket as a step settles outside STARTING -/

/-- A pack that the Stapler does not take up is left alone with its pocket, but that the delivery of a READY one may
start. -/
theorem Work.settle_leaves (hns : w.starting = false) (hs : w.plant.Sole k) (b : State)
    (hq : w.stapler.state ≠ .idle ∨ k ∉ w.stapler.queue)
    (hst : (w.pack k).state = .complete ∨ (w.pack k).state = .stapling ∨ (w.pack k).state = .ready)
    (hp : ∀ p, (w.pack k).pocket = some p → w.pockets[p].state ≠ .empty ∧ w.pockets[p].state ≠ .purging) :
    ((w.settle b).pack k = w.pack k ∧ ∀ p, (w.pack k).pocket = some p → (w.settle b).pockets[p] = w.pockets[p])
      ∨ (w.pack k).state = .ready ∧ (w.settle b).pack k = { w.pack k with state := .delivering }
        ∧ ∀ p, (w.pack k).pocket = some p → (w.settle b).pockets[p] = { w.pockets[p] with state := .ejecting } := by
  obtain ⟨y, hy, -, hstapler, -, -, -, hpack, hpockets⟩ := w.before_staple fun h => by rw [hns] at h; cases h
  have hsole : y.plant.Sole k := hs.of fun j => by rw [State.plant_pack, hpack]; rfl
  have hleaves : y.plant.Leaves k y.staple.plant := by
    rcases hq with hi | hk
    · rw [Work.staple, Work.takeUp_of_not_idle _ (.inl (by rw [hstapler]; exact hi))]
      exact .refl _ k
    · exact (Work.takeUp_leaves hsole (by rw [hstapler]; exact hk) _).1
  obtain ⟨z, hz⟩ : ∃ z, z = y.staple := ⟨_, rfl⟩
  rw [w.settle_rest, hy, ← hz]
  rw [← hz] at hleaves
  have hself : z.pack k = w.pack k := hleaves.pack.trans (congrFun hpack k)
  have hown (p : PocketId) (hkp : (w.pack k).pocket = some p) : z.pockets[p] = w.pockets[p] :=
    (hleaves.pocket p (by rw [State.plant_pack, hpack]; exact hkp)).trans (hpockets p (hp p hkp).2)
  have h := z.rest_leaves (hsole.of hleaves.names) b (by rw [hself]; exact hst)
    fun p hkp => by
      rw [hself] at hkp
      rw [hown p hkp]
      exact (hp p hkp).1
  rw [hself] at h
  refine h.imp (fun ⟨h1, h2⟩ => ⟨h1, fun p hkp => (h2 p hkp).trans (hown p hkp)⟩) fun ⟨h1, h2, h3⟩ =>
    ⟨h1, h2, fun p hkp => (h3 p hkp).trans (by rw [hown p hkp])⟩

end

end Sys2Proof.Machine
end

section
/-! SUPPORT. A volume that RESUME starts again, once its step has settled, and the settling of
`Obligations.StopHaltsAndResumeReturns`. -/

namespace Sys2Proof.Machine

section
variable {w x z : Work} {m : WorkRec}

/-! ### A volume started before the step settles (R98, R102, R103, R109) -/

theorem Work.finishPack_attn (w : Work) (k : Handle) (f : PackFlags) : (w.finishPack k f).attn = w.attn := by
  unfold Work.finishPack Work.goReady
  dsimp only
  split <;> simp [Work.holdPocket, Work.judge]

theorem Work.startVolume_names (w : Work) (m : WorkRec) (j : Handle) :
    ((w.startVolume m).pack j).pocket = (w.pack j).pocket := by
  rcases w.startVolume_is m with hn | h | ⟨f, h⟩
  · exact (Work.startVolume_begins hn).2.2.1 j
  · rw [h]
    rfl
  · rw [h]
    exact ((w.latch .staplesOut).finishPack_done m.handle f).2.2.2.1 j

/-- A short volume latches STAPLES_OUT (R102, R103). -/
theorem Work.startVolume_short (hn : w.stapler.remaining < patternCount (w.pack m.handle).snap.pattern) :
    (w.startVolume m).latched .staplesOut = true := by
  rcases w.startVolume_is m with h | h | ⟨f, h⟩
  · exact absurd hn (Nat.not_lt.2 h)
  · rw [h]
    exact State.latched_latch_self w _
  · rw [h, State.latched, Work.finishPack_attn, ← State.latched]
    exact State.latched_latch_self w _

/-- What a volume started in `x` comes to where the steps that follow, up to `z`, leave it alone, and the step then
settles. -/
theorem Work.Resumes.takesUp (h : (x.startVolume m).Resumes z) (hns : z.starting = false) (hs : x.plant.Sole m.handle)
    (hst : (x.pack m.handle).state = .complete ∨ (x.pack m.handle).state = .stapling)
    (hp : ∀ p, (x.pack m.handle).pocket = some p → x.pockets[p].state ≠ .empty ∧ x.pockets[p].state ≠ .purging) (b : State) :
    x.toState.takesUp (z.settle b).toState m x.stapler.remaining := by
  have hpack (j : Handle) : z.pack j = (x.startVolume m).pack j := Work.pack_of_reg h.reg j
  have hstapler := h.stapler
  have hpocket (p : PocketId) : z.pockets[p] = (x.startVolume m).pockets[p] := by rw [h.pockets]
  have hsole : z.plant.Sole m.handle := hs.of fun j => by
    rw [State.plant_pack, hpack, x.startVolume_names]
    rfl
  have hname : (z.pack m.handle).pocket = (x.pack m.handle).pocket := by rw [hpack, x.startVolume_names]
  have hsettles := Settles.settle b z hns
  have hleaves := Work.settle_leaves hns hsole b
  rw [hname] at hleaves
  unfold State.takesUp
  dsimp only
  refine ⟨fun hle => ?_, fun hlt => ⟨?_, fun hh => ?_, fun hd => ?_⟩⟩
  · obtain ⟨h1, h2, -, h4⟩ := Work.startVolume_begins hle
    rw [h1] at hstapler
    have hbusy : z.stapler.state ≠ .idle := by rw [hstapler]; exact nofun
    have hstate : (z.pack m.handle).state
        = if m.volume = 1 ∧ (x.pack m.handle).state = .complete then .stapling else (x.pack m.handle).state := by
      rw [hpack, h2]
    have hworks : (z.pack m.handle).state = .complete ∨ (z.pack m.handle).state = .stapling := by
      rw [hstate]
      split
      · exact .inr rfl
      · exact hst
    refine ⟨(hsettles.staplerBusy hbusy).trans hstapler, ?_⟩
    rcases hleaves (.inl hbusy) (hworks.imp_right .inl) fun p hkp => by
        rw [hpocket, h4 p hkp]
        exact ⟨nofun, nofun⟩ with ⟨a1, a2⟩ | ⟨a1, -⟩
    · exact ⟨by rw [a1, hstate], fun p hkp => by rw [a2 p hkp, hpocket, h4 p hkp]; rfl⟩
    · rcases hworks with e | e <;> rw [e] at a1 <;> cases a1
  · refine ((Evolves.refl z).settle b).latched _ ?_
    rw [State.latched, h.attn, ← State.latched]
    exact Work.startVolume_short hlt
  · have hshort : x.startVolume m = (x.latch .staplesOut).setStapler .waitingCartridge (some { m with op := .none }) none := by
      rw [show x.startVolume m = x.shortVolume m from if_pos hlt, Work.shortVolume_holds hh]
    have hself : z.pack m.handle = x.pack m.handle := by
      rw [hpack, hshort]
      rfl
    have hown (p : PocketId) : z.pockets[p] = x.pockets[p] := by
      rw [hpocket, hshort]
      rfl
    have hwait : z.stapler = { x.stapler with
        state := .waitingCartridge, work := some { m with op := .none }, command := none } := by
      rw [hstapler, hshort]
      rfl
    have hbusy : z.stapler.state ≠ .idle := by rw [hwait]; exact nofun
    refine ⟨(hsettles.staplerBusy hbusy).trans hwait, ?_⟩
    rcases hleaves (.inl hbusy) (by rw [hself]; exact hst.imp_right .inl) fun p hkp => by
        rw [hown]
        exact hp p hkp with ⟨a1, a2⟩ | ⟨a1, -⟩
    · exact ⟨a1.trans hself, fun p hkp => (a2 p hkp).trans (hown p)⟩
    · rw [hself] at a1
      rcases hst with e | e <;> rw [e] at a1 <;> cases a1
  · obtain ⟨f, hf, hshort⟩ : ∃ f, f = (if m.stapled = 0 then { (x.pack m.handle).flags with unstapled := true }
        else { (x.pack m.handle).flags with partlyStapled := true })
        ∧ x.startVolume m = (x.latch .staplesOut).finishPack m.handle f :=
      ⟨_, rfl, by rw [show x.startVolume m = x.shortVolume m from if_pos hlt, Work.shortVolume_delivers hd]⟩
    obtain ⟨h1, -, h3, -, h5⟩ := (x.latch .staplesOut).finishPack_done m.handle f
    rw [← hshort] at h1 h3 h5
    have hself : z.pack m.handle = { x.pack m.handle with state := .ready, flags := f } := (hpack _).trans h3
    have hown (p : PocketId) (hkp : (x.pack m.handle).pocket = some p) :
        z.pockets[p] = x.pockets[p].finished (x.pack m.handle).volumes := (hpocket p).trans (h5 p hkp)
    have hout : m.handle ∉ z.stapler.queue := by rw [hstapler]; exact h1
    rw [← hf]
    refine ⟨fun hk => hout (hsettles.stapleQueue _ hk), ?_⟩
    rcases hleaves (.inr hout) (by rw [hself]; exact .inr (.inr rfl)) fun p hkp => by
        rw [hown p hkp]
        exact ⟨nofun, nofun⟩ with ⟨a1, a2⟩ | ⟨-, a1, a2⟩
    · rw [a1, hself]
      exact ⟨.inl rfl, rfl, fun p hkp => ⟨.held, by simp, (a2 p hkp).trans (hown p hkp)⟩⟩
    · rw [a1, hself]
      exact ⟨.inr rfl, rfl, fun p hkp => ⟨.ejecting, by simp, (a2 p hkp).trans (by rw [hown p hkp]; rfl)⟩⟩

end

end Sys2Proof.Machine
end

section
/-! SUPPORT. What RESUME comes to once its step has settled (R142), and the settling of
`Obligations.StopHaltsAndResumeReturns`. -/

namespace Sys2Proof.Machine

section
variable {s : State} {x : Work} {k : Handle} {m : WorkRec} (hx : x = (Work.of s).flushInFlight)
include hx

/-! ### The in-flight list flushed (R62) -/

theorem Work.flush_all : x = ((Work.of s).setArb { s.arb with inFlight := [] }).requestAll s.arb.inFlight .resumeFlush :=
  hx.trans (Work.flushInFlight_eq _)

theorem Work.flush_keeps : x.ret = { s.ret with queue := x.ret.queue } ∧ x.arb.inFlight = [] ∧ x.now = s.now
    ∧ x.tables.settings = s.tables.settings := by
  have hspares := ((Work.of s).setArb { s.arb with inFlight := [] }).requestAll_spares s.arb.inFlight .resumeFlush
  have hframe := ((Work.of s).setArb { s.arb with inFlight := [] }).frame_requestAll s.arb.inFlight .resumeFlush
  rw [← Work.flush_all hx] at hspares hframe
  exact ⟨hspares.ret, by rw [hspares.arb]; rfl, Work.now_of_frame hframe, Work.settings_of_frame hframe⟩

/-- The packs that take no request stand. -/
theorem Work.flush_pack (h : ∀ e ∈ s.arb.inFlight, s.Passes k e) : x.pack k = s.pack k := by
  rw [Work.flush_all hx]
  exact Work.requestAll_pack (w := (Work.of s).setArb _) h

theorem Work.flush_leaves (hs : s.plant.Sole k) (h : ∀ e ∈ s.arb.inFlight, s.Passes k e) : s.plant.Leaves k x.plant := by
  rw [Work.flush_all hx]
  exact Work.requestAll_leaves (w := (Work.of s).setArb { s.arb with inFlight := [] }) hs h

theorem Work.flush_stapler (h : ∀ e ∈ s.arb.inFlight, ∀ j ∈ s.stapler.queue, s.Passes j e) : x.stapler = s.stapler := by
  rw [Work.flush_all hx]
  exact Work.requestAll_stapler (w := (Work.of s).setArb _) h

theorem Work.flush_head (hk : s.stapler.queue.head? = some k) (h : ∀ e ∈ s.arb.inFlight, e.handle ≠ some k) :
    ∃ q, x.stapler = { s.stapler with queue := q } ∧ q.head? = some k := by
  rw [Work.flush_all hx]
  exact Work.requestAll_head (w := (Work.of s).setArb _) hk h

/-! ### The pack of an entry flushed (R130, R142) -/

/-- The pack of a COLLATE entry stands remade as RESUME ends, its notice formed. -/
theorem Work.resume_remade {u : Work} (hu : x.reissueVolume.Resumes u) (ht : s.takesRestart k (s.pack k).gen = true)
    (he : ∃ e ∈ s.arb.inFlight, e.disp = .collate ∧ e.handle = some k)
    (hg : ∀ e ∈ s.arb.inFlight, e.disp = .collate → e.handle = some k → e.gen = (s.pack k).gen) :
    s.Remade k u ∧ ∃ pre post, u.notices = pre ++ s.restartNotice k .resumeFlush :: post
      ∧ pre.length < s.arb.inFlight.length := by
  have hflushed := Work.requestAll_remade (s := s) (w := (Work.of s).setArb { s.arb with inFlight := [] })
    (c := .resumeFlush) rfl rfl ht he hg
  rw [← Work.flush_all hx] at hflushed
  obtain ⟨hremade, pre, post, hnotices, hlt⟩ := hflushed
  obtain ⟨hpack, hclass, hqueue, -, hmerge⟩ := x.reissueVolume_keeps
  have hvolume : s.Remade k x.reissueVolume := hremade.of (hpack k hremade.1) (hqueue k)
    (fun c => by rw [hclass]; exact id) ((Evolves.refl x).reissueVolume.latched)
  refine ⟨hvolume.of (Work.pack_of_reg hu.reg k) (by rw [hu.stapler]; exact id)
    (fun c => by rw [State.classQueue, hu.reg]; exact id) (fun c => by rw [State.latched, State.latched, hu.attn]; exact id),
    pre, post, ?_, hlt⟩
  rw [hu.notices, show x.reissueVolume.notices = x.notices from congrArg Merge.notices hmerge, hnotices]
  rfl

/-! ### What was cut off, reissued (R108, R109, R126) -/

/-- The volume of a pack that no entry names is begun again where the staples suffice. -/
theorem Work.resume_begins {u : Work} (hu : x.reissueVolume.Resumes u) (hns : u.starting = false)
    (hi : s.stapler.state = .idle) (hw : s.stapler.work = some m) (ho : m.op = .cutOff)
    (hh : s.stapler.queue.head? = some m.handle) (hs : s.stillStapling m = true)
    (he : ∀ e ∈ s.arb.inFlight, e.handle ≠ some m.handle) {p : PocketId} (hp : (s.pack m.handle).pocket = some p)
    (hle : patternCount (s.pack m.handle).snap.pattern ≤ s.stapler.remaining) (b : State) :
    (u.settle b).stapler.state = .stapling
      ∧ (u.settle b).stapler.work = some { m with
          op := .inFlight, start := s.now, allowance := s.tables.settings.mechTimeout }
      ∧ (u.settle b).stapler.command = some (p, patternCount (s.pack m.handle).snap.pattern)
      ∧ (u.settle b).stapler.remaining = s.stapler.remaining - patternCount (s.pack m.handle).snap.pattern := by
  obtain ⟨-, -, hnow, hset⟩ := Work.flush_keeps hx
  have hpack := Work.flush_pack hx (k := m.handle) fun e hmem _ hk => absurd hk (he e hmem)
  obtain ⟨q, hstapler, hhead⟩ := Work.flush_head hx hh he
  have hstarts : x.reissueVolume = x.startVolume m := Work.reissueVolume_starts (by rw [hstapler, hi])
    (by rw [hstapler, hw]) ho (by rw [hstapler]; exact hhead) (by rwa [State.stillStapling, hpack])
  have hbegun := (Work.startVolume_begins (w := x) (m := m) (by rw [hpack, hstapler]; exact hle)).1
  rw [← hstarts, ← hu.stapler, hpack, hstapler, hnow, hset, hp] at hbegun
  rw [(Settles.settle b u hns).staplerBusy (by rw [hbegun]; exact nofun), hbegun]
  exact ⟨rfl, rfl, rfl, rfl⟩

/-- The volume cut off is begun again or found short, where no pack of the staple queue is flushed. -/
theorem Work.resume_takesUp {u : Work} (hu : x.reissueVolume.Resumes u) (hns : u.starting = false)
    (hq : s.stapleQueueSound) (hp : s.pocketsAgree) (hi : s.stapler.state = .idle) (hw : s.stapler.work = some m)
    (ho : m.op = .cutOff) (hh : s.stapler.queue.head? = some m.handle) (hs : s.stillStapling m = true)
    (he : ∀ e ∈ s.arb.inFlight, ∀ j ∈ s.stapler.queue, s.Passes j e) (b : State) :
    s.takesUp (u.settle b).toState m s.stapler.remaining := by
  obtain ⟨-, -, hnow, hset⟩ := Work.flush_keeps hx
  have hmem : m.handle ∈ s.stapler.queue := List.mem_of_mem_head? hh
  have hstate : (s.pack m.handle).state = .complete ∨ (s.pack m.handle).state = .stapling := hq.2 _ hmem
  have hsole := State.sole_of_agree hp m.handle
  have hstapler := Work.flush_stapler hx he
  have hleaves := Work.flush_leaves hx hsole fun e hin => he e hin _ hmem
  have hpack : x.pack m.handle = s.pack m.handle := hleaves.pack
  have hpocket (p : PocketId) (hkp : (s.pack m.handle).pocket = some p) : x.pockets[p] = s.pockets[p] :=
    hleaves.pocket p hkp
  have hhoused (p : PocketId) (hkp : (s.pack m.handle).pocket = some p) :
      s.pockets[p].state ≠ .empty ∧ s.pockets[p].state ≠ .purging := by
    have hhouse := (hp.2 m.handle).2 p hkp
    constructor <;> intro e <;> rw [e] at hhouse <;>
      rcases hstate with e' | e' <;> rw [e'] at hhouse <;> simp [PackState.housedBy] at hhouse
  have hstarts : x.reissueVolume = x.startVolume m := Work.reissueVolume_starts (by rw [hstapler, hi])
    (by rw [hstapler, hw]) ho (by rw [hstapler]; exact hh) (by rwa [State.stillStapling, hpack])
  rw [hstarts] at hu
  have htakes := hu.takesUp hns (hsole.of hleaves.names) (by rwa [hpack]) (fun p hkp => by
    rw [hpack] at hkp
    rw [hpocket p hkp]
    exact hhoused p hkp) b
  rw [hstapler] at htakes
  exact State.takesUp_of htakes hpack (by rw [hstapler]) hnow hset hpocket

/-- The delivery cut off is begun again. -/
theorem Work.resume_delivers {u : Work} (hu : x.reissueVolume.Resumes u) (hns : u.starting = false) {d : DeliveryRec}
    (hst : s.ret.state = .ejecting) (hd : s.ret.delivery = some d) (ho : d.op = .cutOff) (b : State) :
    (u.settle b).ret.delivery = some { d with
        op := .inFlight, start := s.now, allowance := s.tables.settings.mechTimeout }
      ∧ (u.settle b).ret.command = some (d.pocket, d.bin) := by
  obtain ⟨hret, -, hnow, hset⟩ := Work.flush_keeps hx
  obtain ⟨-, -, -, hvolume, -⟩ := x.reissueVolume_keeps
  have hframe := x.frame_reissueVolume
  obtain ⟨y, hy⟩ : ∃ y, y = x.reissueVolume := ⟨_, rfl⟩
  rw [← hy] at hu hvolume hframe
  have hyret : y.ret.state = s.ret.state ∧ y.ret.delivery = s.ret.delivery := by
    rw [hvolume, hret]
    exact ⟨rfl, rfl⟩
  have hstarts := Work.reissueDelivery_starts (hyret.2.trans hd) ho (hyret.1.trans hst)
  rw [Work.now_of_frame hframe, Work.settings_of_frame hframe, hnow, hset] at hstarts
  have huret := hu.ret
  rw [hstarts] at huret
  obtain ⟨-, h1, h2⟩ := (Settles.settle b u hns).returnBusy (by
    rw [huret]
    show y.ret.state ≠ .idle
    rw [hyret.1, hst]
    exact nofun)
  rw [h1, h2, huret]
  exact ⟨rfl, rfl⟩

end

/-- The Record Handler takes nothing while a record is held back (R173). -/
theorem State.held_of_takesCommand {s : State} {c : Instr} (h : s.takesCommand c) : s.link.held = [] := by
  cases hr : recordOf c with
  | none => rw [State.takesCommand, hr] at h; exact h.elim
  | some r =>
    rw [State.takesCommand, hr] at h
    have hready := h.1.1
    rw [State.handlerReady, Bool.and_eq_true, Bool.and_eq_true] at hready
    exact List.isEmpty_iff.1 hready.1.2

/-- The link of a STOP character taken: the receiver WAITING, and the character echoed in loopback (R165, R175). -/
theorem State.echoed_stop (s : State) : { s with link := { s.link.echo ⟨true, 0xE5⟩ with receiver := .waiting } }
    = { s with link := { s.link with
        receiver := .waiting
        echoes := if s.link.loopback = true ∧ s.link.echoes.length < 32
          then s.link.echoes ++ [⟨true, 0xE5⟩] else s.link.echoes } } := by
  rw [LinkPort.echo]
  by_cases h : s.link.loopback = true ∧ s.link.echoes.length < 32
  · rw [if_pos h, if_pos (by rw [h.1, decide_eq_true (show s.link.echoes.length < Config.echoLimit from h.2)]; rfl)]
  · rw [if_neg h, if_neg fun h' => h ?_]
    rw [Bool.and_eq_true, decide_eq_true_eq] at h'
    exact h'

/-! ### RESUME taken -/

section
variable {T : State} {target : ResumeTarget} {u v : Work}

theorem Work.resume_running (hu : u = (Work.of T).resume target) : u.starting = false := by
  rw [State.starting_eq, hu, Work.resume, Work.runState_enterTarget]
  cases target <;> rfl

theorem Work.resume_resumes {x : Work} (hx : x = (Work.of T).flushInFlight) (hu : u = (Work.of T).resume target) :
    x.reissueVolume.Resumes u := by
  rw [hu, Work.resume, ← hx]
  exact x.reissueVolume.resumes target

theorem Evolves.answer {w : Work} (h : Evolves u w) {k : Byte} {st : Status} {d : List Byte} {n : Notes} :
    Evolves u (w.answer k st d n) := ⟨h.packs, h.packsWf, h.queuesWf, h.latched, h.output, h.notices⟩

/-- What RESUME comes to in any state: its target entered, and the sheets it releases to come. -/
theorem Work.resume_settles (hu : u = (Work.of T).resume target) (hv : v = u.settle T) :
    Work.From T v ∧ T.keepsBins v.toState [] ∧ v.run.state = target.state
      ∧ ∀ e ∈ v.arb.inFlight, v.releasing = true ∧ e.arrival = later T.now T.tables.travel[e.feed] := by
  have hns := Work.resume_running hu
  have hfrom : Work.From T u := hu ▸ (Work.From.of T).evolves ((Evolves.refl _).resume target) (Work.frame_resume _ _)
  obtain ⟨x, hx⟩ : ∃ x, x = (Work.of T).flushInFlight := ⟨_, rfl⟩
  have hresumes := Work.resume_resumes hx hu
  obtain ⟨hret, hflight, -, -⟩ := Work.flush_keeps hx
  obtain ⟨-, -, -, hvolume, hmerge⟩ := x.reissueVolume_keeps
  obtain ⟨r, hr, hbins⟩ := x.reissueVolume.reissueDelivery_is
  have hubins : u.ret.bins = T.ret.bins := by
    rw [hresumes.ret, hr, Work.setRet_ret, hbins, hvolume, hret]
  have hrun : u.run.state = target.state := by rw [hu, Work.resume, Work.runState_enterTarget]
  have huflight : u.arb.inFlight = [] := by rw [hresumes.arb, Work.arb_of_merge hmerge, hflight]
  obtain ⟨new, hnew, hcome⟩ := u.settle_arrivals T
  rw [← hv, huflight, List.nil_append] at hnew
  rw [← hv, hfrom.now_eq, (TableStore.settings_of_banks (TableStore.banks_of_unmarked hfrom.tables_eq)).2.2.1] at hcome
  refine ⟨hv ▸ hfrom.settle T, hv ▸ (State.keepsBins_of_bins hubins []).settle T, ?_, by rw [hnew]; exact hcome⟩
  rcases (Settles.settle T u hns).run with h | ⟨⟨o, h⟩, -⟩
  · rw [hv, h, hrun]
  · rw [hrun] at h
    cases target <;> cases h

end

end Sys2Proof.Machine

namespace Sys2Proof.Proofs

open Sys2Proof.Machine

/-- Settles O60: the halt cuts off what is in flight; RESUME requests the restart of every pack flushed, starts again what
was cut off, and settles in the resume target. -/
theorem stopHaltsAndResumeReturns : Obligations.StopHaltsAndResumeReturns := by
  unfold Obligations.StopHaltsAndResumeReturns
  refine ⟨fun base c hc => ?_, fun s => ⟨fun h => ?_, fun h => ?_, exec_stopInputRise⟩, fun a s ht => ⟨fun hno hf => ?_,
    fun cause target hrun hstop => ?_⟩⟩
  · rcases hc with rfl | ⟨rfl, h⟩
    · refine ⟨_, exec_stopCharacter base, ?_⟩
      rw [if_pos rfl, ← base.echoed_stop]
      exact Work.takeStop_stops _ _
    · refine ⟨_, exec_stopInputFall h, ?_⟩
      rw [if_neg nofun]
      exact Work.takeStop_stops _ _
  · exact exec_stays rfl h
  · exact exec_stays rfl (by rw [Instr.comes, h]; rfl)
  · obtain ⟨l, hl, -⟩ := s.takenFor_link (.resume false a)
    refine exec_answers ht hf ?_
    rw [Instr.effect, Work.controlResume, Work.of_toState, hl]
    dsimp only
    split
    next cause target hr =>
      refine if_neg ?_
      rcases hno with h | h
      · rw [State.halted_iff.2 ⟨cause, target, hr⟩] at h
        cases h
      · rw [h]
        exact nofun
    · rfl
  · obtain ⟨l, hl, htold, hout, hheld⟩ := s.takenFor_link (.resume false a)
    have hexec := exec_taken ht
    have heff : (Instr.resume false a).effect (Work.of (s.takenFor (.resume false a)))
        = ((Work.of (s.takenFor (.resume false a))).resume target).entered (s.takenFor (.resume false a)) := by
      rw [Instr.effect, Work.controlResume, Work.of_toState, hl]
      dsimp only
      rw [hrun]
      exact if_pos hstop
    have hready := State.held_of_takesCommand ht
    obtain ⟨T, hT⟩ : ∃ T, T = s.takenFor (.resume false a) := ⟨_, rfl⟩
    rw [← hT] at hexec heff hl ⊢
    obtain ⟨u, hu⟩ : ∃ u, u = (Work.of T).resume target := ⟨_, rfl⟩
    obtain ⟨v, hv⟩ : ∃ v, v = u.settle T := ⟨_, rfl⟩
    obtain ⟨hfrom, hbins, hvrun, hcome⟩ := Work.resume_settles hu hv
    rw [heff, ← hu, Work.entered, ← hv, hvrun] at hexec
    obtain ⟨x, hx⟩ : ∃ x, x = (Work.of T).flushInFlight := ⟨_, rfl⟩
    have hresumes := Work.resume_resumes hx hu
    have hns := Work.resume_running hu
    have hset : Settles u v := hv ▸ Settles.settle T u hns
    have hevolves : Evolves u v := hv ▸ (Evolves.refl u).settle T
    subst hl
    refine ⟨_, hexec, (hfrom.answer _ _ _ _).surrounds, hbins.answer.finish, ?_, hfrom.tells_taken hT, ?_,
      fun k he hg htakes => ?_, fun k p hi hw ho hh hs hno hp hle => ?_, fun k hq hp hi hw ho hh hs hno => ?_,
      fun d hst hd ho => ?_⟩
    · rw [Work.finish_run]
      exact hvrun
    · rw [Work.finish_arb]
      intro e he
      obtain ⟨h1, h2⟩ := hcome e he
      exact ⟨(State.releasing_of (congrArg RunControl.state (Work.finish_run _))).trans h1, h2⟩
    · obtain ⟨hremade, pre, post, hn, hlt⟩ := Work.resume_remade hx hresumes htakes he hg
      obtain ⟨more, hmore⟩ := hevolves.notices
      have hlt : pre.length < s.arb.inFlight.length := hlt
      refine ⟨hremade.settles (v := v.answer _ _ _) (hset.same rfl rfl rfl rfl rfl rfl rfl rfl rfl rfl) hevolves.answer,
        fun h20 h24 => ?_⟩
      have htells := (hfrom.answer kindControl .accepted [runCode (runCodeOf target.state)] {}).tells_notice
        (pre := pre) (out := s.restartNotice k .resumeFlush) (post := post ++ more)
        (by rw [Work.answer_notices, ← hmore, hn]; simp; rfl) (hheld.trans hready)
        (show l.outbound.length + pre.length < 24 by rw [hout]; omega)
        (show (l.outbound.filter OutRecord.isNotice).length + pre.length < 20 by rw [hout]; omega)
      obtain ⟨y, z, h⟩ := htells
      exact ⟨y, z, h.trans (by rw [← htold]; rfl)⟩
    · rw [Work.finish_stapler]
      have hbegins := Work.resume_begins hx hresumes hns hi hw ho hh hs hno hp hle { s with link := l }
      rw [← hv] at hbegins
      exact hbegins
    · have htakes := Work.resume_takesUp hx hresumes hns hq hp hi hw ho hh hs (fun e he j hj hd hk => hno e he hd j hj hk)
        { s with link := l }
      rw [← hv] at htakes
      exact State.takesUp.finish (w := v.answer _ _ _) htakes
    · rw [Work.finish_ret]
      have hdelivers := Work.resume_delivers hx hresumes hns hst hd ho { s with link := l }
      rw [← hv] at hdelivers
      exact hdelivers

end Sys2Proof.Proofs
end
